-- ==== Sys2Proof/Word.lean ====
section
/-! DEFINITION. The byte, the station address and the plain containers the model is written in. -/
namespace Sys2Proof

/-- One byte of a frame, a card message, a sign message or the tariff image. -/
abbrev Byte := BitVec 8

/-- A station address, 0 to 3 (R197). -/
abbrev Addr := Fin 4

end Sys2Proof
end

