-- ==== Sys2Proof/Syntax.lean ====
section
/-! DEFINITION. The commands of spec/opcode_table.json, one constructor of `Instr` per row, in the table's order,
with the operands the rules give each row, and the field values they are made of (Tables 12-1 to 12-6). -/
namespace Sys2Proof

/-- Kind of a hire (R1, Table 12-3). -/
inductive Kind | shared | exclusive
  deriving DecidableEq, Repr

/-- Hire state as a beacon carries it (Table 5-5, Table 12-3). -/
inductive HireState | free | hired | stopped | paying
  deriving DecidableEq, Repr

/-- Shift state (R149). -/
inductive ShiftState | offShift | onShift | closing
  deriving DecidableEq, Repr

/-- Charging state of a SWITCHED band (R27, R36). -/
inductive Charging | time | dist
  deriving DecidableEq, Repr

/-- Outcome of a closed hire (R21). -/
inductive HireOutcome | settled | unpaid | cancelled
  deriving DecidableEq, Repr

/-- Reasons of a REFUSED reply (Table 12-3). -/
inductive Reason
  | wrongState | offShift | closing | noCapacity | partyRange | vehicleEngaged | claimLost | tariffMismatch
  | noTariff | clockUnset | extrasFull | extraLimit | amountRange | cancelTooLate | resumeTooLate
  | paymentActive | cardUnavailable | cardBlocked | privacy | linkSilent
  deriving DecidableEq, Repr

/-- Result of a command: DONE, or REFUSED with a reason (R6). -/
inductive Reply | done | refused (r : Reason)
  deriving DecidableEq, Repr

/-- Where a command comes from: station 0's keys, or a COMMAND frame with its sender and target (R1, R5). -/
inductive Source | localKey | frame (sender target : Addr)
  deriving DecidableEq, Repr

/-- Reason of a SHIFT_REFUSE (R160). -/
inductive RefuseReason | number | busy
  deriving DecidableEq, Repr

/-- Status of the card module (Table 8-1). -/
inductive CardStatus | ready | cardWait | processing | outOfService
  deriving DecidableEq, Repr

/-- Outcome word of a RESULT (Table 12-6). -/
inductive CardOutcome | approved | partApproved | declined | cancelled | cardError | refused
  deriving DecidableEq, Repr

/-- The commands of Table 12-2, as station 0 forms them. -/
inductive Cmd
  | hire (kind : Kind) (party : Nat)
  | stop | resume | cancel
  | extra (code amount : Nat)
  | extraRemove | unpaid
  | payCash (tendered : Nat)
  | payAccount (digits number : Nat)
  | payCard | cardCancel
  | connect | disconnect | listen | listenEnd
  deriving DecidableEq, Repr

/-- The fields of a beacon (Table 5-5). `role` is the role word of Table 12-1: the seconds value from station 0,
due, sharing level and charging state from a seat. -/
structure Beacon where
  shiftNo    : Nat
  shiftState : ShiftState
  hireState  : HireState
  kind       : Kind
  capacity   : Nat
  privacy    : Bool
  clockSet   : Bool
  pulseFault : Bool
  tariffNo   : Nat
  edition    : Nat
  role       : BitVec 32
  deriving DecidableEq, Repr

/-- The four parts of a summary (Table 9-5, Table 12-4). A distance is `none` when it is carried as unknown. -/
inductive SummaryPart
  | part0 (shiftNo settled cancelled unpaid warmStarts : Nat) (lost pulseFault conflict : Bool)
      (reversals metered : Nat)
  | part1 (totalDistance : Option Nat) (extras tips : Nat)
  | part2 (paidDistance : Option Nat) (cash card : Nat)
  | part3 (hiredSeconds account unpaidTotal : Nat)
  deriving DecidableEq, Repr

/-- Why a frame ended without completing (R75). -/
inductive Truncation | recessive | stopBit | badLength
  deriving DecidableEq, Repr

/-- The keys of the driver's key matrix that Table 10-1 names. -/
inductive Key
  | digit (d : Fin 10)
  | select | hireS | hireX | stop | resume | cancel | unpaid | extra | card | pay | cash | account | print
  | talk | announce | close | function | enter | clear
  deriving DecidableEq, Repr

/-- The straps as read at a start (R197, Table 11-4): the capacity pins read 0 to 7. -/
structure StrapPins where
  addr     : Addr
  capacity : Fin 8
  buttons  : Bool
  card     : Bool
  deriving DecidableEq, Repr

/-- The two causes that stop a station (R189, R191). -/
inductive StopCause | fail | pin
  deriving DecidableEq, Repr

/-- How far the steps of a start get (R193 to R195): to the first slot, or cut by a stop before the retained
domain is touched, or cut by a stop during the initialisation or restoration of the domain, whose hold lasts or,
with `short`, does not last (R189). -/
inductive StartEnd | complete | cutEarly (c : StopCause) | cutInDomain (c : StopCause) (short : Bool)
  deriving DecidableEq, Repr

/-- The commands: one constructor per row of spec/opcode_table.json. -/
inductive Instr
  | hire (src : Source) (seq : Nat) (kind : Kind) (party : Nat)
  | stop (src : Source) (seq : Nat)
  | resume (src : Source) (seq : Nat)
  | cancel (src : Source) (seq : Nat)
  | extra (src : Source) (seq code amount : Nat)
  | extraRemove (src : Source) (seq : Nat)
  | unpaid (src : Source) (seq : Nat)
  | payCash (src : Source) (seq tendered : Nat)
  | payAccount (src : Source) (seq digits number : Nat)
  | payCard (src : Source) (seq : Nat)
  | cardCancel (src : Source) (seq : Nat)
  | connect (src : Source) (seq : Nat)
  | disconnect (src : Source) (seq : Nat)
  | listen (src : Source) (seq : Nat)
  | listenEnd (src : Source) (seq : Nat)
  | claimReceived (sender : Addr) (kind : Kind) (party seq : Nat)
  | objectReceived (sender target : Addr)
  | replyReceived (sender target : Addr) (seq : Nat) (result : Reply)
  | hireStartReceived (sender : Addr) (hireNo : Nat) (kind : Kind)
  | hireStopReceived (sender : Addr) (hireNo due : Nat)
  | hireClosedReceived (sender : Addr) (hireNo : Nat) (outcome : HireOutcome)
  | callEvent (sender : Addr)
  | callWithdrawEvent (sender : Addr)
  | speakerHeldEvent (sender : Addr)
  | speakerFreeEvent (sender : Addr)
  | privacyOnEvent (sender : Addr)
  | privacyOffEvent (sender : Addr)
  | beaconReceived (sender : Addr) (content : Beacon)
  | distressFrame (sender : Addr) (setTime shiftNo : Nat)
  | shiftOpen (sender : Addr) (rejoin : Bool) (shiftNo driver : Nat)
  | shiftCall (sender : Addr) (shiftNo : Nat)
  | shiftSummary (sender : Addr) (part : SummaryPart)
  | lateSummaryPart (sender : Addr) (part : SummaryPart)
  | shiftRefuse (sender : Addr) (reason : RefuseReason) (shiftNo : Nat)
  | shiftDone (sender : Addr) (forced : Bool) (shiftNo : Nat) (addrs : List Addr)
  | shiftAbandon (sender : Addr) (shiftNo : Nat)
  | recordQuery (sender : Addr) (hireNo : Nat) (target : Addr) (first : Nat)
  | recordPart (sender : Addr) (k m hireNo : Nat) (data : List Byte)
  | frameDropped (chars : List Byte)
  | truncatedFrame (cause : Truncation)
  | addressClash
  | lineIdle
  | arbitrationLost
  | transmitAbort
  | fairnessPauseEnd
  | frameSent
  | slotEnd
  | pulseFaultRaised
  | pulseFaultCleared
  | faultSecond
  | odometerPulse
  | claimWindowEnd
  | lateClose
  | resumeTimerExpiry
  | replyLimitExpiry (target : Addr)
  | deferredCommandOffer (target : Addr)
  | peerAgeExpiry (addr : Addr)
  | beaconPeriod
  | signRepeatPeriod
  | signReply (b0 b1 b2 : Byte)
  | signReplyTimeout
  | signSilent
  | lampTestEnd
  | distressInputActive
  | distressInputInactive
  | distressHoldExpiry
  | startInhibitEnd
  | distressPeriod
  | callShortPress
  | callLongPress
  | callTimerExpiry
  | queueEntryExpiry (addr : Addr)
  | talkKey
  | talkTimerExpiry
  | endTalkTimerExpiry
  | announcePress
  | announceRelease
  | announceTimerExpiry
  | startupCallWithdraw
  | promptRelease
  | passengerUp
  | passengerDown
  | passengerOk
  | tipTimerExpiry
  | cardPaySend
  | cardCancelSend
  | pollTick
  | cardRequestSent
  | cardResponseExpiry
  | moduleAbsent
  | transactionInDoubt
  | overallTimerExpiry
  | status (txn : Nat) (st : CardStatus)
  | result (txn : Nat) (outcome : CardOutcome) (approved scheme lastFour : Nat) (auth : List Nat)
  | notFound (txn : Nat)
  | reversed (txn : Nat)
  | cardFrameDiscarded (bytes : List Byte)
  | cardFrameTruncated (late : Option Byte)
  | select (d : Fin 10)
  | keyPress (key : Key)
  | clear
  | keySequenceTimeout
  | commandSequence (cmd : Cmd)
  | closeKey
  | shiftOpenKeyed (driver : Nat)
  | clockSetting (year month day hour minute : Nat)
  | lampTest
  | servicePage
  | lastReport
  | forcedClose
  | distressClear (d0 d1 d2 d3 : Fin 10)
  | print (hireNo : Nat)
  | collectTimeExpiry
  | seatClosingLimitExpiry
  | printJobActive
  | printBuild
  | partLimitExpiry
  | printLineFlush
  | printerReady
  | paperOut
  | paperReturn
  | outcomeDisplayExpiry
  | volumeDisplayExpiry
  | supplyLow
  | supplyNormal
  | supplyFail (cut : Bool)
  | resetAsserted
  | backupLoss
  | start (pins : StrapPins) (image : Option (List Byte)) (reach : StartEnd)
  | clockSecond
  | callPressed
  | supplyLevelChange (mv : Nat)
  | resetReleased
  deriving DecidableEq, Repr

end Sys2Proof
end

