-- ==== Sys2Proof/Decode.lean ====
section
/-! DEFINITION. Commands spelt by words: no row of spec/opcode_table.json gives bits (every "fields" is empty), so no word
spells a command. -/
namespace Sys2Proof

/-- The command that a word spells by the table's bits: none, as no row gives any. -/
def decodeTableWord (_nbits _w : Nat) : Option Instr := none

end Sys2Proof
end

