-- ==== Sys2Proof/Config.lean ====
section
/-! DEFINITION. The free values: what the spec leaves open, as constants without a body (log entries 2, 5, 7 and 8).
`PrintLabel` names the items that R168 and R184 list, whose printed characters the spec does not give. -/
namespace Sys2Proof

/-- The items of receipts, reports and slips (R168, R184, R199). -/
inductive PrintLabel
  | headingStart | headingRest | headingRestMinutes | recordUnavailable | recordShortened
  | paidDistance | hiredTime | flagFall | distanceCharge | timeCharge | rounding | topUp | extra | due
  | tip | tenderCash | tenderCard | tenderAccount | outcome | unpaid | saving
  | flagConflict | flagPowerGap | flagPulseFault | flagCapped
  | reportHeading | reportForced | rowComplete | rowAbsent | rowNotExpected | rowZeroCounts
  | sumCounts | sumDistances | sumIncomplete | sumMoney | reconciliation | reversalEntry
  | stationZeroFlags | distancesUnknown | totalsLost | noReport
  | slipHeading | slipFields | slipAlreadyReported
  deriving DecidableEq, Repr

/-- Free value (log entry 5): which of the offers made at the same moment is admitted next (R81). -/
opaque Config.offerOrder : Nat → Nat

/-- Free value (log entry 2): which of the events that fall due at the same moment is taken first (00 0.5). -/
opaque Config.tieOrder : Nat → Nat

/-- Free value (log entry 7): the characters and emphasis marks that print an item with its values (R184).
`inl` is a TEXT character, `inr true` EMPHASIS_ON and `inr false` EMPHASIS_OFF (R181). -/
opaque Config.lineText : PrintLabel → List Nat → List (Char ⊕ Bool)

/-- Free value (log entry 8): the 6-bit code of one authorisation character (R199, Table 12-5). -/
opaque Config.authCode : Nat → BitVec 6

end Sys2Proof
end

