-- ==== Sys2Proof/Machine/State.lean ====
section
/-! DEFINITION. The state of one CS20 station as plain data, block by block (Table 0-1), and its value at reset.
A `Timer` is the time left on the timebase in units of 100 microseconds, `none` when it does not run (log entry 1). -/
namespace Sys2Proof.Machine

/-- Time left on the timebase, in units of 100 microseconds; `none` when not running (R55, log entry 1). -/
abbrev Timer := Option Nat

/-- One item for each of the four addresses. -/
structure Quad (α : Type) where
  s0 : α
  s1 : α
  s2 : α
  s3 : α
  deriving DecidableEq, Repr

/-! ### Tariff image (R62 to R66, Table 4-1) -/

inductive BandMode | switched | combined
  deriving DecidableEq, Repr

/-- The parameters of one band (Table 2-1). -/
structure Band where
  mode : BandMode
  fb   : Nat
  fmin : Nat
  d0   : Nat
  t0   : Nat
  ld   : Nat
  sd   : Nat
  lt   : Nat
  st   : Nat
  vs   : Nat
  vh   : Nat
  f1   : Nat
  f2   : Nat
  f3   : Nat
  f4   : Nat
  deriving DecidableEq, Repr

/-- One calendar entry: its day-type set, start minute and band index (R65, R70). -/
structure CalEntry where
  weekday  : Bool
  saturday : Bool
  sunday   : Bool
  holiday  : Bool
  start    : Nat
  band     : Nat
  deriving DecidableEq, Repr

/-- A date (R56, R65). -/
structure Date where
  year  : Nat
  month : Nat
  day   : Nat
  deriving DecidableEq, Repr

inductive ExtraKind | fixed | entered | perPassenger
  deriving DecidableEq, Repr

/-- One defined code of the extras table (Table 2-2, R65). -/
structure ExtraDef where
  kind   : ExtraKind
  amount : Nat
  limit  : Nat
  deriving DecidableEq, Repr

/-- A validated tariff image (Table 4-1). -/
structure Image where
  number    : Nat
  edition   : Nat
  k         : Nat
  vmax      : Nat
  respCode  : Nat
  bright    : Nat
  pollUnits : Nat
  currency  : Nat
  clearCode : List Nat
  bands     : List (Option Band)
  calendar  : List CalEntry
  holidays  : List Date
  extras    : List (Option ExtraDef)
  tips      : List Nat
  deriving DecidableEq, Repr

/-! ### Hire controller and fare engine (chapters 1 and 2) -/

/-- The band snapshot of a running hire (Table 2-1, R26). -/
structure Snapshot where
  band      : Band
  k         : Nat
  vmax      : Nat
  pmax      : Nat
  threshold : Nat
  deriving DecidableEq, Repr

/-- One applied payment (R19, R137, R144, R145). -/
inductive Tender
  | cash (applied tendered change : Nat)
  | card (applied txn scheme lastFour : Nat) (auth : List Nat)
  | account (applied digits number : Nat)
  deriving DecidableEq, Repr

/-- A hire record without its band snapshot, as the hire log keeps it (Table 1-2). -/
structure HireRecord where
  no           : Nat
  shiftNo      : Nat
  kind         : Kind
  party        : Nat
  bandIdx      : Nat
  start        : Nat
  stop         : Option Nat
  close        : Option Nat
  charging     : Option Charging
  allowD       : Nat
  allowT       : Nat
  accD         : Nat
  accT         : Nat
  carry        : Nat
  flagFall     : Nat
  distCharge   : Nat
  timeCharge   : Nat
  rounding     : Option Nat
  topUp        : Option Nat
  due          : Option Nat
  undiscounted : Nat
  paidPulses   : Nat
  hiredTenths  : Nat
  paidDistance : Option Nat
  hiredSeconds : Option Nat
  lastSlot     : Nat
  level        : Nat
  extras       : List (Nat × Nat)
  tip          : Option Nat
  tenders      : List Tender
  privacy      : Bool
  conflict     : Bool
  powerGap     : Bool
  pulseFault   : Bool
  capped       : Bool
  gapSeconds   : Nat
  unpaid       : Option Nat
  outcome      : Option HireOutcome
  deriving DecidableEq, Repr

/-- A hire in the slot: its record and its band snapshot (R2, R26). -/
structure Hire where
  rc   : HireRecord
  snap : Snapshot
  deriving DecidableEq, Repr

/-- An open claim (R1, R8). `id` is the identity of its CLAIM entry; `window` runs once it is sent. -/
structure Claim where
  kind   : Kind
  party  : Nat
  seq    : Nat
  src    : Source
  id     : Nat
  sent   : Bool
  window : Timer
  deriving DecidableEq, Repr

/-- The hire slot (R1, Table 1-1). -/
inductive Slot
  | free
  | claiming (c : Claim)
  | hired (h : Hire)
  | stopped (h : Hire)
  | paying (h : Hire)
  deriving DecidableEq, Repr

/-- A hire event (R22). -/
inductive HireEvent
  | start (no : Nat) (kind : Kind)
  | stop (no due : Nat)
  | closed (no : Nat) (outcome : HireOutcome)
  deriving DecidableEq, Repr

structure HireCtl where
  slot      : Slot
  log       : List HireRecord
  nextNo    : Nat
  resume    : Timer
  reply     : Option (Nat × Reply)
  event     : Option HireEvent
  objects   : List Addr
  claimHeld : Bool
  claimId   : Nat
  tally     : Nat
  speed     : Nat
  deriving DecidableEq, Repr

/-! ### Link controller (chapter 5) -/

/-- The identity of a queued frame as its offering block knows it (R79, log entry 26). -/
inductive Tag
  | distress
  | claim (id : Nat)
  | object (target : Addr)
  | command (target : Addr) (seq : Nat)
  | reply
  | hireEvent
  | intercomEvent
  | shiftFrame
  | shiftCall
  | summary (gen k : Nat)
  | lateSummary (gen k : Nat)
  | beacon
  | recordQuery (gen : Nat)
  | recordPart (gen k : Nat)
  deriving DecidableEq, Repr

/-- One entry of the transmit queue (R81); `begun` marks the entry in flight (R82). -/
structure Entry where
  cls     : Nat
  payload : List Byte
  tag     : Tag
  offered : Nat
  begun   : Bool
  deriving DecidableEq, Repr

/-- The pending replacement of the entry in flight (R82). -/
structure Repl where
  payload : List Byte
  refresh : Bool
  deriving DecidableEq, Repr

structure Link where
  queue    : List Entry
  repl     : Option Repl
  fairness : Nat
  clash    : Bool
  synced   : Bool
  pause    : Timer
  deriving DecidableEq, Repr

/-! ### Peer monitor (chapter 5) -/

/-- An override of a row by a hire event (R88). -/
structure Override where
  state : HireState
  kind  : Option Kind
  due   : Option Nat
  deriving DecidableEq, Repr

/-- One row of the peer table (Table 5-6); the age is in units of 100 microseconds. -/
structure PeerRow where
  present : Bool
  age     : Nat
  ever    : Bool
  beacon  : Option Beacon
  ovr     : Option Override
  deriving DecidableEq, Repr

structure Peer where
  rows   : Quad PeerRow
  own    : Option Beacon
  period : Timer
  deriving DecidableEq, Repr

/-! ### Pulse and clock unit (chapter 3) -/

/-- Pulse fault state with the counters each state keeps (Table 3-3). -/
inductive PulseFault
  | clear (run : Nat)
  | raised (clean tenths : Nat)
  deriving DecidableEq, Repr

/-- `seen` is the fault as the fare engine and the peer monitor see it from the latest slot end on (R51, R52). -/
structure Pulse where
  raw   : Nat
  ring  : List Nat
  fault : PulseFault
  seen  : Bool
  slot  : Timer
  deriving DecidableEq, Repr

structure Clock where
  seconds : Nat
  phase   : Nat
  isSet   : Bool
  deriving DecidableEq, Repr

/-! ### Sign controller and distress latch (chapter 6) -/

inductive SignMode | offDuty | free | shared | hired | distress
  deriving DecidableEq, Repr

/-- The transmit control state (R95). -/
inductive SignControl | repeating | test | off
  deriving DecidableEq, Repr

/-- The transmit control a message carries (R95, R200). -/
inductive SignMsg | repeating | once | off
  deriving DecidableEq, Repr

/-- The four lamp-good indications (R97). -/
structure Lamps where
  vacant   : Bool
  hired    : Bool
  numeral  : Bool
  distress : Bool
  deriving DecidableEq, Repr

/-- `last` is the content of the last message, sent or due: a change from it is a content change (R94, log entry 50). -/
structure Sign where
  control    : SignControl
  last       : Option (SignMode × Nat)
  wait       : Timer
  held       : Option SignMsg
  lamps      : Option Lamps
  silent     : Nat
  signSilent : Bool
  period     : Timer
  test       : Timer
  deriving DecidableEq, Repr

/-- `latch` holds the set time while the latch is set. -/
structure Distress where
  latch   : Option Nat
  active  : Bool
  hold    : Timer
  inhibit : Timer
  period  : Timer
  deriving DecidableEq, Repr

/-! ### Intercom controller (chapter 7) -/

/-- What a HELD end recorded (Table 7-3). -/
inductive HeldState | connected | listen
  deriving DecidableEq, Repr

/-- Compartment end states (Table 7-3). -/
inductive EndState | idle | calling | connected | listen | held (was : HeldState)
  deriving DecidableEq, Repr

/-- Station 0's talk or announce; IDLE and RING are `none` with an empty or non-empty call queue (Table 7-4). -/
inductive Talk | none | talk (t : Addr) | held (t : Addr) | announce
  deriving DecidableEq, Repr

inductive IntercomEvent | call | callWithdraw | speakerHeld | speakerFree | privacyOn | privacyOff
  deriving DecidableEq, Repr

/-- A call queue entry with its 30 s timer (R111). -/
structure CallEntry where
  addr : Addr
  left : Nat
  deriving DecidableEq, Repr

structure Intercom where
  endState      : EndState
  callTimer     : Timer
  endTimer      : Timer
  events        : List IntercomEvent
  volume        : Nat
  prompt        : Bool
  promptTimer   : Timer
  press         : Timer
  queue         : List CallEntry
  talk          : Talk
  talkTimer     : Timer
  announceTimer : Timer
  listenSet     : List Addr
  announced     : List Addr
  withdrawDue   : Bool
  deriving DecidableEq, Repr

/-! ### Card link and payment controllers (chapter 8) -/

/-- Module state (R124). -/
inductive ModuleState | notFitted | unknown | ready | cardWait | processing | outOfService | absent
  deriving DecidableEq, Repr

/-- A request to the card module (Table 8-1). -/
inductive CardReq
  | poll
  | pay (txn amount tip currency : Nat)
  | enquire (txn : Nat)
  | cancel (txn : Nat)
  | reverse (txn amount : Nat)
  deriving DecidableEq, Repr

/-- The request on the card line: until its last byte has left (`sent` clear) the timer counts the transmission,
afterwards the response limit (R125, R127). -/
structure CardOut where
  req   : CardReq
  sent  : Bool
  timer : Timer
  deriving DecidableEq, Repr

structure Card where
  moduleState  : ModuleState
  out          : Option CardOut
  missed       : Nat
  poll         : Timer
  nextTxn      : Nat
  respLimit    : Nat
  pollInterval : Nat
  currency     : Option Nat
  rxOpen       : Bool
  deriving DecidableEq, Repr

/-- What CARD_WAIT and ENQUIRY hold (Table 8-2); no transaction number while the PAY waits. -/
structure CardSession where
  amount     : Nat
  tip        : Nat
  txn        : Option Nat
  cancelReq  : Bool
  cancelSent : Bool
  deriving DecidableEq, Repr

/-- Payment session (Table 8-2). -/
inductive Session
  | none
  | tipSelect (cursor : Nat)
  | cardWait (q : CardSession)
  | enquiry (q : CardSession)
  deriving DecidableEq, Repr

/-- A reversal list entry (R141). -/
structure Reversal where
  txn      : Nat
  amount   : Nat
  hireNo   : Nat
  addr     : Addr
  attempts : Nat
  deriving DecidableEq, Repr

structure Pay where
  session   : Session
  tipTimer  : Timer
  overall   : Timer
  reversals : List Reversal
  deriving DecidableEq, Repr

/-! ### Shift accountant (chapter 9) -/

/-- The shift accumulators (Table 9-2). -/
structure Accum where
  settled      : Nat
  cancelled    : Nat
  unpaid       : Nat
  paidPulses   : Nat
  totalPulses  : Nat
  hiredSeconds : Nat
  metered      : Nat
  extras       : Nat
  tips         : Nat
  cash         : Nat
  card         : Nat
  account      : Nat
  unpaidTotal  : Nat
  warmStarts   : Nat
  faultSeconds : Nat
  conflicts    : Nat
  distress     : Nat
  lampFault    : Bool
  signSilent   : Bool
  deriving DecidableEq, Repr

/-- Mark of a last-shift record (R157). -/
inductive CloseMark | normal | forced | late
  deriving DecidableEq, Repr

/-- The last-shift record (R157). -/
structure LastShift where
  number    : Nat
  driver    : Option Nat
  openTime  : Option Nat
  lost      : Bool
  closeTime : Nat
  mark      : CloseMark
  acc       : Accum
  deriving DecidableEq, Repr

/-- A summary being offered (R161): its four parts, the part now offered, and whether that part awaits re-offer. -/
structure SumTx where
  parts : List SummaryPart
  k     : Nat
  held  : Bool
  gen   : Nat
  deriving DecidableEq, Repr

/-- SHIFT frames other than summaries (Table 12-1). -/
inductive ShiftFrame
  | opened (number driver : Nat) (rejoin : Bool)
  | call (number : Nat)
  | refuse (reason : RefuseReason) (number : Nat)
  | done (forced : Bool) (number : Nat) (addrs : List Addr)
  | abandon (number : Nat)
  deriving DecidableEq, Repr

/-- What the event being taken offers to the link controller (R81, log entry 5). Each names the block's held item:
`intercomNew` the intercom event that has just arisen, `intercom` the oldest that waits for re-offer (R110). -/
inductive Offer
  | distress | claim | object (target : Addr) | command (target : Addr) | reply | hireEvent
  | intercomNew (e : IntercomEvent) | intercom
  | shiftFrame (f : ShiftFrame) | shiftRepeat | summary | lateSummary | beacon | recordQuery | recordPart
  deriving DecidableEq, Repr

structure Shift where
  state       : ShiftState
  number      : Nat
  driver      : Option Nat
  openTime    : Option Nat
  acc         : Accum
  lost        : Bool
  coldMark    : Bool
  last        : Option LastShift
  pendingLate : Option (Nat × Nat)
  closing     : Timer
  tx          : Option SumTx
  lateTx      : Option SumTx
  gen         : Nat
  held        : List ShiftFrame
  repeatGuard : Timer
  deriving DecidableEq, Repr

/-- Row states of the vehicle close table (Table 9-4). -/
inductive RowState | notExpected | waiting | complete | refused (r : RefuseReason) | incomplete | absent
  deriving DecidableEq, Repr

/-- A late summary being collected in a row (R167). -/
structure LateSummary where
  number   : Nat
  parts    : Quad (Option SummaryPart)
  complete : Bool
  reported : Bool
  deriving DecidableEq, Repr

/-- One row of the vehicle close table (Table 9-4). -/
structure CloseRow where
  expected : Bool
  st       : RowState
  parts    : Quad (Option SummaryPart)
  late     : Option LateSummary
  deriving DecidableEq, Repr

/-- Row 0's copy of station 0's own totals (R162). -/
structure RowZero where
  acc       : Accum
  lost      : Bool
  openTime  : Option Nat
  closeTime : Nat
  reversals : List Reversal
  deriving DecidableEq, Repr

inductive CloseState | idle | collecting | done | abandoned
  deriving DecidableEq, Repr

structure Close where
  state      : CloseState
  number     : Nat
  driver     : Option Nat
  forced     : Bool
  rows       : Quad CloseRow
  rowZero    : Option RowZero
  collect    : Timer
  reportHeld : Bool
  slipsHeld  : List Addr
  deriving DecidableEq, Repr

/-! ### Console and print unit (chapter 10) -/

/-- An open or idle key sequence with what it has collected (R171, Table 10-1). -/
inductive KeySeq
  | idle
  | select
  | hire (kind : Kind) (party : Option Nat)
  | extra (code : Option Nat) (amount : List Nat)
  | pay
  | cash (digits : List Nat)
  | account (digits : List Nat)
  | print (digits : List Nat)
  | function (n : Option Nat) (digits : List Nat)
  deriving DecidableEq, Repr

/-- A pending command entry (R173, R175); `handed` tells that a local command has been taken (log entry 15). -/
structure PendCmd where
  cmd      : Cmd
  seq      : Nat
  formed   : Nat
  claiming : Bool
  handed   : Bool
  limit    : Timer
  deriving DecidableEq, Repr

/-- The last reply shown for a target (R174). -/
inductive Shown | reply (r : Reply) | noAnswer
  deriving DecidableEq, Repr

/-- Why a CLOSE key is refused (R158). -/
inductive CloseRefusal | noShift | slotBusy | linkSilent | reportPending
  deriving DecidableEq, Repr

/-- Messages of the driver display that stand until the next key (R171, R173, R177 and the rules of each sequence). -/
inductive Message
  | entryInvalid | wait (t : Addr) | linkBusy (t : Addr) | shiftIsOpen | clockOffShiftOnly | clockShown
  | lampTestUnavailable | noReport | printFull | forcedUnavailable | closeRefused (c : CloseRefusal)
  | stationAbsent (t : Addr) | talkOpen | privacyRefused
  deriving DecidableEq, Repr

structure Console where
  keys       : KeySeq
  keyTimer   : Timer
  selected   : Addr
  cmds       : Quad (Option PendCmd)
  deferred   : Quad (List Cmd)
  nextSeq    : Nat
  lastReply  : Quad (Option Shown)
  message    : Option Message
  page       : Bool
  privacyInd : Quad Bool
  deriving DecidableEq, Repr

/-- Print jobs (R180). -/
inductive Job
  | receipt (station : Addr) (hireNo : Nat)
  | vehicleReport
  | lateSlip (row : Addr)
  | lastReport
  deriving DecidableEq, Repr

inductive PrintControl | feed | cut | emphasisOn | emphasisOff
  deriving DecidableEq, Repr

/-- A print queue entry (R181). -/
inductive PrintEntry | text (c : Char) | control (c : PrintControl)
  deriving DecidableEq, Repr

/-- The builder of the active job: the log record it reads for a hire of station 0, the lines written, whether an unended
heading stands, whether it has finished. -/
structure Builder where
  record   : Option HireRecord
  line     : Nat
  headOpen : Bool
  finished : Bool
  deriving DecidableEq, Repr

inductive TransferState | opened | complete | unavailable
  deriving DecidableEq, Repr

/-- The record transfer at station 0 (R185). -/
structure Transfer where
  target    : Addr
  hireNo    : Nat
  m         : Option Nat
  parts     : List (Option (List Byte))
  requery   : Nat
  suspended : Option Nat
  first     : Nat
  queryHeld : Bool
  limit     : Timer
  st        : TransferState
  gen       : Nat
  deriving DecidableEq, Repr

/-- The record transfer at the answering station (R186). -/
structure Serve where
  hireNo : Nat
  parts  : List (List Byte)
  k      : Nat
  held   : Bool
  gen    : Nat
  deriving DecidableEq, Repr

structure Print where
  jobs     : List Job
  builder  : Option Builder
  queue    : List PrintEntry
  given    : Nat
  released : Bool
  flush    : Timer
  paperOut : Bool
  transfer : Option Transfer
  serve    : Option Serve
  gen      : Nat
  deriving DecidableEq, Repr

/-- Card outcomes shown to the passenger (R143). -/
inductive ShownOutcome
  | approved | partApproved (remaining : Nat) | declined | cancelled | cardError | refused
  | notCompleted | cardUnavailable | inDoubt
  deriving DecidableEq, Repr

/-- What the passenger display shows for a time (R178). -/
structure Display where
  outcome     : Option ShownOutcome
  change      : Option Nat
  timer       : Timer
  volumeTimer : Timer
  deriving DecidableEq, Repr

/-! ### Supply and retained domain (chapter 11) -/

inductive SupplyState | normal | low | fail
  deriving DecidableEq, Repr

inductive StartCause | cold | supply | pin
  deriving DecidableEq, Repr

structure Supply where
  state        : SupplyState
  mv           : Nat
  low          : Timer
  normal       : Timer
  fail         : Timer
  start        : Timer
  cause        : StartCause
  resetLine    : Bool
  running      : Bool
  backupValid  : Bool
  retainedAddr : Addr
  stopCause    : StopCause
  updateMark   : Bool
  deriving DecidableEq, Repr

/-- The straps as held since the last start (R197). -/
structure Straps where
  addr     : Addr
  capacity : Nat
  buttons  : Bool
  card     : Bool
  deriving DecidableEq, Repr

/-- The last frame, request, message and entry put on each serial line (log entry 30). -/
structure Lines where
  cab     : List Byte
  card    : List Byte
  sign    : List Byte
  printer : Option PrintEntry
  deriving DecidableEq, Repr

/-- One CS20 station and the commands that wait for it. -/
structure State where
  straps   : Straps
  image    : Option Image
  hire     : HireCtl
  link     : Link
  peer     : Peer
  pulse    : Pulse
  clock    : Clock
  sign     : Sign
  distress : Distress
  intercom : Intercom
  card     : Card
  pay      : Pay
  shift    : Shift
  close    : Close
  console  : Console
  print    : Print
  display  : Display
  supply   : Supply
  lines    : Lines
  now      : Nat
  offers   : List Offer
  free     : Nat
  pending  : List Instr
  deriving DecidableEq, Repr

/-- Reasons to stop with a fault: none. No rule names a condition the station cannot go on from (log entry 36). -/
inductive Fault
  deriving DecidableEq, Repr

/-- Reasons to refuse a command. -/
inductive Refusal
  /-- Raised by an arm of `exec` for a command that has no meaning yet; safe, nothing is claimed of it. -/
  | notModelled (mnemonic : String)
  deriving DecidableEq, Repr

/-! ### Reset values -/

def PeerRow.empty : PeerRow :=
  { present := false, age := 10000, ever := false, beacon := none, ovr := none }

def Accum.zero : Accum :=
  { settled := 0, cancelled := 0, unpaid := 0, paidPulses := 0, totalPulses := 0, hiredSeconds := 0, metered := 0
    extras := 0, tips := 0, cash := 0, card := 0, account := 0, unpaidTotal := 0, warmStarts := 0, faultSeconds := 0
    conflicts := 0, distress := 0, lampFault := false, signSilent := false }

def CloseRow.empty : CloseRow :=
  { expected := false, st := .notExpected, parts := ⟨none, none, none, none⟩, late := none }

/-- Cold values of the hire controller (R25). -/
def HireCtl.cold : HireCtl :=
  { slot := .free, log := [], nextNo := 1, resume := none, reply := none, event := none, objects := []
    claimHeld := false, claimId := 0, tally := 0, speed := 0 }

/-- The link controller at every start (R83). -/
def Link.cold : Link :=
  { queue := [], repl := none, fairness := 0, clash := false, synced := false, pause := none }

def Peer.cold : Peer :=
  { rows := ⟨.empty, .empty, .empty, .empty⟩, own := none, period := none }

/-- The pulse unit at every start (Table 3-5). -/
def Pulse.cold : Pulse :=
  { raw := 0, ring := [0, 0, 0, 0, 0, 0, 0, 0, 0, 0, 0, 0, 0, 0, 0, 0, 0, 0, 0, 0], fault := .clear 0, seen := false
    slot := none }

/-- The clock after a cold start (R57). -/
def Clock.cold : Clock := { seconds := 0, phase := 0, isSet := false }

/-- The sign controller at every start (R101). -/
def Sign.cold : Sign :=
  { control := .repeating, last := none, wait := none, held := none, lamps := none, silent := 0, signSilent := false
    period := none, test := none }

def Distress.cold : Distress :=
  { latch := none, active := false, hold := none, inhibit := none, period := none }

/-- The intercom controller after a cold start (R121, R123). -/
def Intercom.cold : Intercom :=
  { endState := .idle, callTimer := none, endTimer := none, events := [], volume := 4, prompt := false
    promptTimer := none, press := none, queue := [], talk := .none, talkTimer := none, announceTimer := none
    listenSet := [], announced := [], withdrawDue := false }

/-- The card link controller with no module fitted and no image (R124, R148). -/
def Card.cold : Card :=
  { moduleState := .notFitted, out := none, missed := 0, poll := none, nextTxn := 1, respLimit := 20000
    pollInterval := 10000, currency := none, rxOpen := false }

def Pay.cold : Pay := { session := .none, tipTimer := none, overall := none, reversals := [] }

/-- The shift accountant after a cold start (R170). -/
def Shift.cold : Shift :=
  { state := .offShift, number := 0, driver := none, openTime := none, acc := .zero, lost := false, coldMark := true
    last := none, pendingLate := none, closing := none, tx := none, lateTx := none, gen := 0, held := []
    repeatGuard := none }

/-- The close table after every start (R169, R170). -/
def Close.cold : Close :=
  { state := .idle, number := 0, driver := none, forced := false, rows := ⟨.empty, .empty, .empty, .empty⟩
    rowZero := none, collect := none, reportHeld := false, slipsHeld := [] }

/-- The console after every start (R179). -/
def Console.cold : Console :=
  { keys := .idle, keyTimer := none, selected := 0, cmds := ⟨none, none, none, none⟩, deferred := ⟨[], [], [], []⟩
    nextSeq := 0, lastReply := ⟨none, none, none, none⟩, message := none, page := false
    privacyInd := ⟨false, false, false, false⟩ }

/-- The print unit after every start (R186). -/
def Print.cold : Print :=
  { jobs := [], builder := none, queue := [], given := 0, released := false, flush := none, paperOut := false
    transfer := none, serve := none, gen := 0 }

def Display.cold : Display := { outcome := none, change := none, timer := none, volumeTimer := none }

/-- The supply block at the first application of power: stopped, the start condition counting (log entries 9, 11). -/
def Supply.cold : Supply :=
  { state := .fail, mv := 12000, low := none, normal := none, fail := none, start := some 500, cause := .cold
    resetLine := false, running := false, backupValid := false, retainedAddr := 0, stopCause := .fail
    updateMark := false }

def Straps.cold : Straps := { addr := 0, capacity := 0, buttons := false, card := false }

def Lines.cold : Lines := { cab := [], card := [], sign := [], printer := none }

/-- The station before its first start: every item at its cold value, the station stopped (log entry 9). -/
def State.reset : State :=
  { straps := .cold, image := none, hire := .cold, link := .cold, peer := .cold, pulse := .cold, clock := .cold
    sign := .cold, distress := .cold, intercom := .cold, card := .cold, pay := .cold, shift := .cold, close := .cold
    console := .cold, print := .cold, display := .cold, supply := .cold, lines := .cold, now := 0, offers := []
    free := 0, pending := [] }

end Sys2Proof.Machine
end

