-- ==== Sys2Proof/Machine/Ops.lean ====
section
/-! DEFINITION. Named operations over the state's plain containers: one updater per block, rows by address, timers,
bytes and the checks of R198. -/
namespace Sys2Proof.Machine

/-! ### One updater per block -/

def State.onStraps (s : State) (f : Straps → Straps) : State := { s with straps := f s.straps }
def State.onHire (s : State) (f : HireCtl → HireCtl) : State := { s with hire := f s.hire }
def State.onLink (s : State) (f : Link → Link) : State := { s with link := f s.link }
def State.onPeer (s : State) (f : Peer → Peer) : State := { s with peer := f s.peer }
def State.onPulse (s : State) (f : Pulse → Pulse) : State := { s with pulse := f s.pulse }
def State.onClock (s : State) (f : Clock → Clock) : State := { s with clock := f s.clock }
def State.onSign (s : State) (f : Sign → Sign) : State := { s with sign := f s.sign }
def State.onDistress (s : State) (f : Distress → Distress) : State := { s with distress := f s.distress }
def State.onIntercom (s : State) (f : Intercom → Intercom) : State := { s with intercom := f s.intercom }
def State.onCard (s : State) (f : Card → Card) : State := { s with card := f s.card }
def State.onPay (s : State) (f : Pay → Pay) : State := { s with pay := f s.pay }
def State.onShift (s : State) (f : Shift → Shift) : State := { s with shift := f s.shift }
def State.onClose (s : State) (f : Close → Close) : State := { s with close := f s.close }
def State.onConsole (s : State) (f : Console → Console) : State := { s with console := f s.console }
def State.onPrint (s : State) (f : Print → Print) : State := { s with print := f s.print }
def State.onDisplay (s : State) (f : Display → Display) : State := { s with display := f s.display }
def State.onSupply (s : State) (f : Supply → Supply) : State := { s with supply := f s.supply }
def State.onLines (s : State) (f : Lines → Lines) : State := { s with lines := f s.lines }

/-! ### Rows by address -/

def Quad.get {α : Type} (q : Quad α) (a : Addr) : α :=
  match a with
  | 0 => q.s0
  | 1 => q.s1
  | 2 => q.s2
  | 3 => q.s3

def Quad.set {α : Type} (q : Quad α) (a : Addr) (x : α) : Quad α :=
  match a with
  | 0 => { q with s0 := x }
  | 1 => { q with s1 := x }
  | 2 => { q with s2 := x }
  | 3 => { q with s3 := x }

def Quad.map {α β : Type} (q : Quad α) (f : α → β) : Quad β := ⟨f q.s0, f q.s1, f q.s2, f q.s3⟩

def Quad.toList {α : Type} (q : Quad α) : List α := [q.s0, q.s1, q.s2, q.s3]

/-- The four addresses, lowest first. -/
def allAddrs : List Addr := [0, 1, 2, 3]

/-- The three seat addresses. -/
def seatAddrs : List Addr := [1, 2, 3]

/-! ### Timers (units of 100 microseconds) -/

/-- Milliseconds in units of the timebase (log entry 1). -/
def ms (n : Nat) : Nat := 10 * n

/-- Seconds in units of the timebase. -/
def sec (n : Nat) : Nat := 10000 * n

/-- A timer that starts now and runs `n` units. -/
def startTimer (n : Nat) : Timer := some n

/-- One unit of the timebase off a running timer. -/
def Timer.dec (t : Timer) : Timer := t.map (· - 1)

def Timer.isDue (t : Timer) : Bool := t == some 0

/-! ### Bytes and checks (R198) -/

def u8 (n : Nat) : Byte := BitVec.ofNat 8 n

def be16 (n : Nat) : List Byte := [u8 (n / 256), u8 n]

def be24 (n : Nat) : List Byte := [u8 (n / 65536), u8 (n / 256), u8 n]

def be32 (n : Nat) : List Byte := [u8 (n / 16777216), u8 (n / 65536), u8 (n / 256), u8 n]

/-- The number that bytes carry, most significant byte first (R198). -/
def beNat (bs : List Byte) : Nat := bs.foldl (fun n b => n * 256 + b.toNat) 0

def bitNat (b : Bool) : Nat := if b then 1 else 0

/-- One bit into a cyclic check register, most significant end first. -/
def crcBit {w : Nat} (gen r : BitVec w) (b : Bool) : BitVec w :=
  if r.msb != b then (r <<< 1) ^^^ gen else r <<< 1

/-- One byte into a cyclic check register, most significant bit first. -/
def crcByte {w : Nat} (gen r : BitVec w) (x : Byte) : BitVec w :=
  [7, 6, 5, 4, 3, 2, 1, 0].foldl (fun r i => crcBit gen r (x.getLsbD i)) r

/-- The 16-bit check of the cab link and the card line (R198). -/
def crc16 (bs : List Byte) : BitVec 16 := bs.foldl (crcByte 0x1021#16) 0xFFFF#16

/-- The 32-bit check of the tariff image (R198). -/
def crc32 (bs : List Byte) : BitVec 32 := bs.foldl (crcByte 0x04C11DB7#32) 0xFFFFFFFF#32

/-- The 8-bit check of the sign line (R198). -/
def xorSum (bs : List Byte) : Byte := bs.foldl (· ^^^ ·) 0

/-- Bytes with their 16-bit check appended, high byte first (R198). -/
def withCrc16 (bs : List Byte) : List Byte := bs ++ be16 (crc16 bs).toNat

/-! ### Small list operations -/

/-- Append, dropping the oldest entries so that at most `n` remain (R21). -/
def appendCapped {α : Type} (n : Nat) (xs : List α) (x : α) : List α :=
  (xs ++ [x]).drop (xs.length + 1 - n)

/-- Replace the item at an index. -/
def setAt {α : Type} (xs : List α) (i : Nat) (x : α) : List α := xs.set i x

/-- Cut a list into pieces of `n`, the last with what remains; `fuel` bounds the number of pieces. -/
def chunks {α : Type} (n : Nat) : Nat → List α → List (List α)
  | 0, _ => []
  | fuel + 1, xs => if xs.isEmpty then [] else xs.take n :: chunks n fuel (xs.drop n)

/-- The number that decimal digits spell. -/
def digitsValue (ds : List Nat) : Nat := ds.foldl (fun n d => 10 * n + d) 0

end Sys2Proof.Machine
end

