-- ==== Sys2Proof/Machine/Operands.lean ====
section
/-! DEFINITION. Field codes and number forms of frames, messages and records (R198, R199, Tables 12-2, 12-3, 12-6). -/
namespace Sys2Proof
open Sys2Proof.Machine

/-! ### Field codes (Table 12-3) -/

def Kind.code : Kind → Nat
  | .shared => 0
  | .exclusive => 1

def kindOf : Nat → Option Kind
  | 0 => some .shared
  | 1 => some .exclusive
  | _ => none

def HireState.code : HireState → Nat
  | .free => 0
  | .hired => 1
  | .stopped => 2
  | .paying => 3

def hireStateOf : Nat → Option HireState
  | 0 => some .free
  | 1 => some .hired
  | 2 => some .stopped
  | 3 => some .paying
  | _ => none

def ShiftState.code : ShiftState → Nat
  | .offShift => 0
  | .onShift => 1
  | .closing => 2

def shiftStateOf : Nat → Option ShiftState
  | 0 => some .offShift
  | 1 => some .onShift
  | 2 => some .closing
  | _ => none

def chargingCode : Option Charging → Nat
  | none => 0
  | some .time => 1
  | some .dist => 2

def chargingOf : Nat → Option Charging
  | 1 => some .time
  | 2 => some .dist
  | _ => none

def HireOutcome.code : HireOutcome → Nat
  | .settled => 1
  | .unpaid => 2
  | .cancelled => 3

def hireOutcomeOf : Nat → Option HireOutcome
  | 1 => some .settled
  | 2 => some .unpaid
  | 3 => some .cancelled
  | _ => none

def Reason.code : Reason → Nat
  | .wrongState => 0x01
  | .offShift => 0x02
  | .closing => 0x03
  | .noCapacity => 0x04
  | .partyRange => 0x05
  | .vehicleEngaged => 0x06
  | .claimLost => 0x07
  | .tariffMismatch => 0x08
  | .noTariff => 0x09
  | .clockUnset => 0x0A
  | .extrasFull => 0x0B
  | .extraLimit => 0x0C
  | .amountRange => 0x0D
  | .cancelTooLate => 0x0E
  | .resumeTooLate => 0x0F
  | .paymentActive => 0x10
  | .cardUnavailable => 0x11
  | .cardBlocked => 0x12
  | .privacy => 0x13
  | .linkSilent => 0x14

/-- All reasons, in the order of their codes from 01h. -/
def allReasons : List Reason :=
  [.wrongState, .offShift, .closing, .noCapacity, .partyRange, .vehicleEngaged, .claimLost, .tariffMismatch,
   .noTariff, .clockUnset, .extrasFull, .extraLimit, .amountRange, .cancelTooLate, .resumeTooLate, .paymentActive,
   .cardUnavailable, .cardBlocked, .privacy, .linkSilent]

/-- Result byte of a REPLY (Table 12-1): 00h DONE, otherwise the reason code. -/
def Reply.code : Reply → Nat
  | .done => 0
  | .refused r => Reason.code r

def replyOf (n : Nat) : Option Reply :=
  if n = 0 then some .done else (allReasons[n - 1]?).map .refused

def RefuseReason.code : RefuseReason → Nat
  | .number => 1
  | .busy => 2

def refuseReasonOf : Nat → Option RefuseReason
  | 1 => some .number
  | 2 => some .busy
  | _ => none

def addrOf (n : Nat) : Option Addr := if h : n < 4 then some ⟨n, h⟩ else none

/-- Command codes (Table 12-2). -/
def Cmd.code : Cmd → Nat
  | .hire _ _ => 0x01
  | .stop => 0x02
  | .resume => 0x03
  | .cancel => 0x04
  | .extra _ _ => 0x05
  | .extraRemove => 0x06
  | .unpaid => 0x07
  | .payCash _ => 0x08
  | .payAccount _ _ => 0x09
  | .payCard => 0x0A
  | .cardCancel => 0x0B
  | .connect => 0x10
  | .disconnect => 0x11
  | .listen => 0x12
  | .listenEnd => 0x13

def CardStatus.code : CardStatus → Nat
  | .ready => 0
  | .cardWait => 1
  | .processing => 2
  | .outOfService => 3

def cardStatusOf : Nat → Option CardStatus
  | 0 => some .ready
  | 1 => some .cardWait
  | 2 => some .processing
  | 3 => some .outOfService
  | _ => none

def cardOutcomeOf : Nat → Option CardOutcome
  | 0 => some .approved
  | 1 => some .partApproved
  | 2 => some .declined
  | 3 => some .cancelled
  | 4 => some .cardError
  | 5 => some .refused
  | _ => none

end Sys2Proof

namespace Sys2Proof.Machine

def IntercomEvent.code : IntercomEvent → Nat
  | .call => 0x10
  | .callWithdraw => 0x11
  | .speakerHeld => 0x12
  | .speakerFree => 0x13
  | .privacyOn => 0x14
  | .privacyOff => 0x15

def SignMode.code : SignMode → Nat
  | .offDuty => 0
  | .free => 1
  | .shared => 2
  | .hired => 3
  | .distress => 4

/-- Transmit control bits 7 and 6 of a sign message (R200). -/
def SignMsg.code : SignMsg → Nat
  | .repeating => 1
  | .once => 2
  | .off => 3

/-! ### Number forms -/

/-- The last `width` decimal digits of a number, first digit first; a shorter number stands at the right, behind zeros
(log entry 63). -/
def decimalDigits : Nat → Nat → List Nat
  | 0, _ => []
  | width + 1, n => decimalDigits width (n / 10) ++ [n % 10]

/-- BCD: two digits to a byte, the first in the high half (R198). -/
def bcdBytes : List Nat → List Byte
  | a :: b :: ds => u8 (16 * a + b) :: bcdBytes ds
  | [a] => [u8 (16 * a)]
  | [] => []

/-- The digits that BCD bytes carry. -/
def bcdDigits (bs : List Byte) : List Nat := bs.flatMap fun b => [b.toNat / 16, b.toNat % 16]

/-- The greatest value the V form carries (R199). -/
def vMax : Nat := 268435455

/-- The V form: the fewest groups of 7 bits, bit 7 set in every byte but the last (R199). -/
def vBytes (n : Nat) : List Byte :=
  let v := min n vMax
  let more (k : Nat) : Byte := u8 (128 + v / k % 128)
  if v < 128 then [u8 v]
  else if v < 16384 then [more 128, u8 (v % 128)]
  else if v < 2097152 then [more 16384, more 128, u8 (v % 128)]
  else [more 2097152, more 16384, more 128, u8 (v % 128)]

/-- Read one V form from the front: the value and the rest, or `none` when it does not stand whole. -/
def vRead : Nat → List Byte → Option (Nat × List Byte)
  | _, [] => none
  | acc, b :: bs =>
    if b.toNat < 128 then some (acc * 128 + b.toNat, bs) else vRead (acc * 128 + (b.toNat - 128)) bs

/-- Read a field of `n` bytes, most significant first. -/
def natRead (n : Nat) (bs : List Byte) : Option (Nat × List Byte) :=
  if n ≤ bs.length then some (beNat (bs.take n), bs.drop n) else none

end Sys2Proof.Machine
end

