-- ==== Sys2Proof/Machine/Frames.lean ====
section
/-! DEFINITION. Cab link frames, card frames and sign messages as bytes: what the station sends, and the receive checks
and layouts by which bytes are a good frame (R74 to R76, R125, R126, R198, R200, Tables 12-1 to 12-6). -/
namespace Sys2Proof
open Sys2Proof.Machine

/-- Operand bytes of a COMMAND after byte 2 (Table 12-2). -/
def Cmd.operands : Cmd → List Byte
  | .hire kind party => [u8 kind.code, u8 party]
  | .extra code amount => u8 code :: be24 amount
  | .payCash tendered => be24 tendered
  | .payAccount digits number => u8 digits :: bcdBytes (decimalDigits 8 number)
  | .stop => []
  | .resume => []
  | .cancel => []
  | .extraRemove => []
  | .unpaid => []
  | .payCard => []
  | .cardCancel => []
  | .connect => []
  | .disconnect => []
  | .listen => []
  | .listenEnd => []

/-- The distance value that means unknown (Table 9-5). -/
def unknownDistance : Nat := 16777215

def SummaryPart.index : SummaryPart → Nat
  | .part0 .. => 0
  | .part1 .. => 1
  | .part2 .. => 2
  | .part3 .. => 3

/-- Content bytes of a summary part (Table 12-4). -/
def SummaryPart.content : SummaryPart → List Byte
  | .part0 no settled cancelled unpaid warm lost fault conflict reversals metered =>
    be16 no ++ [u8 settled, u8 cancelled, u8 unpaid, u8 warm,
      u8 (bitNat lost + 2 * bitNat fault + 4 * bitNat conflict + 8 * (reversals % 8))] ++ be32 metered
  | .part1 dist extras tips => be24 (dist.getD unknownDistance) ++ be32 extras ++ be32 tips
  | .part2 dist cash card => be24 (dist.getD unknownDistance) ++ be32 cash ++ be32 card
  | .part3 secs account unpaid => be24 secs ++ be32 account ++ be32 unpaid

end Sys2Proof

namespace Sys2Proof.Machine
open Sys2Proof

/-! ### Payloads the station sends (Table 12-1) -/

def encClaim (kind : Kind) (party seq : Nat) : List Byte := [u8 1, u8 kind.code, u8 party, u8 seq]

def encObject (target : Addr) : List Byte := [u8 2, u8 target.val]

def encCommand (target : Addr) (seq : Nat) (c : Cmd) : List Byte :=
  [u8 c.code, u8 target.val, u8 seq] ++ c.operands

/-- A REPLY to target 0 (R6). -/
def encReply (seq : Nat) (r : Reply) : List Byte := [u8 0, u8 seq, u8 r.code]

/-- The two bytes that carry state, kind and flags in a beacon (Table 12-1). -/
def encBeacon (b : Beacon) : List Byte :=
  be16 b.shiftNo
    ++ [u8 (64 * b.shiftState.code + 16 * b.hireState.code + b.kind.code),
        u8 (b.capacity % 8 + 8 * bitNat b.privacy + 16 * bitNat b.clockSet + 32 * bitNat b.pulseFault)]
    ++ be16 b.tariffNo ++ [u8 b.edition] ++ be32 b.role.toNat

/-- Role word of a seat: due, then sharing level and charging state (Table 12-1). -/
def seatRole (due level : Nat) (charging : Option Charging) : BitVec 32 :=
  BitVec.ofNat 32 (256 * due + 16 * chargingCode charging + level)

def roleDue (w : BitVec 32) : Nat := w.toNat / 256
def roleLevel (w : BitVec 32) : Nat := w.toNat % 8
def roleCharging (w : BitVec 32) : Option Charging := chargingOf (w.toNat / 16 % 4)

def encHireEvent : HireEvent → List Byte
  | .start no kind => u8 1 :: be16 no ++ [u8 kind.code]
  | .stop no due => u8 2 :: be16 no ++ be24 due
  | .closed no outcome => u8 3 :: be16 no ++ [u8 outcome.code]

def encIntercomEvent (e : IntercomEvent) : List Byte := [u8 e.code]

def encDistress (setTime shiftNo : Nat) : List Byte := be32 setTime ++ be16 shiftNo

/-- An address set, bit a for address a (Table 12-1). -/
def addrSet (as : List Addr) : Nat := (allAddrs.filter (as.contains ·)).foldl (fun n a => n + 2 ^ a.val) 0

def encShiftFrame : ShiftFrame → List Byte
  | .opened number driver rejoin => u8 (16 * 1 + bitNat rejoin) :: be16 number ++ be16 driver
  | .call number => u8 (16 * 2) :: be16 number
  | .refuse reason number => [u8 (16 * 4), u8 reason.code] ++ be16 number
  | .done forced number addrs => u8 (16 * 5 + bitNat forced) :: be16 number ++ [u8 (addrSet addrs)]
  | .abandon number => u8 (16 * 6) :: be16 number

def encSummary (late : Bool) (p : SummaryPart) : List Byte :=
  u8 (16 * 3 + 4 * bitNat late + p.index) :: p.content

def encRecordQuery (hireNo : Nat) (target : Addr) (first : Nat) : List Byte :=
  u8 64 :: be16 hireNo ++ [u8 target.val, u8 first]

def encRecordPart (k m hireNo : Nat) (data : List Byte) : List Byte :=
  u8 (128 + 8 * k + m) :: be16 hireNo ++ data

/-! ### Frames on the line -/

/-- The key: class × 4 + sender (R74). -/
def frameKey (cls : Nat) (sender : Addr) : Nat := 4 * cls + sender.val

/-- A cab link frame: key, length, payload and check (R74). -/
def cabFrame (cls : Nat) (sender : Addr) (payload : List Byte) : List Byte :=
  withCrc16 (u8 (frameKey cls sender) :: u8 payload.length :: payload)

/-! ### Receive checks of the cab link (R76, R198) -/

def srcFrame (sender target : Addr) : Source := .frame sender target

/-- A COMMAND payload of a defined code and its length (Table 12-2). A half byte above 9 in the BCD number of PAY_ACCOUNT is
weighed as it stands, 10 to 15 (log entry 60). -/
def parseCommand (sender : Addr) (p : List Byte) : Option Instr :=
  match p.map (·.toNat) with
  | code :: t :: seq :: ops =>
    match addrOf t with
    | none => none
    | some target =>
      let src := srcFrame sender target
      match code, ops with
      | 0x01, [kd, party] => (kindOf kd).map fun kind => .hire src seq kind party
      | 0x02, [] => some (.stop src seq)
      | 0x03, [] => some (.resume src seq)
      | 0x04, [] => some (.cancel src seq)
      | 0x05, [c, a2, a1, a0] => some (.extra src seq c (65536 * a2 + 256 * a1 + a0))
      | 0x06, [] => some (.extraRemove src seq)
      | 0x07, [] => some (.unpaid src seq)
      | 0x08, [a2, a1, a0] => some (.payCash src seq (65536 * a2 + 256 * a1 + a0))
      | 0x09, [n, _, _, _, _] => some (.payAccount src seq n (digitsValue (bcdDigits (p.drop 4))))
      | 0x0A, [] => some (.payCard src seq)
      | 0x0B, [] => some (.cardCancel src seq)
      | 0x10, [] => some (.connect src seq)
      | 0x11, [] => some (.disconnect src seq)
      | 0x12, [] => some (.listen src seq)
      | 0x13, [] => some (.listenEnd src seq)
      | _, _ => none
  | _ => none

def parseEvent (sender : Addr) (p : List Byte) : Option Instr :=
  match p.map (·.toNat) with
  | [1, n1, n0, kd] => (kindOf kd).map fun kind => .hireStartReceived sender (256 * n1 + n0) kind
  | [2, n1, n0, d2, d1, d0] => some (.hireStopReceived sender (256 * n1 + n0) (65536 * d2 + 256 * d1 + d0))
  | [3, n1, n0, o] => (hireOutcomeOf o).map fun outcome => .hireClosedReceived sender (256 * n1 + n0) outcome
  | [0x10] => some (.callEvent sender)
  | [0x11] => some (.callWithdrawEvent sender)
  | [0x12] => some (.speakerHeldEvent sender)
  | [0x13] => some (.speakerFreeEvent sender)
  | [0x14] => some (.privacyOnEvent sender)
  | [0x15] => some (.privacyOffEvent sender)
  | _ => none

def distanceOf (n : Nat) : Option Nat := if n = unknownDistance then none else some n

/-- A summary part from its index and its 11 content bytes (Table 12-4). -/
def parseSummaryPart (k : Nat) (c : List Byte) : Option SummaryPart :=
  let at' (i : Nat) : Nat := (c.getD i 0).toNat
  let field (i n : Nat) : Nat := beNat ((c.drop i).take n)
  if c.length = 11 then
    match k with
    | 0 => some (.part0 (field 0 2) (at' 2) (at' 3) (at' 4) (at' 5) (at' 6 % 2 == 1) (at' 6 / 2 % 2 == 1)
        (at' 6 / 4 % 2 == 1) (at' 6 / 8 % 8) (field 7 4))
    | 1 => some (.part1 (distanceOf (field 0 3)) (field 3 4) (field 7 4))
    | 2 => some (.part2 (distanceOf (field 0 3)) (field 3 4) (field 7 4))
    | 3 => some (.part3 (field 0 3) (field 3 4) (field 7 4))
    | _ => none
  else none

def parseShift (sender : Addr) (p : List Byte) : Option Instr :=
  match p with
  | [] => none
  | b0 :: rest =>
    let marks := b0.toNat % 16
    match b0.toNat / 16, rest.map (·.toNat) with
    | 1, [n1, n0, d1, d0] => some (.shiftOpen sender (marks % 2 == 1) (256 * n1 + n0) (256 * d1 + d0))
    | 2, [n1, n0] => some (.shiftCall sender (256 * n1 + n0))
    | 3, _ => (parseSummaryPart (marks % 4) rest).map fun part =>
        if marks / 4 % 2 = 1 then .lateSummaryPart sender part else .shiftSummary sender part
    | 4, [r, n1, n0] => (refuseReasonOf r).map fun reason => .shiftRefuse sender reason (256 * n1 + n0)
    | 5, [n1, n0, set] => some (.shiftDone sender (marks % 2 == 1) (256 * n1 + n0)
        (allAddrs.filter fun a => set / 2 ^ a.val % 2 == 1))
    | 6, [n1, n0] => some (.shiftAbandon sender (256 * n1 + n0))
    | _, _ => none

def parseBeacon (sender : Addr) (p : List Byte) : Option Instr :=
  match p.map (·.toNat) with
  | [n1, n0, st, fl, t1, t0, ed, _, _, _, r0] =>
    match shiftStateOf (st / 64), hireStateOf (st / 16 % 4) with
    | some shiftState, some hireState =>
      if sender ≠ 0 ∧ r0 / 16 % 4 = 3 then none
      else some (.beaconReceived sender
        { shiftNo := 256 * n1 + n0, shiftState := shiftState, hireState := hireState
          kind := if st % 2 = 1 then .exclusive else .shared
          capacity := fl % 8, privacy := fl / 8 % 2 == 1, clockSet := fl / 16 % 2 == 1
          pulseFault := fl / 32 % 2 == 1, tariffNo := 256 * t1 + t0, edition := ed
          role := BitVec.ofNat 32 (beNat (p.drop 7)) })
    | _, _ => none
  | _ => none

def parseRecord (sender : Addr) (p : List Byte) : Option Instr :=
  match p with
  | b0 :: n1 :: n0 :: rest =>
    let hireNo := 256 * n1.toNat + n0.toNat
    match b0.toNat / 64, rest with
    | 1, [t, first] => (addrOf t.toNat).map fun target => .recordQuery sender hireNo target first.toNat
    | 2, data =>
      let m := b0.toNat % 8
      if m = 0 ∧ data ≠ [] then none else some (.recordPart sender (b0.toNat / 8 % 8) m hireNo data)
    | _, _ => none
  | _ => none

/-- The payload of a class by its layout (Tables 5-2, 12-1). -/
def parsePayload (cls : Nat) (sender : Addr) (p : List Byte) : Option Instr :=
  match cls with
  | 0 => if sender = 0 ∧ p.length = 6 then some (.distressFrame sender (beNat (p.take 4)) (beNat (p.drop 4))) else none
  | 1 =>
    match p.map (·.toNat) with
    | [1, kd, party, seq] => (kindOf kd).map fun kind => .claimReceived sender kind party seq
    | [2, t] => (addrOf t).map fun target => .objectReceived sender target
    | _ => none
  | 2 => parseCommand sender p
  | 3 =>
    match p.map (·.toNat) with
    | [t, seq, code] =>
      match addrOf t, replyOf code with
      | some target, some r => some (.replyReceived sender target seq r)
      | _, _ => none
    | _ => none
  | 4 => parseEvent sender p
  | 5 => parseShift sender p
  | 6 => parseBeacon sender p
  | 7 => parseRecord sender p
  | _ => none

/-- Where the payload of a class carries its target byte (Table 12-1). -/
def targetIndex (cls : Nat) (p : List Byte) : Option Nat :=
  match cls with
  | 1 => if (p.getD 0 0).toNat = 2 then some 1 else none
  | 2 => some 1
  | 3 => some 0
  | 7 => if (p.getD 0 0).toNat / 64 = 1 then some 3 else none
  | _ => none

/-- The payload by its layout; a good frame whose target names no station is for nobody, and is taken like a REPLY to a
seat: by no block (R6, R76). -/
def parseTargeted (cls : Nat) (sender : Addr) (p : List Byte) : Option Instr :=
  match targetIndex cls p with
  | some i =>
    if 3 < (p.getD i 0).toNat then (parsePayload cls sender (setAt p i 0)).map fun _ => .replyReceived sender 1 0 .done
    else parsePayload cls sender p
  | none => parsePayload cls sender p

/-- The command that completed characters are when they pass the receive checks of R76, else `none`. -/
def goodFrame (chars : List Byte) : Option Instr :=
  match chars with
  | key :: len :: rest =>
    let payload := rest.take len.toNat
    if key.toNat < 32 ∧ len.toNat ≤ 12 ∧ rest.length = len.toNat + 2 ∧ withCrc16 (key :: len :: payload) = chars then
      match addrOf (key.toNat % 4) with
      | some sender => parseTargeted (key.toNat / 4) sender payload
      | none => none
    else none
  | _ => none

/-! ### Card line (R125, R126, Table 12-6) -/

/-- A card frame: 02h, length, type, transaction number, body and check (R125). -/
def cardFrame (type txn : Nat) (body : List Byte) : List Byte :=
  u8 2 :: withCrc16 (u8 (3 + body.length) :: u8 type :: be16 txn ++ body)

def CardReq.txn : CardReq → Nat
  | .poll => 0
  | .pay txn _ _ _ => txn
  | .enquire txn => txn
  | .cancel txn => txn
  | .reverse txn _ => txn

def CardReq.bytes : CardReq → List Byte
  | .poll => cardFrame 0x10 0 []
  | .pay txn amount tip currency => cardFrame 0x11 txn (be24 amount ++ be24 tip ++ be16 currency)
  | .enquire txn => cardFrame 0x12 txn []
  | .cancel txn => cardFrame 0x13 txn []
  | .reverse txn amount => cardFrame 0x14 txn (be24 amount)

/-- The time a card frame takes on the line, in units of 100 microseconds: 10 bit times a byte at 19 200 bit/s
(R125), rounded up. -/
def cardFrameTime (bytes : List Byte) : Nat := (bytes.length * 100000 + 19199) / 19200

/-- The length byte that Table 12-6 gives for a type the module sends. -/
def moduleLength (type : Nat) : Option Nat :=
  match type with
  | 0x20 => some 4
  | 0x21 => some 16
  | 0x22 => some 3
  | 0x23 => some 3
  | _ => none

/-- The authorisation characters Table 12-6 allows: 0 to 9, A to Z, space. -/
def authOk (c : Nat) : Bool := (48 ≤ c && c ≤ 57) || (65 ≤ c && c ≤ 90) || c == 32

/-- The message that the bytes from the type to the end of the body are. -/
def parseCardBody (bs : List Byte) : Option Instr :=
  match bs with
  | ty :: t1 :: t0 :: body =>
    let txn := 256 * t1.toNat + t0.toNat
    match ty.toNat, body with
    | 0x20, [st] => (cardStatusOf st.toNat).map fun c => .status txn c
    | 0x21, o :: rest =>
      let auth := (rest.drop 6).map (·.toNat)
      if (rest.getD 3 0).toNat < 16 ∧ auth.all authOk ∧ (bcdDigits ((rest.drop 4).take 2)).all (· < 10) then
        (cardOutcomeOf o.toNat).map fun oc =>
          .result txn oc (beNat (rest.take 3)) (rest.getD 3 0).toNat
            (digitsValue (bcdDigits ((rest.drop 4).take 2))) auth
      else none
    | 0x22, [] => some (.notFound txn)
    | 0x23, [] => some (.reversed txn)
    | _, _ => none
  | _ => none

/-- A body byte of a module's message, by its place in the body, shows a coded field with a value that Table 12-6 does not
define (R198, log entry 47). -/
def cardByteBad (type i : Nat) (b : Byte) : Bool :=
  match type with
  | 0x20 => i == 0 && (cardStatusOf b.toNat).isNone
  | 0x21 =>
    if i = 0 then (cardOutcomeOf b.toNat).isNone
    else if i = 4 then 16 ≤ b.toNat
    else if i = 5 ∨ i = 6 then (bcdDigits [b]).any (9 < ·)
    else 7 ≤ i && !authOk b.toNat
  | _ => false

/-- The place of the first such byte among the body bytes received. -/
def cardBadAt (type : Nat) (body : List Byte) : Option Nat := body.zipIdx.findIdx? fun e => cardByteBad type e.2 e.1

/-- The first valid frame in the bytes received, by the scanning of R126: bytes other than 02h are passed over, a
LENGTH discard returns to scanning at the byte after the one that shows it, an undefined coded field being one (R198,
log entry 47), and a CHECK discard after the last check byte. -/
def scanCard : Nat → List Byte → Option Instr
  | 0, _ => none
  | fuel + 1, bs =>
    match bs.dropWhile (· ≠ 2#8) with
    | _ :: len :: ty :: rest =>
      let n := len.toNat
      let frame := (ty :: rest).take n
      if n < 2 ∨ 24 < n then scanCard fuel (ty :: rest)
      else if moduleLength ty.toNat ≠ some n then scanCard fuel rest
      else match cardBadAt ty.toNat (frame.drop 3) with
      | some i => scanCard fuel (rest.drop (i + 3))
      | none =>
        if (ty :: rest).length < n + 2 then none
        else if withCrc16 (len :: frame) ≠ len :: (ty :: rest).take (n + 2) then scanCard fuel ((ty :: rest).drop (n + 2))
        else match parseCardBody frame with
          | some i => some i
          | none => scanCard fuel ((ty :: rest).drop (n + 2))
    | _ => none

/-! ### Sign line (R200) -/

def signMessage (ctl : SignMsg) (mode : SignMode) (numeral bright : Nat) : List Byte :=
  let m := [0xA5#8, u8 (64 * ctl.code + mode.code), u8 (16 * (numeral % 16) + bright % 4)]
  m ++ [xorSum m]

/-- The lamp indications of a valid reply, else `none` (R97, R200). -/
def signReplyLamps (b0 b1 b2 : Byte) : Option Lamps :=
  if b0 = 0x5A#8 ∧ b1.toNat < 16 ∧ b2 = xorSum [b0, b1] then
    some { vacant := b1.getLsbD 0, hired := b1.getLsbD 1, numeral := b1.getLsbD 2, distress := b1.getLsbD 3 }
  else none

end Sys2Proof.Machine
end

