-- ==== Sys2Proof/Machine/Flags.lean ====
section
/-! DEFINITION. What is read off the state: own hire and its amounts (R38, R39), the peer table as its readers see it
(R89), the sharing level (R32), the interlock (R7), tariff matching (R67, R68), sign mode (R92, R93), beacon (R85),
summary (R161), speaker and mute (R120, R122). -/
namespace Sys2Proof.Machine
open Sys2Proof

/-! ### The station -/

def State.addr (s : State) : Addr := s.straps.addr

/-- LINK_SILENT (R90, R91). -/
def State.silent (s : State) : Bool := s.link.clash

def State.isConsole (s : State) : Bool := s.addr == 0

/-- Station 0's keys are taken: not while the supply state is LOW (R171, R179). -/
def State.keysTaken (s : State) : Bool := s.isConsole && s.supply.state != .low

/-! ### The hire slot -/

/-- The hire in an engaged slot (Table 1-1). -/
def Slot.hire? : Slot → Option Hire
  | .free => none
  | .claiming _ => none
  | .hired h => some h
  | .stopped h => some h
  | .paying h => some h

/-- The slot state as peers see it: CLAIMING as FREE (R1). -/
def Slot.shown : Slot → HireState
  | .free => .free
  | .claiming _ => .free
  | .hired _ => .hired
  | .stopped _ => .stopped
  | .paying _ => .paying

def Slot.isFree : Slot → Bool
  | .free => true
  | _ => false

def Slot.isClaiming : Slot → Bool
  | .claiming _ => true
  | _ => false

/-- Change the hire in an engaged slot, keeping the slot's state. -/
def Slot.mapHire (f : Hire → Hire) : Slot → Slot
  | .free => .free
  | .claiming c => .claiming c
  | .hired h => .hired (f h)
  | .stopped h => .stopped (f h)
  | .paying h => .paying (f h)

def Hire.mapRec (f : HireRecord → HireRecord) (h : Hire) : Hire := { h with rc := f h.rc }

/-! ### Amounts of a hire -/

def HireRecord.extrasSum (r : HireRecord) : Nat := (r.extras.map (·.2)).sum

/-- The running amount while HIRED: flag-fall, both charges and the extras (R38). -/
def HireRecord.running (r : HireRecord) : Nat := r.flagFall + r.distCharge + r.timeCharge + r.extrasSum

/-- Metered amount: flag-fall, both charges and, after stop, rounding (R38, R39). -/
def HireRecord.metered (r : HireRecord) : Nat := r.flagFall + r.distCharge + r.timeCharge + r.rounding.getD 0

def Tender.applied : Tender → Nat
  | .cash a _ _ => a
  | .card a _ _ _ _ => a
  | .account a _ _ => a

def HireRecord.appliedSum (r : HireRecord) : Nat := (r.tenders.map Tender.applied).sum

/-- due + tip, an absent tip counting as 0 (8.0). -/
def HireRecord.owed (r : HireRecord) : Nat := r.due.getD 0 + r.tip.getD 0

/-- The remaining amount (8.0). -/
def HireRecord.remaining (r : HireRecord) : Nat := r.owed - r.appliedSum

/-- Sharing saving, absent when CAPPED (R43). -/
def HireRecord.saving (r : HireRecord) : Option Nat :=
  if r.capped then none else some (r.undiscounted - (r.distCharge + r.timeCharge))

/-- The running amount (R38): 0 while FREE or CLAIMING, the due once stopped. -/
def Slot.runningAmount : Slot → Nat
  | .free => 0
  | .claiming _ => 0
  | .hired h => h.rc.running
  | .stopped h => h.rc.due.getD 0
  | .paying h => h.rc.due.getD 0

/-- The current level as shown: 0 while the slot is FREE or CLAIMING (R33). -/
def Slot.level (sl : Slot) : Nat := (sl.hire?.map (·.rc.level)).getD 0

def Slot.charging (sl : Slot) : Option Charging := sl.hire?.bind (·.rc.charging)

def Slot.kind (sl : Slot) : Kind := (sl.hire?.map (·.rc.kind)).getD .shared

def Slot.privacy (sl : Slot) : Bool := (sl.hire?.map (·.rc.privacy)).getD false

/-- The fare cap (R35). -/
def fareCap : Nat := 999999

/-! ### The peer table as read (R89) -/

def PeerRow.hireState (r : PeerRow) : HireState :=
  match r.ovr with
  | some o => o.state
  | none => (r.beacon.map (·.hireState)).getD .free

def PeerRow.kind (r : PeerRow) : Kind :=
  match r.ovr.bind (·.kind) with
  | some k => k
  | none => (r.beacon.map (·.kind)).getD .shared

def PeerRow.due (r : PeerRow) : Nat :=
  match r.ovr.bind (·.due) with
  | some d => d
  | none => (r.beacon.map fun b => roleDue b.role).getD 0

/-- A present row whose hire is HIRED, STOPPED or PAYING (R89). -/
def PeerRow.engaged (r : PeerRow) : Bool := r.present && r.hireState != .free

/-- A present row whose hire is HIRED (R14). -/
def PeerRow.isHired (r : PeerRow) : Bool := r.present && r.hireState == .hired

/-- The rows of the other three addresses (R86). -/
def State.peers (s : State) : List PeerRow :=
  (allAddrs.filter (· ≠ s.addr)).map fun a => s.peer.rows.get a

/-- The interlock of R7 and R13 fails for a claim of this kind: VEHICLE_ENGAGED. -/
def State.interlocked (s : State) (k : Kind) : Bool :=
  s.peers.any fun r => r.engaged && (k == .exclusive || r.kind == .exclusive)

/-- The sharing level for an own hire of this kind (R32). -/
def State.sharingLevel (s : State) (k : Kind) : Nat :=
  if k = .shared ∧ s.silent = false then
    min 4 (1 + (s.peers.filter fun r => r.isHired && r.kind == .shared).length)
  else 1

/-! ### Tariff identity (R66 to R68) -/

/-- Tariff number and edition, 0/0 when the image is invalid (R66). -/
def State.identity (s : State) : Nat × Nat := (s.image.map fun im => (im.number, im.edition)).getD (0, 0)

def Beacon.identity (b : Beacon) : Nat × Nat := (b.tariffNo, b.edition)

/-- The identity check of a HIRE (R67): true when it passes. -/
def State.identityOk (s : State) : Bool :=
  if s.isConsole then true
  else
    let r := s.peer.rows.get 0
    r.present && ((r.beacon.map fun b => (b.tariffNo, b.edition) == s.identity).getD false)

/-- Station 0's judgement of a station as tariff-matching (R68). -/
def State.tariffMatching (s : State) (a : Addr) : Bool :=
  s.image.isSome &&
    (a == s.addr ||
      ((s.peer.rows.get a).present &&
        (((s.peer.rows.get a).beacon.map fun b => (b.tariffNo, b.edition) == s.identity).getD false)))

/-! ### Sign mode (R92, R93) -/

/-- A seat station that station 0 counts as offerable (R92). -/
def State.seatOfferable (s : State) (a : Addr) : Bool :=
  let r := s.peer.rows.get a
  r.present && ((r.beacon.map fun b => b.shiftState == .onShift).getD false) && s.tariffMatching a
    && r.hireState == .free

def State.selfOfferable (s : State) : Bool :=
  s.shift.state == .onShift && s.tariffMatching s.addr && !s.silent && s.hire.slot.isFree

/-- The numeral n: the capacities of the offerable stations (R92). -/
def State.numeral (s : State) : Nat :=
  (if s.selfOfferable then s.straps.capacity else 0) +
    ((seatAddrs.filter s.seatOfferable).map fun a =>
      ((s.peer.rows.get a).beacon.map (·.capacity)).getD 0).sum

/-- Station 0's own hire or claim is EXCLUSIVE (R93). -/
def Slot.isExclusive : Slot → Bool
  | .free => false
  | .claiming c => c.kind == .exclusive
  | .hired h => h.rc.kind == .exclusive
  | .stopped h => h.rc.kind == .exclusive
  | .paying h => h.rc.kind == .exclusive

/-- Some hire of the vehicle is EXCLUSIVE (R92, R93). -/
def State.anyExclusive (s : State) : Bool :=
  s.hire.slot.isExclusive || s.peers.any fun r => r.engaged && r.kind == .exclusive

/-- The sign mode with its numeral (R92). -/
def State.signMode (s : State) : SignMode × Nat :=
  if s.distress.latch.isSome then (.distress, 0)
  else if s.shift.state ≠ .onShift then (.offDuty, 0)
  else if s.hire.slot.isFree && s.peers.all (fun r => !r.engaged) then (.free, 0)
  else if !s.anyExclusive && 0 < s.numeral then (.shared, s.numeral)
  else (.hired, 0)

/-- Brightness of a sign message: the image's, or 3 with an invalid image (R95). -/
def State.brightness (s : State) : Nat := (s.image.map (·.bright)).getD 3

/-! ### The beacon (R85) -/

/-- The fault state is RAISED (R51 to R53). -/
def PulseFault.isRaised : PulseFault → Bool
  | .clear _ => false
  | .raised _ _ => true

/-- The beacon as composed from the blocks' state as it stands (R84, R85). -/
def State.composeBeacon (s : State) : Beacon :=
  { shiftNo := s.shift.number, shiftState := s.shift.state
    hireState := s.hire.slot.shown, kind := s.hire.slot.kind
    capacity := s.straps.capacity, privacy := s.hire.slot.privacy
    clockSet := s.clock.isSet, pulseFault := s.pulse.seen
    tariffNo := s.identity.1, edition := s.identity.2
    role := if s.isConsole then BitVec.ofNat 32 s.clock.seconds
      else seatRole s.hire.slot.runningAmount s.hire.slot.level s.hire.slot.charging }

/-! ### Payment session -/

def Session.active : Session → Bool
  | .none => false
  | .tipSelect _ => true
  | .cardWait _ => true
  | .enquiry _ => true

/-- CARD_WAIT or ENQUIRY: polls and reversals are held (Table 8-2). -/
def Session.card? : Session → Option CardSession
  | .none => Option.none
  | .tipSelect _ => Option.none
  | .cardWait q => some q
  | .enquiry q => some q

/-- A PAY waits to be sent (Table 8-2). -/
def State.payWaiting (s : State) : Bool :=
  match s.pay.session with
  | .cardWait q => q.txn.isNone
  | _ => false

/-- A CANCEL is requested and not yet sent, for a transaction that has been sent (R140). That it goes before the ENQUIRE of
R147 when a warm start continues such a session is the model's choice (log entry 65). -/
def State.cancelWaiting (s : State) : Bool :=
  match s.pay.session.card? with
  | some q => q.txn.isSome && q.cancelReq && !q.cancelSent
  | none => false

/-! ### Summaries (R161, Table 9-5) -/

/-- Pulses in metres by the image's K; unknown with an invalid image (R161). -/
def State.metres (s : State) (pulses : Nat) : Option Nat :=
  s.image.map fun im => min 16777214 (pulses * 1000 / im.k)

/-- The four parts of a summary of the given totals (R161). -/
def State.summaryParts (s : State) (number : Nat) (lost : Bool) (a : Accum) : List SummaryPart :=
  [ .part0 number (min 255 a.settled) (min 255 a.cancelled) (min 255 a.unpaid) (min 255 a.warmStarts)
      lost (0 < a.faultSeconds) (0 < a.conflicts) s.pay.reversals.length a.metered,
    .part1 (s.metres a.totalPulses) a.extras a.tips,
    .part2 (s.metres a.paidPulses) a.cash a.card,
    .part3 (min 16777215 a.hiredSeconds) a.account a.unpaidTotal ]

/-! ### Speaker, routing and muting (R108, R120, R122) -/

inductive SpeakerOwner | prompt | voice | none
  deriving DecidableEq, Repr

/-- The owner of the compartment speaker (R120). -/
def Intercom.speakerOwner (i : Intercom) : SpeakerOwner :=
  if i.prompt then .prompt
  else match i.endState with
    | .connected => .voice
    | .listen => .voice
    | _ => .none

/-- The compartment amplifier is muted (R122). -/
def State.speakerMuted (s : State) : Bool := s.intercom.volume == 0 || s.supply.state == .low

/-- Station 0's driver end amplifier is muted (R122). -/
def State.driverMuted (s : State) : Bool := s.supply.state == .low

end Sys2Proof.Machine
end

