-- ==== Sys2Proof/Machine/Offers.lean ====
section
/-! DEFINITION. The transmit queue: admission, replacement, refresh, removal (R81, R82, R84), and the offers of one event,
admitted in an order that is not fixed (R81, log entry 5). -/
namespace Sys2Proof.Machine
open Sys2Proof

/-- Entries the transmit queue holds at most (R81). -/
def queueSize : Nat := 16

def Link.freeEntries (l : Link) : Nat := queueSize - l.queue.length

/-- Admission by free entries (R81, Table 5-3). -/
def Link.admits (l : Link) (cls : Nat) : Bool := 4 ≤ l.freeEntries || (1 ≤ l.freeEntries && cls ≤ 3)

/-- Place an entry by key, after the older entries of its key (R81). All entries have this station's address, so the
order of keys is the order of classes. -/
def insertEntry (e : Entry) : List Entry → List Entry
  | [] => [e]
  | x :: xs => if x.cls ≤ e.cls then x :: insertEntry e xs else e :: x :: xs

/-- DISTRESS and BEACON replace a queued frame of their class (R82). -/
def replaceable (cls : Nat) : Bool := cls == 0 || cls == 6

def Link.has (l : Link) (cls : Nat) : Bool := l.queue.any (·.cls == cls)

/-- An entry of this class is in flight (R82). -/
def Link.inFlight (l : Link) (cls : Nat) : Bool := l.queue.any fun e => e.cls == cls && e.begun

/-- Put a payload in place of the queued one of its class (R82). -/
def Link.replace (l : Link) (cls : Nat) (payload : List Byte) : Link :=
  { l with queue := l.queue.map fun e => if e.cls = cls then { e with payload := payload } else e }

/-- One offer: the link with the frame taken, or `none` when it is refused (R81, R82, R91). -/
def Link.offer (l : Link) (now cls : Nat) (payload : List Byte) (tag : Tag) : Option Link :=
  if l.clash then none
  else if replaceable cls && l.has cls then
    if l.inFlight cls then some { l with repl := some ⟨payload, false⟩ } else some (l.replace cls payload)
  else if l.admits cls then
    let e : Entry := { cls := cls, payload := payload, tag := tag, offered := now, begun := false }
    some { l with queue := insertEntry e l.queue }
  else none

/-- Refresh a BEACON that stands unsent; nothing when none stands (R84). -/
def Link.refresh (l : Link) (payload : List Byte) : Link :=
  if l.inFlight 6 then { l with repl := some ⟨payload, true⟩ }
  else if l.has 6 then l.replace 6 payload
  else l

/-- Add to what the event being taken offers. -/
def State.offer (s : State) (o : Offer) : State := { s with offers := s.offers ++ [o] }

/-- The class of what is offered (Table 5-1). -/
def Offer.cls : Offer → Nat
  | .distress => 0
  | .claim => 1
  | .object _ => 1
  | .command _ => 2
  | .reply => 3
  | .hireEvent => 4
  | .intercomNew _ => 4
  | .intercom => 4
  | .shiftFrame _ => 5
  | .shiftRepeat => 5
  | .summary => 5
  | .lateSummary => 5
  | .beacon => 6
  | .recordQuery => 7
  | .recordPart => 7

/-- The payload and identity of what is offered, from the block that holds it; `none` when it holds nothing. -/
def State.offered (s : State) : Offer → Option (List Byte × Tag)
  | .distress => s.distress.latch.map fun t => (encDistress t s.shift.number, .distress)
  | .claim =>
    match s.hire.slot with
    | .claiming c => if s.hire.claimHeld then some (encClaim c.kind c.party c.seq, .claim c.id) else none
    | _ => none
  | .object t => if s.hire.objects.contains t then some (encObject t, .object t) else none
  | .command t => (s.console.cmds.get t).map fun p => (encCommand t p.seq p.cmd, .command t p.seq)
  | .reply => s.hire.reply.map fun r => (encReply r.1 r.2, .reply)
  | .hireEvent => s.hire.event.map fun e => (encHireEvent e, .hireEvent)
  | .intercomNew e => if s.intercom.events.contains e then some (encIntercomEvent e, .intercomEvent) else none
  | .intercom => s.intercom.events.head?.map fun e => (encIntercomEvent e, .intercomEvent)
  | .shiftFrame f =>
    if s.shift.held.contains f then
      some (encShiftFrame f, match f with | .call _ => .shiftCall | _ => .shiftFrame)
    else none
  | .shiftRepeat =>
    some (encShiftFrame (.opened s.shift.number (s.shift.driver.getD 0) true), .shiftFrame)
  | .summary => s.shift.tx.bind fun t => (t.parts[t.k]?).map fun p => (encSummary false p, .summary t.gen t.k)
  | .lateSummary =>
    s.shift.lateTx.bind fun t => (t.parts[t.k]?).map fun p => (encSummary true p, .lateSummary t.gen t.k)
  | .beacon => s.peer.own.map fun b => (encBeacon b, .beacon)
  | .recordQuery => s.print.transfer.map fun t => (encRecordQuery t.hireNo t.target t.first, .recordQuery t.gen)
  | .recordPart =>
    s.print.serve.map fun t =>
      (encRecordPart t.k t.parts.length t.hireNo (t.parts.getD t.k []), .recordPart t.gen t.k)

/-- Station 0's side of a talk is over: driver end detached, talk timer stopped (R115). -/
def State.detachTalk (s : State) : State := s.onIntercom fun i => { i with talk := .none, talkTimer := none }

/-- The partner of the open talk, if any (R112). -/
def Talk.partner : Talk → Option Addr
  | .none => Option.none
  | .talk t => some t
  | .held t => some t
  | .announce => Option.none

/-- The link controller has taken the offer: the block holds it no longer; a taken hire event refreshes the beacon
(R84). -/
def State.offerTaken (s : State) : Offer → State
  | .distress => s
  | .claim => s.onHire fun h => { h with claimHeld := false }
  | .object t => s.onHire fun h => { h with objects := h.objects.erase t }
  | .command _ => s
  | .reply => s.onHire fun h => { h with reply := none }
  | .hireEvent =>
    let s := s.onHire fun h => { h with event := none }
    if s.link.has 6 then
      let b := s.composeBeacon
      (s.onPeer fun p => { p with own := some b }).onLink fun l => l.refresh (encBeacon b)
    else s
  | .intercomNew e => s.onIntercom fun i => { i with events := i.events.erase e }
  | .intercom => s.onIntercom fun i => { i with events := i.events.tail }
  | .shiftFrame f => s.onShift fun sh => { sh with held := sh.held.erase f }
  | .shiftRepeat => s
  | .summary => s.onShift fun sh => { sh with tx := sh.tx.map fun t => { t with held := false } }
  | .lateSummary => s.onShift fun sh => { sh with lateTx := sh.lateTx.map fun t => { t with held := false } }
  | .beacon => s
  | .recordQuery => s.onPrint fun p => { p with transfer := p.transfer.map fun t => { t with queryHeld := false } }
  | .recordPart => s.onPrint fun p => { p with serve := p.serve.map fun t => { t with held := false } }

/-- The link controller has refused the offer (Table 5-4): the block keeps it for the next slot end, but a COMMAND is
dropped with LINK BUSY shown, and a refused CONNECT ends its talk (R113, R173). -/
def State.offerRefused (s : State) : Offer → State
  | .command t =>
    let isConnect := (s.console.cmds.get t).map (·.cmd) == some .connect
    let s := s.onConsole fun c => { c with cmds := c.cmds.set t none, message := some (.linkBusy t) }
    if isConnect && s.intercom.talk.partner == some t then s.detachTalk else s
  | .summary => s.onShift fun sh => { sh with tx := sh.tx.map fun t => { t with held := true } }
  | .lateSummary => s.onShift fun sh => { sh with lateTx := sh.lateTx.map fun t => { t with held := true } }
  | .recordQuery => s.onPrint fun p => { p with transfer := p.transfer.map fun t => { t with queryHeld := true } }
  | .recordPart => s.onPrint fun p => { p with serve := p.serve.map fun t => { t with held := true } }
  | .distress => s
  | .claim => s
  | .object _ => s
  | .reply => s
  | .hireEvent => s
  | .intercomNew _ => s
  | .intercom => s
  | .shiftFrame _ => s
  | .shiftRepeat => s
  | .beacon => s

/-- One offer, made and answered. -/
def State.tryOffer (s : State) (o : Offer) : State :=
  match s.offered o with
  | none => s
  | some (payload, tag) =>
    match s.link.offer s.now o.cls payload tag with
    | some l => (s.onLink fun _ => l).offerTaken o
    | none => s.offerRefused o

/-- The outcome does not depend on the order of admission: at most one offer, or none taken, or room for all and no two
of one class (log entry 5). -/
def orderIrrelevant (s : State) (os : List Offer) : Bool :=
  os.length ≤ 1 || s.link.clash ||
    (decide (os.map Offer.cls).Nodup && s.link.queue.length + os.length ≤ 13)

/-- Offers made at the same moment, admitted one at a time in an order that is not fixed (R81): each next one is drawn
by the free value Config.offerOrder. -/
def flushFree : Nat → List Offer → State → State
  | 0, _, s => s
  | _ + 1, [], s => s
  | _ + 1, [o], s => s.tryOffer o
  | n + 1, os, s =>
    let i := Config.offerOrder s.free % os.length
    flushFree n (os.eraseIdx i) (({ s with free := s.free + 1 } : State).tryOffer (os.getD i .beacon))

/-- Make the offers of the event being taken. -/
def State.flushOffers (s : State) : State :=
  let os := s.offers
  let s := { s with offers := [] }
  if orderIrrelevant s os then os.foldl State.tryOffer s else flushFree os.length os s

end Sys2Proof.Machine
end

