-- ==== Sys2Proof/Machine/Accounts.lean ====
section
/-! DEFINITION. Shared operations of the shift accountant: accumulators (R154 to R156), the close of a shift (R157),
adoption (R152), the late close (R153) and the pacing of summaries (R161). -/
namespace Sys2Proof.Machine
open Sys2Proof

def top16 : Nat := 65535
def top32 : Nat := 4294967295

/-- A saturating addition (R154). -/
def satAdd (top a b : Nat) : Nat := min top (a + b)

/-- Add to the accumulators while ON_SHIFT or CLOSING; in OFF_SHIFT nothing is added (R154). -/
def State.account (s : State) (f : Accum → Accum) : State :=
  if s.shift.state = .offShift then s else s.onShift fun sh => { sh with acc := f sh.acc }

/-- One applied tender into the total of its kind (Table 9-3). -/
def Accum.addTender (a : Accum) : Tender → Accum
  | .cash x _ _ => { a with cash := satAdd top32 a.cash x }
  | .card x _ _ _ _ => { a with card := satAdd top32 a.card x }
  | .account x _ _ => { a with account := satAdd top32 a.account x }

/-- What every closed hire adds: its count, distance, time and conflict (Table 9-3). -/
def Accum.addUse (a : Accum) (r : HireRecord) : Accum :=
  { a with
    paidPulses := satAdd top32 a.paidPulses r.paidPulses
    hiredSeconds := satAdd top32 a.hiredSeconds (r.hiredTenths / 10)
    conflicts := satAdd top16 a.conflicts (bitNat r.conflict) }

/-- What a settled or unpaid hire adds in money (Table 9-3). -/
def Accum.addMoney (a : Accum) (r : HireRecord) : Accum :=
  let a := { a with
    metered := satAdd top32 a.metered (r.metered + r.topUp.getD 0)
    extras := satAdd top32 a.extras r.extrasSum
    tips := satAdd top32 a.tips (r.tip.getD 0) }
  r.tenders.foldl Accum.addTender a

/-- What a closed hire adds, by its outcome (R155, Table 9-3). -/
def Accum.addHire (a : Accum) (r : HireRecord) (o : HireOutcome) : Accum :=
  match o with
  | .settled => ({ a with settled := satAdd top16 a.settled 1 }.addUse r).addMoney r
  | .unpaid =>
    let a := ({ a with unpaid := satAdd top16 a.unpaid 1 }.addUse r).addMoney r
    { a with unpaidTotal := satAdd top32 a.unpaidTotal (r.unpaid.getD 0) }
  | .cancelled => { a with cancelled := satAdd top16 a.cancelled 1 }.addUse r

/-- A lamp-fault report (R97, R156). -/
def State.reportLampFault (s : State) : State := s.account fun a => { a with lampFault := true }

/-- A SIGN_SILENT report (R98, R156). -/
def State.reportSignSilent (s : State) : State := s.account fun a => { a with signSilent := true }

/-- Some lamp is shown failed in the lamp status (R97). -/
def Lamps.anyFailed (l : Lamps) : Bool := !(l.vacant && l.hired && l.numeral && l.distress)

/-- The sign controller's re-reports after an open (R98). -/
def State.reportStanding (s : State) : State :=
  let s := if (s.sign.lamps.map Lamps.anyFailed).getD false then s.reportLampFault else s
  if s.sign.signSilent then s.reportSignSilent else s

/-- Hold a SHIFT frame and offer it (Table 5-4); a LINK_SILENT station offers nothing (R91). -/
def State.sendShift (s : State) (f : ShiftFrame) : State :=
  if s.silent then s else (s.onShift fun sh => { sh with held := sh.held ++ [f] }).offer (.shiftFrame f)

/-- The close of the shift at this station (R157): the last-shift record, zeroed accumulators, OFF_SHIFT. -/
def State.closeShift (s : State) (mark : CloseMark) : State :=
  s.onShift fun sh => { sh with
    last := some { number := sh.number, driver := sh.driver, openTime := sh.openTime, lost := sh.lost
                   closeTime := s.clock.seconds, mark := mark, acc := sh.acc }
    acc := .zero
    state := .offShift }

/-- The adoption of a shift by an OFF_SHIFT seat (R152, R3). -/
def State.adoptShift (s : State) (number driver : Nat) (rejoin : Bool) : State :=
  (s.onShift fun sh => { sh with
    number := number, driver := some driver, openTime := some s.clock.seconds
    acc := .zero, lost := rejoin && sh.coldMark, coldMark := false, state := .onShift }).onHire
    fun h => { h with nextNo := 1 }

/-- Begin to offer a summary from its part 0 (R161); `late` chooses the LATE summary. -/
def State.startSummary (s : State) (late : Bool) (parts : List SummaryPart) : State :=
  let t : SumTx := { parts := parts, k := 0, held := false, gen := s.shift.gen }
  let s := s.onShift fun sh => { sh with gen := sh.gen + 1 }
  if late then (s.onShift fun sh => { sh with lateTx := some t }).offer .lateSummary
  else (s.onShift fun sh => { sh with tx := some t }).offer .summary

/-- The LATE summary is built from the last-shift record (R157, R161). -/
def State.startLateSummary (s : State) : State :=
  match s.shift.last with
  | some l => s.startSummary true (s.summaryParts l.number l.lost l.acc)
  | none => s

/-- The pending late close, carried out when the slot is FREE and the session NONE (R153). -/
def State.lateCloseIfDue (s : State) : State :=
  match s.shift.pendingLate with
  | some (number, driver) =>
    if s.hire.slot.isFree && !s.pay.session.active then
      let s := (s.closeShift .late).startLateSummary
      (s.onShift fun sh => { sh with pendingLate := none }).adoptShift number driver false
    else s
  | none => s

/-- Leave CLOSING for ON_SHIFT with the accumulators unchanged (R163, R165, R169): the limit stops and no further part
is offered. -/
def State.leaveClosing (s : State) : State :=
  s.onShift fun sh => { sh with state := .onShift, closing := none, tx := none }

/-- The sent report of a summary part: the next part is offered, or the summary has been offered to its end (R161). -/
def SumTx.next (t : SumTx) : Option SumTx :=
  if t.k + 1 < t.parts.length then some { t with k := t.k + 1 } else none

def State.summarySent (s : State) (gen k : Nat) : State :=
  match s.shift.tx with
  | some t =>
    if t.gen = gen ∧ t.k = k then
      let s' := s.onShift fun sh => { sh with tx := t.next }
      if t.next.isSome then s'.offer .summary else s'
    else s
  | none => s

def State.lateSummarySent (s : State) (gen k : Nat) : State :=
  match s.shift.lateTx with
  | some t =>
    if t.gen = gen ∧ t.k = k then
      let s' := s.onShift fun sh => { sh with lateTx := t.next }
      if t.next.isSome then s'.offer .lateSummary else s'
    else s
  | none => s

end Sys2Proof.Machine
end

