-- ==== Sys2Proof/Machine/Sign.lean ====
section
/-! DEFINITION. The sign controller's shared operations (R94 to R101): sending, holding and the content change. -/
namespace Sys2Proof.Machine
open Sys2Proof

/-- Send a sign message with the content computed now (R95, R96). A REPEAT starts the 500 ms period, a ONCE the 1 s of
the lamp test; an OFF opens no wait. -/
def State.sendSign (s : State) (m : SignMsg) : State :=
  let content := s.signMode
  let s := s.onLines fun l => { l with sign := signMessage m content.1 content.2 s.brightness }
  s.onSign fun g => { g with
    last := some content
    held := none
    wait := match m with
      | .off => none
      | .repeating => startTimer (ms 40)
      | .once => startTimer (ms 40)
    period := match m with
      | .repeating => startTimer (ms 500)
      | .once => none
      | .off => none
    test := match m with
      | .once => startTimer (sec 1)
      | .repeating => none
      | .off => none }

/-- A message falls due: it is sent at once, or held until the wait for a reply ends; several that fall due in one wait
make one message (R96). -/
def State.dueSign (s : State) (m : SignMsg) : State :=
  if s.sign.wait.isSome then s.onSign fun g => { g with last := some s.signMode, held := some m } else s.sendSign m

/-- The wait for a reply has ended: a held message is sent (R96). -/
def State.endSignWait (s : State) : State :=
  let s := s.onSign fun g => { g with wait := none }
  match s.sign.held with
  | some m => s.sendSign m
  | none => s

/-- Recompute the mode; a content change against the last message sent or due makes a REPEAT due at once and ends a lamp
test, and in OFF nothing is sent (R94, R95, R99, R100, log entry 50). -/
def State.signUpdate (s : State) : State :=
  if s.isConsole && s.supply.running && s.sign.control != .off && s.sign.last != some s.signMode then
    (s.onSign fun g => { g with control := .repeating, test := none }).dueSign .repeating
  else s

end Sys2Proof.Machine
end

