-- ==== Sys2Proof/Machine/Event.lean ====
section
/-! DEFINITION. How a command is taken: whole, by a running station only (R189), and with what follows every event: a
late close that has become due (R153), the event's offers (R81) and the sign's recompute (R94). -/
namespace Sys2Proof.Machine
open Sys2Proof

/-- What completes every event of a running station. -/
def State.settleEvent (s : State) : State := s.lateCloseIfDue.flushOffers.signUpdate

/-- A command taken by a running station; a stopped one takes no event (R189, R191). -/
def event (f : State → State) (s : State) : Host.Outcome State Fault Refusal :=
  .next (if s.supply.running then (f s).settleEvent else s)

end Sys2Proof.Machine
end

