-- ==== Sys2Proof/Machine/Ends.lean ====
section
/-! DEFINITION. Shared operations of the intercom and the console's commands: the compartment end (R114, R118), its
events (R110), the prompt (R120), station 0's talk (R112, R115), and the pending command per target (R173 to R176). -/
namespace Sys2Proof.Machine
open Sys2Proof

/-! ### Intercom events (R110) -/

inductive EventGroup | call | speaker | privacy
  deriving DecidableEq, Repr

def IntercomEvent.group : IntercomEvent → EventGroup
  | .call => .call
  | .callWithdraw => .call
  | .speakerHeld => .speaker
  | .speakerFree => .speaker
  | .privacyOn => .privacy
  | .privacyOff => .privacy

/-- Hold an intercom event after the held events of the other groups, and offer it at once (R110): it may be taken before
an older one of another group that waits for its slot end (log entry 54). -/
def State.sayEvent (s : State) (e : IntercomEvent) : State :=
  if s.silent then s
  else (s.onIntercom fun i => { i with
    events := (i.events.filter fun x => x.group != e.group) ++ [e] }).offer (.intercomNew e)

/-- The partner's speaker is held: TALK(t) becomes HELD(t), whose timer stands still (R112). -/
def State.talkHeld (s : State) (t : Addr) : State :=
  if s.intercom.talk = .talk t then s.onIntercom fun i => { i with talk := .held t } else s

/-- The partner's speaker is free again (R112). -/
def State.talkFreed (s : State) (t : Addr) : State :=
  if s.intercom.talk = .held t then s.onIntercom fun i => { i with talk := .talk t } else s

/-- The own end enters HELD: SPEAKER_HELD, or station 0's talk directly (R110, R120). -/
def State.saySpeakerHeld (s : State) : State := if s.isConsole then s.talkHeld 0 else s.sayEvent .speakerHeld

/-- The own end leaves HELD (R110, R120). -/
def State.saySpeakerFree (s : State) : State := if s.isConsole then s.talkFreed 0 else s.sayEvent .speakerFree

/-! ### The compartment end (R114, R118) -/

/-- Ends talk in 120 s (R116). -/
def talkTime : Nat := sec 120

/-- The end is IDLE with no timer. -/
def State.idleEnd (s : State) : State :=
  s.onIntercom fun i => { i with endState := .idle, callTimer := none, endTimer := none }

/-- Where an end enters CONNECTED or LISTEN: HELD while PROMPT owns the speaker (R114, R118). -/
def Intercom.entered (i : Intercom) (was : HeldState) : EndState :=
  if i.prompt then .held was
  else match was with
    | .connected => .connected
    | .listen => .listen

/-- Enter CONNECTED or LISTEN with a fresh end talk timer, telling a hold (R114, R118). -/
def State.enterEnd (s : State) (was : HeldState) : State :=
  let s' := s.onIntercom fun i => { i with
    endState := i.entered was, callTimer := none, endTimer := startTimer talkTime }
  if s.intercom.prompt then s'.saySpeakerHeld else s'

/-- CONNECT at an end without privacy (R114). -/
def State.connectEnd (s : State) : State :=
  match s.intercom.endState with
  | .idle => s.enterEnd .connected
  | .calling => s.enterEnd .connected
  | .listen => s.enterEnd .connected
  | .connected => s
  | .held .connected => s.saySpeakerHeld
  | .held .listen =>
    (s.onIntercom fun i => { i with endState := .held .connected, endTimer := startTimer talkTime }).saySpeakerHeld

/-- DISCONNECT (R114). -/
def State.disconnectEnd (s : State) : State :=
  match s.intercom.endState with
  | .connected => s.idleEnd
  | .listen => s.idleEnd
  | .held _ => s.idleEnd
  | .idle => s
  | .calling => s

/-- LISTEN (R118). -/
def State.listenEnd (s : State) : State :=
  match s.intercom.endState with
  | .idle => s.enterEnd .listen
  | .calling => s.enterEnd .listen
  | .connected => s.enterEnd .listen
  | .listen => s
  | .held .listen => s
  | .held .connected => s.onIntercom fun i => { i with endState := .held .listen, endTimer := startTimer talkTime }

/-- LISTEN_END (R118). -/
def State.listenEndEnd (s : State) : State :=
  match s.intercom.endState with
  | .listen => s.idleEnd
  | .held .listen => s.idleEnd
  | .idle => s
  | .calling => s
  | .connected => s
  | .held .connected => s

/-! ### The prompt request (R120) -/

def State.raisePrompt (s : State) : State :=
  let s' := s.onIntercom fun i => { i with prompt := true, promptTimer := none }
  match s.intercom.endState with
  | .connected => (s'.onIntercom fun i => { i with endState := .held .connected }).saySpeakerHeld
  | .listen => (s'.onIntercom fun i => { i with endState := .held .listen }).saySpeakerHeld
  | .idle => s'
  | .calling => s'
  | .held _ => s'

def State.releasePrompt (s : State) : State :=
  let s' := s.onIntercom fun i => { i with prompt := false, promptTimer := none }
  match s.intercom.endState with
  | .held .connected => (s'.onIntercom fun i => { i with endState := .connected }).saySpeakerFree
  | .held .listen => (s'.onIntercom fun i => { i with endState := .listen }).saySpeakerFree
  | .idle => s'
  | .calling => s'
  | .connected => s'
  | .listen => s'

/-! ### Pending commands (R173 to R176) -/

/-- Form a command for a target: the next sequence number, a pending entry, and for a seat a COMMAND frame offered
(R173). -/
def State.formCommand (s : State) (t : Addr) (cmd : Cmd) : State :=
  let s' := s.onConsole fun c => { c with
    cmds := c.cmds.set t (some { cmd := cmd, seq := c.nextSeq, formed := s.now, claiming := false
                                 handed := false, limit := none })
    nextSeq := (c.nextSeq + 1) % 16 }
  if t = 0 then s' else s'.offer (.command t)

/-- No command is pending for the target and none is deferred for it (R173). -/
def Console.ready (c : Console) (t : Addr) : Bool := (c.cmds.get t).isNone && (c.deferred.get t).isEmpty

/-- The talk with `t`, if it is open, is over at station 0 and nothing is offered toward `t` (R115). -/
def State.leaveTalk (s : State) (t : Addr) : State := if s.intercom.talk.partner = some t then s.detachTalk else s

/-- A reply from `t` is taken when it pairs with the pending command (R174); a refused CONNECT ends its talk (R115). -/
def State.consoleReply (s : State) (t : Addr) (seq : Nat) (r : Reply) : State :=
  match s.console.cmds.get t with
  | some p =>
    if p.seq = seq then
      let s' := s.onConsole fun c => { c with
        cmds := c.cmds.set t none, lastReply := c.lastReply.set t (some (.reply r)) }
      if p.cmd = .connect ∧ r ≠ .done then s'.leaveTalk t else s'
    else s
  | none => s

/-- What DISCONNECT, LISTEN and LISTEN_END do at a compartment end (R114, R118). -/
def State.endCommand (s : State) (cmd : Cmd) : State :=
  match cmd with
  | .disconnect => s.disconnectEnd
  | .listen => s.listenEnd
  | .listenEnd => s.listenEndEnd
  | _ => s

/-- DISCONNECT, LISTEN or LISTEN_END is formed for a target with nothing pending (R176): the COMMAND of a seat is
offered; station 0's own end takes it at once, and its reply returns directly (R173, log entry 16). -/
def State.giveCommand (s : State) (t : Addr) (cmd : Cmd) : State :=
  let s' := s.formCommand t cmd
  if t = 0 then (s'.endCommand cmd).consoleReply 0 s.console.nextSeq .done else s'

/-- DISCONNECT, LISTEN or LISTEN_END falls due for a target: formed, deferred, or discarded as a third (R176). -/
def State.dueCommand (s : State) (t : Addr) (cmd : Cmd) : State :=
  if s.console.ready t then s.giveCommand t cmd
  else if (s.console.deferred.get t).length < 2 then
    s.onConsole fun c => { c with deferred := c.deferred.set t (c.deferred.get t ++ [cmd]) }
  else s

/-! ### Station 0's talk (R111 to R115) -/

/-- A caller leaves the call queue (R111). -/
def State.dropCaller (s : State) (a : Addr) : State :=
  s.onIntercom fun i => { i with queue := i.queue.filter fun e => e.addr != a }

/-- A talk ends at station 0 (R115): the driver end is detached, and toward the partner a DISCONNECT falls due where
`tell` says so. -/
def State.endTalk (s : State) (tell : Bool) : State :=
  match s.intercom.talk.partner with
  | none => s
  | some t => if tell then s.detachTalk.dueCommand t .disconnect else s.detachTalk

/-- The talk with `t`, if it is open, ends (R115). -/
def State.endTalkWith (s : State) (t : Addr) (tell : Bool) : State :=
  if s.intercom.talk.partner = some t then s.endTalk tell else s

/-- The reply limit of the command pending for `t` expires (R174, R115). -/
def State.noAnswer (s : State) (t : Addr) : State :=
  match s.console.cmds.get t with
  | some p =>
    let s' := s.onConsole fun c => { c with
      cmds := c.cmds.set t none, lastReply := c.lastReply.set t (some .noAnswer) }
    if p.cmd = .connect then s'.endTalkWith t true else s'
  | none => s

/-- A pending HIRE for `t` with this sequence number is marked as claiming; the limit restarts at 500 ms where it
belongs to a seat (R175). -/
def State.markClaiming (s : State) (t : Addr) (seq : Nat) : State :=
  match s.console.cmds.get t with
  | some p =>
    match p.cmd with
    | .hire _ _ =>
      if p.seq = seq then
        s.onConsole fun c => { c with
          cmds := c.cmds.set t (some { p with
            claiming := true, limit := if t = 0 then none else startTimer (ms 500) }) }
      else s
    | _ => s
  | none => s

end Sys2Proof.Machine
end

