-- ==== Sys2Proof/Machine/Calendar.lean ====
section
/-! DEFINITION. The Gregorian calendar of the real-time clock (R56) and the entry of a date (R60). -/
namespace Sys2Proof.Machine

def isLeap (y : Nat) : Bool := (y % 4 == 0 && y % 100 != 0) || y % 400 == 0

def daysInYear (y : Nat) : Nat := if isLeap y then 366 else 365

/-- Length of a month; 0 for a number that names none. -/
def daysInMonth (y m : Nat) : Nat :=
  match m with
  | 1 => 31
  | 2 => if isLeap y then 29 else 28
  | 3 => 31
  | 4 => 30
  | 5 => 31
  | 6 => 30
  | 7 => 31
  | 8 => 31
  | 9 => 30
  | 10 => 31
  | 11 => 30
  | 12 => 31
  | _ => 0

/-- The year and the day within it, counting on from the first day of year `y`. -/
def splitYear : Nat → Nat → Nat → Nat × Nat
  | 0, y, d => (y, d)
  | fuel + 1, y, d => if d < daysInYear y then (y, d) else splitYear fuel (y + 1) (d - daysInYear y)

/-- The month and the day of the month, counting on from the first day of month `m`. -/
def splitMonth : Nat → Nat → Nat → Nat → Nat × Nat
  | 0, _, m, d => (m, d + 1)
  | fuel + 1, y, m, d => if d < daysInMonth y m then (m, d + 1) else splitMonth fuel y (m + 1) (d - daysInMonth y m)

/-- The date of a seconds value; the greatest seconds value falls in 2136 (R56). -/
def dateOf (seconds : Nat) : Date :=
  let yd := splitYear 137 2000 (seconds / 86400)
  let md := splitMonth 11 yd.1 1 yd.2
  { year := yd.1, month := md.1, day := md.2 }

/-- Day of the week, 0 Sunday to 6 Saturday; 2000-01-01 was a Saturday (R56). -/
def dayOfWeek (seconds : Nat) : Nat := (seconds / 86400 + 6) % 7

/-- Minute of day, 0 to 1439 (R56). -/
def minuteOfDay (seconds : Nat) : Nat := seconds / 60 % 1440

/-- Second of the minute, 0 to 59 (R56). -/
def secondOfMinute (seconds : Nat) : Nat := seconds % 60

/-- Whole days of the years before `y`, from 2000. -/
def daysBeforeYear (y : Nat) : Nat := ((List.range (y - 2000)).map fun i => daysInYear (2000 + i)).sum

/-- Whole days of the months before `m` in year `y`. -/
def daysBeforeMonth (y m : Nat) : Nat := ((List.range (m - 1)).map fun i => daysInMonth y (i + 1)).sum

/-- Seconds value of a date and time with seconds 0 (R60). -/
def secondsOf (y m d hour minute : Nat) : Nat :=
  (daysBeforeYear y + daysBeforeMonth y m + (d - 1)) * 86400 + hour * 3600 + minute * 60

/-- A date in 2000 to 2099 by the Gregorian calendar (R60, R65). -/
def dateOk (y m d : Nat) : Bool :=
  2000 ≤ y && y ≤ 2099 && 1 ≤ m && m ≤ 12 && 1 ≤ d && d ≤ daysInMonth y m

/-- The fields of a clock setting are in range (R60). -/
def clockEntryOk (y m d hour minute : Nat) : Bool := dateOk y m d && hour ≤ 23 && minute ≤ 59

end Sys2Proof.Machine
end

