-- ==== Sys2Proof/Machine/Tariff.lean ====
section
/-! DEFINITION. The tariff store: layout (Table 12-7), validation (R62 to R65) and band selection (R69, R70), and the
values other blocks derive from the image (R26, R48). -/
namespace Sys2Proof.Machine
open Sys2Proof

/-- A field of `n` bytes at offset `i`. -/
def fieldAt (bs : List Byte) (i n : Nat) : Nat := beNat ((bs.drop i).take n)

def between (lo n hi : Nat) : Bool := lo ≤ n && n ≤ hi

/-- The ranges and relations of a defined band (R64, Table 2-1). -/
def bandOk (b : Band) : Bool :=
  b.fb ≤ 50000 && b.fmin ≤ 50000 && b.d0 ≤ 5000 && b.t0 ≤ 1800 && between 1 b.ld 2000 && between 1 b.sd 5000
    && between 10 b.lt 6000 && between 1 b.st 5000 && between 50 b.vs 600 && b.vh ≤ 50 && b.vh + 10 ≤ b.vs
    && b.f1 == 1000 && between 100 b.f2 1000 && between 100 b.f3 1000 && between 100 b.f4 1000
    && b.f2 ≤ b.f1 && b.f3 ≤ b.f2 && b.f4 ≤ b.f3

/-- One band entry (12.5): `none` makes the image invalid, `some none` is a band not defined. -/
def parseBand (e : List Byte) : Option (Option Band) :=
  if fieldAt e 0 1 = 0 then some none
  else
    let f := fieldAt e
    let b (mode : BandMode) : Band :=
      { mode := mode, fb := f 2 3, fmin := f 5 3, d0 := f 8 2, t0 := f 10 2, ld := f 12 2, sd := f 14 3, lt := f 17 2
        st := f 19 3, vs := f 22 2, vh := f 24 1, f1 := f 25 2, f2 := f 27 2, f3 := f 29 2, f4 := f 31 2 }
    match f 1 1 with
    | 0 => if bandOk (b .switched) then some (some (b .switched)) else none
    | 1 => if bandOk (b .combined) then some (some (b .combined)) else none
    | _ => none

def parseCalEntry (e : List Byte) : CalEntry :=
  let set := fieldAt e 0 1
  { weekday := set % 2 == 1, saturday := set / 2 % 2 == 1, sunday := set / 4 % 2 == 1, holiday := set / 8 % 2 == 1
    start := fieldAt e 1 2, band := fieldAt e 3 1 }

def parseHoliday (e : List Byte) : Date := { year := fieldAt e 0 2, month := fieldAt e 2 1, day := fieldAt e 3 1 }

/-- One extras entry (R65): `none` makes the image invalid, `some none` is a code not defined. -/
def parseExtra (e : List Byte) : Option (Option ExtraDef) :=
  if fieldAt e 0 1 = 0 then some none
  else
    let amount := fieldAt e 2 3
    let limit := fieldAt e 5 1
    if between 1 limit 6 then
      match fieldAt e 1 1 with
      | 1 => if between 1 amount 50000 then some (some ⟨.fixed, amount, limit⟩) else none
      | 2 => if amount = 0 then some (some ⟨.entered, amount, limit⟩) else none
      | 3 => if between 1 amount 50000 then some (some ⟨.perPassenger, amount, limit⟩) else none
      | _ => none
    else none

/-- All items of a list, or `none` when one of them is. -/
def allSome {α : Type} : List (Option α) → Option (List α)
  | [] => some []
  | none :: _ => none
  | some x :: xs => (allSome xs).map (x :: ·)

def sharesDay (a b : CalEntry) : Bool :=
  (a.weekday && b.weekday) || (a.saturday && b.saturday) || (a.sunday && b.sunday) || (a.holiday && b.holiday)

/-- One calendar entry against R65: a day type, a start minute in range, a defined band. -/
def calEntryOk (bands : List (Option Band)) (e : CalEntry) : Bool :=
  (e.weekday || e.saturday || e.sunday || e.holiday) && e.start ≤ 1439 && ((bands[e.band]?).join).isSome

/-- No two entries have the same start minute and a day type in common (R65). -/
def calendarDistinct : List CalEntry → Bool
  | [] => true
  | e :: es => es.all (fun f => !(e.start == f.start && sharesDay e f)) && calendarDistinct es

/-- The numbers outside the tables against R64. -/
def globalsOk (im : Image) : Bool :=
  between 1 im.number 65535 && between 1000 im.k 60000 && between 100 im.vmax 300 && (im.bands.head?.join).isSome
    && im.respCode ≤ 3 && between 2 im.pollUnits 50 && between 1 im.currency 999 && im.bright ≤ 3
    && im.clearCode.all (· ≤ 9) && im.tips.all (· ≤ 30)

def tablesOk (im : Image) : Bool :=
  im.calendar.all (calEntryOk im.bands) && calendarDistinct im.calendar
    && im.holidays.all fun d => dateOk d.year d.month d.day

/-- The frame of the image (R63): the length field, the bytes delivered, the check. -/
def frameOk (bs : List Byte) : Bool :=
  fieldAt bs 0 2 == 320 && bs.length == 320 && (crc32 (bs.take 316)).toNat == fieldAt bs 316 4

/-- The image as laid out, when its bands and extras are in range and its counts allowed. -/
def readImage (bs : List Byte) : Option Image :=
  let calCount := fieldAt bs 17 1
  let holCount := fieldAt bs 18 1
  let tipCount := fieldAt bs 311 1
  match allSome ((chunks 33 4 ((bs.drop 19).take 132)).map parseBand),
      allSome ((chunks 6 8 ((bs.drop 263).take 48)).map parseExtra) with
  | some bands, some extras =>
    if calCount ≤ 12 ∧ holCount ≤ 16 ∧ tipCount ≤ 4 then
      some { number := fieldAt bs 2 2, edition := fieldAt bs 4 1, k := fieldAt bs 5 2, vmax := fieldAt bs 7 2
             respCode := fieldAt bs 9 1 / 64, bright := fieldAt bs 9 1 % 4, pollUnits := fieldAt bs 10 1
             currency := fieldAt bs 11 2, clearCode := ((bs.drop 13).take 4).map (·.toNat), bands := bands
             calendar := ((chunks 4 12 ((bs.drop 151).take 48)).take calCount).map parseCalEntry
             holidays := ((chunks 4 16 ((bs.drop 199).take 64)).take holCount).map parseHoliday
             extras := extras, tips := ((bs.drop 312).take tipCount).map (·.toNat) }
    else none
  | _, _ => none

/-- Validation of what was read (R62 to R66): the held image, or `none` when it is invalid. A read that the memory did
not complete is an image of the wrong length (R62). -/
def validateImage (read : Option (List Byte)) : Option Image :=
  match read with
  | none => none
  | some bs =>
    match readImage bs with
    | some im => if frameOk bs && globalsOk im && tablesOk im then some im else none
    | none => none

/-- pmax: the largest pulse count credited from one slot (R26). -/
def pmaxOf (k vmax : Nat) : Nat := vmax * k / 36000

/-- The band snapshot of a band under an image (R26). -/
def snapshotOf (im : Image) (b : Band) : Snapshot :=
  { band := b, k := im.k, vmax := im.vmax, pmax := pmaxOf im.k im.vmax, threshold := b.ld * im.k }

/-- The day type of a clock value holds an entry (R69): a holiday date is HOLIDAY only. -/
def CalEntry.onDay (e : CalEntry) (im : Image) (seconds : Nat) : Bool :=
  if im.holidays.contains (dateOf seconds) then e.holiday
  else match dayOfWeek seconds with
    | 0 => e.sunday
    | 6 => e.saturday
    | _ => e.weekday

/-- The entry with the greatest start minute. -/
def latestEntry (es : List CalEntry) : Option CalEntry :=
  es.foldl (fun best e => match best with
    | none => some e
    | some b => if b.start < e.start then some e else some b) none

/-- The band index in force (R70). -/
def selectBand (im : Image) (seconds : Nat) : Nat :=
  let es := im.calendar.filter fun e => e.onDay im seconds
  match latestEntry (es.filter fun e => e.start ≤ minuteOfDay seconds) with
  | some e => e.band
  | none => match latestEntry es with
    | some e => e.band
    | none => 0

/-- Card response limit by the card response code, in milliseconds (R124). -/
def respLimitMs : Nat → Nat
  | 0 => 250
  | 1 => 500
  | 2 => 1000
  | _ => 2000

end Sys2Proof.Machine
end

