-- ==== Sys2Proof/Machine/Fare.lean ====
section
/-! DEFINITION. The fare engine (chapter 2): allowances, steps and carry, the cap, speed and charging state, the due at
stop, extras, and the accrual fields of a new record. -/
namespace Sys2Proof.Machine
open Sys2Proof

/-! ### Steps (R30 to R35) -/

/-- Sharing factor of a level (Table 2-1). -/
def Band.factor (b : Band) (level : Nat) : Nat :=
  match level with
  | 2 => b.f2
  | 3 => b.f3
  | 4 => b.f4
  | _ => b.f1

inductive StepKind | distance | time
  deriving DecidableEq, Repr

/-- S of a step (R34). -/
def Band.stepAmount (b : Band) : StepKind → Nat
  | .distance => b.sd
  | .time => b.st

def HireRecord.addCharge (r : HireRecord) (k : StepKind) (q : Nat) : HireRecord :=
  match k with
  | .distance => { r with distCharge := r.distCharge + q }
  | .time => { r with timeCharge := r.timeCharge + q }

/-- One step charged at the record's current level (R34), against the fare cap (R35). A step of a CAPPED hire adds
nothing to the charges and leaves the carry at 0. -/
def stepCharge (b : Band) (k : StepKind) (r : HireRecord) : HireRecord :=
  let amount := b.stepAmount k
  let raw := amount * b.factor r.level + r.carry
  let q := raw / 1000
  let counted := { r with undiscounted := r.undiscounted + amount }
  if r.capped then { counted with carry := 0 }
  else if fareCap < r.running + q then
    { counted.addCharge k (fareCap - r.running) with capped := true, carry := 0 }
  else { counted.addCharge k q with carry := raw % 1000 }

/-- `n` steps of one kind, in turn. -/
def stepTimes (b : Band) (k : StepKind) : Nat → HireRecord → HireRecord
  | 0, r => r
  | n + 1, r => stepTimes b k n (stepCharge b k r)

/-- A distance credit: allowance first (R30). -/
def HireRecord.creditDistance (r : HireRecord) (c : Nat) : HireRecord :=
  { r with allowD := r.allowD - min r.allowD c, accD := r.accD + (c - min r.allowD c) }

/-- A time credit: allowance first (R30). -/
def HireRecord.creditTime (r : HireRecord) (c : Nat) : HireRecord :=
  { r with allowT := r.allowT - min r.allowT c, accT := r.accT + (c - min r.allowT c) }

/-- The credit of one slot with `p` pulses (R29). -/
def HireRecord.creditSlot (r : HireRecord) (b : Band) (p : Nat) : HireRecord :=
  match b.mode with
  | .switched => if r.charging = some .dist then r.creditDistance (p * 1000) else r.creditTime 1
  | .combined => (r.creditDistance (p * 1000)).creditTime 1

/-- All distance steps that are due, then all time steps (R31). -/
def HireRecord.takeSteps (r : HireRecord) (sn : Snapshot) : HireRecord :=
  let r1 := stepTimes sn.band .distance (r.accD / sn.threshold) { r with accD := r.accD % sn.threshold }
  stepTimes sn.band .time (r1.accT / sn.band.lt) { r1 with accT := r1.accT % sn.band.lt }

/-! ### Speed and charging state (R36) -/

/-- v = floor(P × 18 000 / K), in tenths of km/h (R36, R50). -/
def speedOf (k sum : Nat) : Nat := sum * 18000 / k

/-- The charging state for the next slot; none is kept under COMBINED (R36). -/
def nextCharging (b : Band) (v : Nat) (c : Option Charging) : Option Charging :=
  match b.mode with
  | .combined => c
  | .switched =>
    match c with
    | some .dist => if v < b.vs - b.vh then some .time else some .dist
    | _ => if b.vs + b.vh ≤ v then some .dist else c

/-! ### The slot end (R28 to R37) -/

/-- One slot end of a HIRED hire: `tally` pulses, sharing level `n`, ring sum `sum`, clock time and fault state. -/
def Hire.slotEnd (h : Hire) (tally n sum seconds : Nat) (fault : Bool) : Hire :=
  let p := min tally h.snap.pmax
  let stepped := (({ h.rc with level := n }).creditSlot h.snap.band p).takeSteps h.snap
  { h with rc :=
    { stepped with
      charging := nextCharging h.snap.band (speedOf h.snap.k sum) stepped.charging
      paidPulses := stepped.paidPulses + p
      hiredTenths := stepped.hiredTenths + 1
      lastSlot := seconds
      pulseFault := stepped.pulseFault || fault } }

/-- The fare engine's part of a slot end, with the pulse fault state as it is seen there (R28, R33, R37); nothing in any
other slot state (Table 2-3). -/
def State.fareSlotEnd (s : State) (fault : Bool) : State :=
  match s.hire.slot with
  | .hired h =>
    let sum := s.pulse.ring.sum
    s.onHire fun c => { c with
      slot := .hired (h.slotEnd s.hire.tally (s.sharingLevel h.rc.kind) sum s.clock.seconds fault)
      tally := 0
      speed := speedOf h.snap.k sum }
  | .free => s
  | .claiming _ => s
  | .stopped _ => s
  | .paying _ => s

/-! ### The due (R39, R40) -/

/-- Rounding, top-up and due at STOP, within the cap (R39). -/
def HireRecord.fixDue (r : HireRecord) (fmin : Nat) : HireRecord :=
  let base := r.flagFall + r.distCharge + r.timeCharge
  let ex := r.extrasSum
  let want := if 500 ≤ r.carry then 1 else 0
  let roundOver : Bool := want == 1 && fareCap < base + 1 + ex
  let rounding := if roundOver then 0 else want
  let metered := base + rounding
  let top := fmin - metered
  let topOver : Bool := 0 < top && fareCap < metered + top + ex
  let topUp := if topOver then fareCap - (metered + ex) else top
  { r with rounding := some rounding, topUp := some topUp, due := some (metered + topUp + ex)
           capped := r.capped || roundOver || topOver }

/-- The due computed again after a change of the extras (R40). -/
def HireRecord.refixDue (r : HireRecord) : HireRecord :=
  { r with due := some (r.metered + r.topUp.getD 0 + r.extrasSum) }

/-- What RESUME removes (R16, R40). -/
def HireRecord.unfixDue (r : HireRecord) : HireRecord :=
  { r with rounding := none, topUp := none, due := none, stop := none }

/-! ### Extras (R41, R42) -/

/-- The definition of a code, 1 to 8 (Table 4-1). -/
def Image.extra (im : Image) (code : Nat) : Option ExtraDef :=
  if code = 0 then none else (im.extras[code - 1]?).join

/-- The amount of Table 2-2, where it can be formed. -/
def ExtraDef.form (d : ExtraDef) (party amount : Nat) : Option Nat :=
  match d.kind with
  | .fixed => some d.amount
  | .entered => if between 1 amount 50000 then some amount else none
  | .perPassenger => if party ≤ 1 then none else some (d.amount * (party - 1))

/-- The sum the cap test starts from: the running amount in HIRED, the due in STOPPED (R42). -/
def HireRecord.capBase (r : HireRecord) (stopped : Bool) : Nat := if stopped then r.due.getD 0 else r.running

/-- The checks of an EXTRA in order (R41): the amount to add, or the reason of the first check that fails. -/
def checkExtra (image : Option Image) (r : HireRecord) (stopped : Bool) (code amount : Nat) : Except Reason Nat :=
  match image with
  | none => .error .noTariff
  | some im =>
    match im.extra code with
    | none => .error .amountRange
    | some d =>
      if 6 ≤ r.extras.length then .error .extrasFull
      else if d.limit ≤ (r.extras.filter fun e => e.1 == code).length then .error .extraLimit
      else match d.form r.party amount with
        | none => .error .amountRange
        | some a => if fareCap < r.capBase stopped + a then .error .amountRange else .ok a

/-! ### A new record (R2, R3, R26, R27) -/

/-- The next hire number after `n` (R3). -/
def succHireNo (n : Nat) : Nat := if 9999 ≤ n then 1 else n + 1

/-- The first number from `n` on that the log does not hold with this shift number; 32 records bound the passing over
(R3). -/
def freeHireNo (log : List HireRecord) (shiftNo : Nat) : Nat → Nat → Nat
  | 0, n => n
  | fuel + 1, n =>
    if log.any fun r => r.shiftNo == shiftNo && r.no == n then freeHireNo log shiftNo fuel (succHireNo n) else n

/-- The record formed at the end of a claim window (R2, R27). -/
def formRecord (no shiftNo level seconds bandIdx : Nat) (kind : Kind) (party : Nat) (sn : Snapshot) : HireRecord :=
  { no := no, shiftNo := shiftNo, kind := kind, party := party, bandIdx := bandIdx
    start := seconds, stop := none, close := none
    charging := match sn.band.mode with
      | .switched => some .time
      | .combined => none
    allowD := sn.band.d0 * sn.k, allowT := sn.band.t0 * 10, accD := 0, accT := 0, carry := 0
    flagFall := sn.band.fb, distCharge := 0, timeCharge := 0, rounding := none, topUp := none, due := none
    undiscounted := 0, paidPulses := 0, hiredTenths := 0, paidDistance := none, hiredSeconds := none
    lastSlot := seconds, level := level, extras := [], tip := none, tenders := [], privacy := false
    conflict := false, powerGap := false, pulseFault := false, capped := false, gapSeconds := 0
    unpaid := none, outcome := none }

/-- The cancel grace of R17: hired tenths below 600 and paid pulses below 200 × K / 1000. -/
def Hire.inGrace (h : Hire) : Bool := h.rc.hiredTenths < 600 && h.rc.paidPulses * 1000 < 200 * h.snap.k

end Sys2Proof.Machine
end

