-- ==== Sys2Proof/Machine/HireOps.lean ====
section
/-! DEFINITION. Shared operations of the hire controller (chapter 1): replies (R6), hire events (R22), the claim and its
end (R8 to R13), the conflict test (R14), the close (R21), tenders (R19), and what the passenger display keeps (R178). -/
namespace Sys2Proof.Machine
open Sys2Proof

/-! ### Replies and events -/

/-- One reply to a command: straight to the console for a local command, otherwise the one held reply (R6). -/
def State.replyTo (s : State) (src : Source) (seq : Nat) (r : Reply) : State :=
  match src with
  | .localKey => s.consoleReply 0 seq r
  | .frame _ _ => if s.silent then s else (s.onHire fun h => { h with reply := some (seq, r) }).offer .reply

/-- The command is refused (R5, R6). -/
def State.refuse (s : State) (src : Source) (seq : Nat) (r : Reason) : State := s.replyTo src seq (.refused r)

/-- Hold a hire event and offer it (R22). -/
def State.sayHireEvent (s : State) (e : HireEvent) : State :=
  if s.silent then s else (s.onHire fun h => { h with event := some e }).offer .hireEvent

/-- The next change of the hire ends what the passenger display shows of the last outcome (R178, log entry 28). -/
def State.hireChanged (s : State) : State := s.onDisplay fun d => { d with outcome := none, change := none, timer := none }

/-! ### The slot -/

/-- The slot becomes FREE; nothing is left of a claim or of frames that only an open slot re-offers (R1, R8, R11). -/
def State.freeSlot (s : State) : State :=
  s.onHire fun h => { h with slot := .free, claimHeld := false, objects := [], resume := none }

/-- An open claim ends without a hire (R9, R11, R13, R23). -/
def State.endClaim (s : State) (c : Claim) (r : Reason) : State := s.freeSlot.refuse c.src c.seq r

/-- Open a claim and offer its CLAIM (R8). -/
def State.openClaim (s : State) (kind : Kind) (party seq : Nat) (src : Source) : State :=
  (s.onHire fun h => { h with
    slot := .claiming { kind := kind, party := party, seq := seq, src := src, id := h.claimId
                        sent := false, window := none }
    claimHeld := true
    claimId := h.claimId + 1 }).offer .claim

/-- Hold an OBJECT for a claimer and offer it (R11, R12): one for each CLAIM, also where one for the same claimer still
waits; a LINK_SILENT station sends none (R23). -/
def State.sendObject (s : State) (t : Addr) : State :=
  if s.silent then s
  else (s.onHire fun h => { h with objects := h.objects ++ [t] }).offer (.object t)

/-- The conflict test of an EXCLUSIVE HIRED hire after a change of the peer table (R14). -/
def State.conflictTest (s : State) : State :=
  match s.hire.slot with
  | .hired h =>
    if h.rc.kind = .exclusive ∧ s.peers.any PeerRow.isHired then
      s.onHire fun c => { c with slot := .hired (h.mapRec fun r => { r with conflict := true, kind := .shared }) }
    else s
  | .free => s
  | .claiming _ => s
  | .stopped _ => s
  | .paying _ => s

/-- Paid distance in metres by the snapshot's K (R43). -/
def Hire.distance (h : Hire) : Nat := h.rc.paidPulses * 1000 / h.snap.k

/-- Hired time in seconds (R43). -/
def Hire.seconds (h : Hire) : Nat := h.rc.hiredTenths / 10

/-- The values of a hire that the fare engine supplies for the displays (R43). -/
structure Figures where
  flagFall   : Nat
  distCharge : Nat
  timeCharge : Nat
  rounding   : Option Nat
  topUp      : Option Nat
  metered    : Nat
  extrasSum  : Nat
  due        : Option Nat
  distance   : Nat
  seconds    : Nat
  saving     : Option Nat
  deriving DecidableEq, Repr

/-- The values of R43 as the hire stands. -/
def Hire.figures (h : Hire) : Figures :=
  { flagFall := h.rc.flagFall, distCharge := h.rc.distCharge, timeCharge := h.rc.timeCharge
    rounding := h.rc.rounding, topUp := h.rc.topUp, metered := h.rc.metered, extrasSum := h.rc.extrasSum
    due := h.rc.due, distance := h.distance, seconds := h.seconds, saving := h.rc.saving }

/-- The record as it stands after its close (R17, R21, R43). -/
def Hire.closed (h : Hire) (o : HireOutcome) (seconds : Nat) : HireRecord :=
  { h.rc with
    outcome := some o
    close := some seconds
    paidDistance := some h.distance
    hiredSeconds := some h.seconds
    privacy := false
    due := if o = .cancelled then some 0 else h.rc.due }

/-- The close of the engaged hire (R21). -/
def State.closeHire (s : State) (h : Hire) (o : HireOutcome) : State :=
  let r := h.closed o s.clock.seconds
  let s := s.onHire fun c => { c with log := appendCapped 32 c.log r }
  ((s.account fun a => a.addHire r o).freeSlot).sayHireEvent (.closed r.no o)

/-! ### Payment (R19) -/

/-- A STOPPED slot moves to PAYING and the resume window closes (R19). -/
def State.toPaying (s : State) : State :=
  match s.hire.slot with
  | .stopped h => s.onHire fun c => { c with slot := .paying h, resume := none }
  | .free => s
  | .claiming _ => s
  | .hired _ => s
  | .paying _ => s

/-- A tender is appended in PAYING while fewer than 3 stand, and settles the hire when due + tip is reached (R19). -/
def State.applyTender (s : State) (t : Tender) : State :=
  match s.hire.slot with
  | .paying h =>
    if h.rc.tenders.length < 3 then
      let h' := h.mapRec fun r => { r with tenders := r.tenders ++ [t] }
      if h'.rc.owed ≤ h'.rc.appliedSum then s.closeHire h' .settled
      else s.onHire fun c => { c with slot := .paying h' }
    else s
  | .free => s
  | .claiming _ => s
  | .hired _ => s
  | .stopped _ => s

/-- A hire with nothing remaining is settled with no further tender (R146). -/
def State.settleNow (s : State) : State :=
  match s.toPaying.hire.slot with
  | .paying h => s.toPaying.closeHire h .settled
  | .free => s
  | .claiming _ => s
  | .hired _ => s
  | .stopped _ => s

/-! ### The claim window's end (R13) -/

/-- The snapshot and band index in force now (R2, R70, R71). -/
def State.bandNow (s : State) : Option (Nat × Snapshot) :=
  s.image.bind fun im =>
    let i := selectBand im s.clock.seconds
    ((im.bands[i]?).join).map fun b => (i, snapshotOf im b)

/-- The claim becomes a hire (R2, R3, R13, R27). -/
def State.enterHired (s : State) (c : Claim) (bandIdx : Nat) (sn : Snapshot) : State :=
  let no := freeHireNo s.hire.log s.shift.number 33 s.hire.nextNo
  let r := formRecord no s.shift.number (s.sharingLevel c.kind) s.clock.seconds bandIdx c.kind c.party sn
  let s := (s.onHire fun h => { h with
    slot := .hired { rc := r, snap := sn }, nextNo := succHireNo no, tally := 0, claimHeld := false }).hireChanged
  (s.sayHireEvent (.start no c.kind)).replyTo c.src c.seq .done

/-- The end of the claim window: the interlock again, then the hire or CLAIM_LOST (R13). -/
def State.endWindow (s : State) (c : Claim) : State :=
  if s.interlocked c.kind then s.endClaim c .claimLost
  else match s.bandNow with
    | some (i, sn) => s.enterHired c i sn
    | none => s.endClaim c .claimLost

end Sys2Proof.Machine
end

