-- ==== Sys2Proof/Machine/PayOps.lean ====
section
/-! DEFINITION. Shared operations of the payment controller and the card link controller (chapter 8): the session, the
requests on the card line (R125 to R130), the outcome of a session (R136 to R143) and the reversal list (R141). -/
namespace Sys2Proof.Machine
open Sys2Proof

/-! ### Requests on the card line -/

/-- Put a request on the card line; until its last byte has left the timer counts the transmission (R125). -/
def State.sendCard (s : State) (q : CardReq) : State :=
  (s.onLines fun l => { l with card := q.bytes }).onCard fun c => { c with
    out := some { req := q, sent := false, timer := startTimer (cardFrameTime q.bytes) } }

/-- No request is outstanding or on its way (R127). -/
def State.cardIdle (s : State) : Bool := s.card.out.isNone

/-! ### Transaction numbers (R130) -/

def succTxn (n : Nat) : Nat := if 65535 ≤ n then 1 else n + 1

def Tender.txn? : Tender → Option Nat
  | .cash _ _ _ => none
  | .card _ txn _ _ _ => some txn
  | .account _ _ _ => none

/-- The number stands in the reversal list or in a CARD tender of the slot or the log (R130). -/
def State.txnTaken (s : State) (n : Nat) : Bool :=
  (s.pay.reversals.any fun r => r.txn == n)
    || ((s.hire.slot.hire?.map (·.rc)).toList ++ s.hire.log).any fun r =>
        r.tenders.any fun t => t.txn? == some n

/-- The first free number from `n` on; at most 103 numbers are passed over (R130). -/
def State.freeTxn (s : State) : Nat → Nat → Nat
  | 0, n => n
  | fuel + 1, n => if s.txnTaken n then s.freeTxn fuel (succTxn n) else n

/-! ### Outcomes shown (R143, R178) -/

/-- An outcome or a change stands on the passenger display for 10 s (R178). -/
def shownTime : Nat := sec 10

/-- Show an outcome and keep the prompt raised for 0.3 s more (R143). -/
def State.showOutcome (s : State) (o : ShownOutcome) : State :=
  (s.onDisplay fun d => { d with outcome := some o, timer := startTimer shownTime }).onIntercom fun i =>
    { i with promptTimer := if i.prompt then startTimer (ms 300) else none }

/-- The change of a cash tender is shown (R144, R178). -/
def State.showChange (s : State) (change : Nat) : State :=
  s.onDisplay fun d => { d with outcome := none, change := some change, timer := startTimer shownTime }

/-- The session is NONE: its timers stop and what it held is discarded (R136). -/
def State.endSession (s : State) : State :=
  s.onPay fun p => { p with session := .none, tipTimer := none, overall := none }

/-- The session ends with an outcome shown (R143). -/
def State.endWith (s : State) (o : ShownOutcome) : State := s.endSession.showOutcome o

/-- The session ends with no outcome shown: the prompt request is released at once (R143). -/
def State.endQuietly (s : State) : State := s.endSession.releasePrompt

/-! ### The session (R132 to R135) -/

/-- The request amount and tip field of the engaged hire now (R135). -/
def Hire.cardSession (h : Hire) : CardSession :=
  { amount := h.rc.remaining
    tip := if h.rc.tenders.isEmpty then h.rc.tip.getD 0 else 0
    txn := none, cancelReq := false, cancelSent := false }

/-- The card request is formed: CARD_WAIT with a PAY asked for, or CARD UNAVAILABLE (R135). -/
def State.formRequest (s : State) (h : Hire) : State :=
  match s.card.moduleState with
  | .outOfService => s.endWith .cardUnavailable
  | .absent => s.endWith .cardUnavailable
  | _ => s.onPay fun p => { p with session := .cardWait h.cardSession, tipTimer := none }

/-- The session begins in TIP_SELECT (R132). -/
def State.tipStepFirst (s : State) (h : Hire) : Bool :=
  h.rc.tenders.isEmpty && h.rc.tip.isNone && ((s.image.map fun im => !im.tips.isEmpty).getD false)
    && s.straps.buttons

/-- The tip time limit (R133). -/
def tipTime : Nat := sec 30

/-- Begin a session for a hire in PAYING (R132, R133, R143). -/
def State.beginSession (s : State) (h : Hire) : State :=
  if s.tipStepFirst h then
    (s.onPay fun p => { p with session := .tipSelect 0, tipTimer := startTimer tipTime }).raisePrompt
  else
    let s' := s.formRequest h
    if s'.pay.session.active then s'.raisePrompt else s'

/-- The tip of a percentage of the due (R133, R134). -/
def tipAmount (due pct : Nat) : Nat := (due * pct + 50) / 100

/-- The tip step ends with a tip: it is written into the record and the request formed (R134, R135). -/
def State.storeTip (s : State) (pct : Nat) : State :=
  match s.hire.slot with
  | .paying h =>
    let h' := h.mapRec fun r => { r with tip := some (tipAmount (r.due.getD 0) pct) }
    ((s.onHire fun c => { c with slot := .paying h' }).hireChanged).formRequest h'
  | .free => s
  | .claiming _ => s
  | .hired _ => s
  | .stopped _ => s

/-! ### In doubt and reversals (R139, R141) -/

/-- The session's transaction is in doubt: an entry in the reversal list, the session ended, IN DOUBT shown (R139). -/
def State.inDoubt (s : State) (q : CardSession) : State :=
  let entry : Reversal :=
    { txn := q.txn.getD 0, amount := q.amount, hireNo := (s.hire.slot.hire?.map (·.rc.no)).getD 0
      addr := s.addr, attempts := 0 }
  (((s.onPay fun p => { p with reversals := p.reversals ++ [entry] }).endSession).onCard fun c =>
    { c with missed := 0 }).showOutcome .inDoubt

/-- The session enters ENQUIRY, or stays in it (R136, R139). -/
def State.toEnquiry (s : State) (q : CardSession) : State := s.onPay fun p => { p with session := .enquiry q }

/-- A cancel is requested, once per session (R140). -/
def State.requestCancel (s : State) : State :=
  s.onPay fun p => { p with session := match p.session with
    | .cardWait q => .cardWait { q with cancelReq := true }
    | .enquiry q => .enquiry { q with cancelReq := true }
    | .none => .none
    | .tipSelect c => .tipSelect c }

end Sys2Proof.Machine
end

