-- ==== Sys2Proof/Machine/CloseOps.lean ====
section
/-! DEFINITION. Shared operations of the vehicle close at station 0 (R158 to R167), the print job list (R180) and the
record transfer (R185), and the moment a station becomes LINK_SILENT (R90, R91). -/
namespace Sys2Proof.Machine
open Sys2Proof

/-! ### Print jobs (R180) -/

/-- Jobs the list holds at most (R180). -/
def jobSize : Nat := 4

def Print.full (p : Print) : Bool := jobSize ≤ p.jobs.length

def State.addJob (s : State) (j : Job) : State := s.onPrint fun p => { p with jobs := p.jobs ++ [j] }

/-- The VEHICLE_REPORT is offered; refused with PRINT_FULL it waits for the next slot end (R162, R180). -/
def State.offerReport (s : State) : State :=
  if s.print.full then s.onClose fun c => { c with reportHeld := true }
  else (s.onClose fun c => { c with reportHeld := false }).addJob .vehicleReport

/-- A LATE_SLIP is offered; refused with PRINT_FULL it waits for the next slot end (R167). -/
def State.offerSlip (s : State) (a : Addr) : State :=
  if s.print.full then
    s.onClose fun c => { c with slipsHeld := if c.slipsHeld.contains a then c.slipsHeld else c.slipsHeld ++ [a] }
  else (s.onClose fun c => { c with slipsHeld := c.slipsHeld.erase a }).addJob (.lateSlip a)

/-! ### The vehicle close -/

/-- The row answers for completion: COMPLETE, or ABSENT in a forced close (R162). -/
def CloseRow.settled (r : CloseRow) (forced : Bool) : Bool :=
  !r.expected || r.st == .complete || (forced && r.st == .absent)

/-- The addresses whose rows are COMPLETE (R162). -/
def Close.completeAddrs (c : Close) : List Addr := allAddrs.filter fun a => (c.rows.get a).st == .complete

/-- The close ends in DONE (R162). -/
def State.closeDone (s : State) : State :=
  let c := s.close
  let copy : RowZero :=
    { acc := s.shift.acc, lost := s.shift.lost, openTime := s.shift.openTime, closeTime := s.clock.seconds
      reversals := s.pay.reversals }
  let s := (s.onClose fun c => { c with state := .done, collect := none, rowZero := some copy }).sendShift
    (.done c.forced c.number c.completeAddrs)
  ((s.closeShift (if c.forced then .forced else .normal)).onShift fun sh => { sh with closing := none }).offerReport

/-- The completion test of a close that is COLLECTING (R162). -/
def State.completionTest (s : State) : State :=
  if s.close.state = .collecting ∧ s.close.rows.toList.all fun r => r.settled s.close.forced then s.closeDone else s

/-- The sent report of SHIFT_CALL, or the moment that stands for it (R159): the collect time, row 0, the test. A SHIFT_CALL that
an earlier close left queued counts for the close that collects now (log entry 26). -/
def State.callSent (s : State) : State :=
  if s.close.state = .collecting ∧ s.close.collect.isNone then
    (s.onClose fun c => { c with
      collect := startTimer (sec 3)
      rows := c.rows.set 0 { c.rows.get 0 with st := .complete } }).completionTest
  else s

/-- The close is abandoned (R164). -/
def State.abandonClose (s : State) : State :=
  ((s.onClose fun c => { c with state := .abandoned, collect := none }).leaveClosing).sendShift
    (.abandon s.close.number)

/-- A new COLLECTING close over the given rows (R158, R166). -/
def State.startCollect (s : State) (rows : Quad CloseRow) (forced : Bool) : State :=
  ((s.onClose fun c => { c with
    state := .collecting, number := s.shift.number, driver := s.shift.driver, forced := forced
    rows := rows, rowZero := if forced then c.rowZero else none, collect := none }).onShift fun sh =>
      { sh with state := .closing }).sendShift (.call s.shift.number)

/-! ### The record transfer (R185) -/

/-- The open transfer ends complete or unavailable. -/
def State.endTransfer (s : State) (st : TransferState) : State :=
  s.onPrint fun p => { p with transfer := p.transfer.map fun t => { t with st := st, limit := none, queryHeld := false } }

/-- A transfer that is open ends as unavailable (R185). -/
def State.loseTransfer (s : State) : State :=
  match s.print.transfer with
  | some t => if t.st = .opened then s.endTransfer .unavailable else s
  | none => s

/-! ### LINK_SILENT (R90, R91) -/

/-- The queue is emptied with no sent report, and nothing is offered any more (R91): no block holds a frame for re-offer, and
a summary or record under way, which nothing paces now, is over (log entry 42). -/
def State.silenceLink (s : State) : State :=
  ((((s.onLink fun l => { l with queue := [], repl := none, clash := true, pause := none }).onHire fun h =>
      { h with reply := none, event := none, objects := [], claimHeld := false }).onIntercom fun i =>
        { i with events := [] }).onShift fun sh =>
          { sh with held := [], tx := none, lateTx := none }).onPrint fun p => { p with serve := none }

/-- The open claim ends with LINK_SILENT (R23). -/
def State.silenceClaim (s : State) : State :=
  match s.hire.slot with
  | .claiming c => s.endClaim c .linkSilent
  | .free => s
  | .hired _ => s
  | .stopped _ => s
  | .paying _ => s

/-- The clash flag is set and the station becomes LINK_SILENT (R90, R91, R23, R104, R159, R185). -/
def State.clashNow (s : State) : State :=
  if s.silent then s
  else (((s.silenceLink.silenceClaim).onDistress fun d => { d with period := none }).loseTransfer).callSent

/-! ### Frames received -/

/-- A good frame from another station: the fairness count is 0 and a pause ends (R80). -/
def State.heardFrame (s : State) : State := s.onLink fun l => { l with fairness := 0, pause := none }

/-- A frame that no block takes has been on the line: a fairness pause is no longer a wait on an idle line, and is served
again at the next idle (R77, R80). -/
def State.cutPause (s : State) : State := s.onLink fun l => { l with pause := none }

/-- A good frame completes (R76): it is taken once the line has been seen idle (R73, R83), and one with the own address
that the station did not send is an address clash and goes to no block (R90). -/
def State.hear (s : State) (sender : Addr) (f : State → State) : State :=
  if s.link.synced then
    if sender = s.addr then s.heardFrame.clashNow else f s.heardFrame
  else s

/-- A good frame taken as one whole event. -/
def frameEvent (sender : Addr) (f : State → State) (s : State) : Host.Outcome State Fault Refusal :=
  event (fun s => s.hear sender f) s

/-- A local command has been taken by station 0's own blocks (log entry 15). -/
def State.markHanded (s : State) (seq : Nat) : State :=
  s.onConsole fun c => { c with cmds := c.cmds.set 0 ((c.cmds.get 0).map fun p =>
    if p.seq = seq then { p with handed := true } else p) }

/-- What a station does with a command, by its source (R5): a local command at station 0, or a COMMAND frame from
sender 0 whose target is this seat station. -/
def State.command (s : State) (src : Source) (seq : Nat) (f : State → State) : State :=
  match src with
  | .localKey => if s.isConsole then f (s.markHanded seq) else s
  | .frame sender target =>
    s.hear sender fun s => if sender = 0 ∧ !s.isConsole ∧ target = s.addr then f s else s

/-- A command taken whole (R5). -/
def commandEvent (src : Source) (seq : Nat) (f : State → State) (s : State) : Host.Outcome State Fault Refusal :=
  event (fun s => s.command src seq f) s

/-- A frame that only a seat station takes, and from sender 0 (R149, R186). -/
def State.fromConsole (s : State) (sender : Addr) (f : State → State) : State :=
  if sender = 0 ∧ !s.isConsole then f s else s

/-- A frame that only station 0 takes. -/
def State.atConsole (s : State) (f : State → State) : State := if s.isConsole then f s else s

end Sys2Proof.Machine
end

