-- ==== Sys2Proof/Machine/Pulse.lean ====
section
/-! DEFINITION. The odometer, the slot end and the clock (chapter 3), with what a slot end does for the other blocks:
the fare engine (R28), the totals (R53, R54) and the frames awaiting re-offer (Table 5-4). -/
namespace Sys2Proof.Machine
open Sys2Proof

/-- ODOMETER_PULSE (R46, R28): the raw count saturates at 4095; the tally counts while HIRED. -/
def execOdometerPulse (s : State) : Host.Outcome State Fault Refusal :=
  event (fun s =>
    (s.onPulse fun p => { p with raw := min 4095 (p.raw + 1) }).onHire fun h => { h with
      tally := match h.slot with
        | .hired _ => h.tally + 1
        | _ => h.tally }) s

/-- The ring limit (R48, Table 3-1). -/
def State.ringLimit (s : State) : Nat :=
  match s.hire.slot.hire? with
  | some h => h.snap.pmax
  | none => (s.image.map fun im => pmaxOf im.k im.vmax).getD 500

/-- The slot is clamped: its raw count exceeds the ring limit (R49). -/
def State.slotClamped (s : State) : Bool := s.ringLimit < s.pulse.raw

/-- The pulse fault state after a slot end (R51, R52, Table 3-3). -/
def PulseFault.next (f : PulseFault) (clamped : Bool) : PulseFault :=
  match f with
  | .clear run => if clamped then (if 19 ≤ run then .raised 0 1 else .clear (run + 1)) else .clear 0
  | .raised clean tenths =>
    let tenths' := if 9 ≤ tenths then 0 else tenths + 1
    if clamped then .raised 0 tenths' else if 19 ≤ clean then .clear 0 else .raised (clean + 1) tenths'

/-- The fault as the fare engine sees it at a slot end, and the peer monitor from that slot end to the next: RAISED from
the one that raises it through the one that clears it (R51, R52). -/
def PulseFault.seenAt (f : PulseFault) (clamped : Bool) : Bool := f.isRaised || (f.next clamped).isRaised

/-- A fault second completes at the slot end (R53). -/
def PulseFault.second : PulseFault → Bool
  | .clear _ => false
  | .raised _ tenths => 9 ≤ tenths

/-- A SHIFT_REFUSE is re-offered only while what caused it stands (R160, log entry 40). -/
def State.standsHeld (s : State) : ShiftFrame → Bool
  | .refuse .number n => s.shift.state != .offShift && s.shift.number == n
  | .refuse .busy n =>
    s.shift.state == .onShift && s.shift.number == n && !(s.hire.slot.isFree && !s.pay.session.active)
  | .opened _ _ _ => true
  | .call _ => true
  | .done _ _ _ => true
  | .abandon _ => true

/-- The frames that the blocks hold for re-offer (Table 5-4, R6, R8, R11, R22, R110, R161, R185, R186). -/
def State.heldOffers (s : State) : List Offer :=
  (if s.hire.reply.isSome then [.reply] else [])
    ++ (if s.hire.claimHeld then [.claim] else [])
    ++ s.hire.objects.map .object
    ++ (if s.hire.event.isSome then [.hireEvent] else [])
    ++ s.intercom.events.map (fun _ => .intercom)
    ++ s.shift.held.map .shiftFrame
    ++ (if (s.shift.tx.map (·.held)).getD false then [.summary] else [])
    ++ (if (s.shift.lateTx.map (·.held)).getD false then [.lateSummary] else [])
    ++ (if (s.print.transfer.map (·.queryHeld)).getD false then [.recordQuery] else [])
    ++ (if (s.print.serve.map (·.held)).getD false then [.recordPart] else [])

/-- The re-offers of a slot end. -/
def State.reoffer (s : State) : State :=
  let s := s.onShift fun sh => { sh with held := sh.held.filter fun f => s.standsHeld f }
  s.heldOffers.foldl State.offer s

/-- The print jobs that wait for room are offered again (R167, R180). -/
def State.reofferJobs (s : State) : State :=
  let s := if s.close.reportHeld then s.offerReport else s
  s.close.slipsHeld.foldl State.offerSlip s

/-- The slot's count into the ring, the fault state, and the next slot (R47, R49 to R52). -/
def State.countSlot (s : State) : State :=
  let c := min s.pulse.raw s.ringLimit
  let clamped := s.slotClamped
  s.onPulse fun p => { p with
    raw := 0, ring := p.ring.drop 1 ++ [c], fault := p.fault.next clamped, seen := p.fault.seenAt clamped
    slot := startTimer (ms 100) }

/-- The totals of a slot end (R53, R54). -/
def Accum.addSlot (a : Accum) (c : Nat) (second : Bool) : Accum :=
  { a with totalPulses := satAdd top32 a.totalPulses c, faultSeconds := satAdd top32 a.faultSeconds (bitNat second) }

/-- One slot end in its order (R49). -/
def State.slotEnd (s : State) : State :=
  let c := min s.pulse.raw s.ringLimit
  let seen := s.pulse.fault.seenAt s.slotClamped
  let second := s.pulse.fault.second
  (((s.countSlot.fareSlotEnd seen).account fun a => a.addSlot c second).reoffer).reofferJobs

def State.takeSlotEnd (s : State) : State := if s.pulse.slot.isSome then s.slotEnd else s

/-- SLOT_END (R28, R49, R54). -/
def execSlotEnd (s : State) : Host.Outcome State Fault Refusal := event State.takeSlotEnd s

/-- PULSE_FAULT_RAISED (R51): the slot end that raises the fault (log entry 4). -/
def execPulseFaultRaised (s : State) : Host.Outcome State Fault Refusal :=
  event (fun s =>
    if !s.pulse.fault.isRaised ∧ (s.pulse.fault.next s.slotClamped).isRaised then s.takeSlotEnd else s) s

/-- PULSE_FAULT_CLEARED (R52): the slot end that clears the fault (log entry 4). -/
def execPulseFaultCleared (s : State) : Host.Outcome State Fault Refusal :=
  event (fun s =>
    if s.pulse.fault.isRaised ∧ !(s.pulse.fault.next s.slotClamped).isRaised then s.takeSlotEnd else s) s

/-- FAULT_SECOND (R53): the slot end at which the fault tenths reach 10 (log entry 4). -/
def execFaultSecond (s : State) : Host.Outcome State Fault Refusal :=
  event (fun s => if s.pulse.fault.second then s.takeSlotEnd else s) s

/-- The seconds value rises by 1 and holds at its top; the phase begins again (R56). -/
def Clock.second (c : Clock) : Clock := { c with seconds := min top32 (c.seconds + 1), phase := c.phase - 10000 }

/-- CLOCK_SECOND (R56): the clock runs in a stopped station as well, on backup. -/
def execClockSecond (s : State) : Host.Outcome State Fault Refusal := .next (s.onClock Clock.second)

end Sys2Proof.Machine
end

