-- ==== Sys2Proof/Machine/Card.lean ====
section
/-! DEFINITION. The events of the card link controller (R124 to R142): requests sent, ticks, replies and misses. -/
namespace Sys2Proof.Machine
open Sys2Proof

/-! ### Sending (R128, R130, R135, R140) -/

/-- The waiting PAY is sent with a newly allocated transaction number (R130, R135). -/
def State.sendPay (s : State) : State :=
  match s.pay.session with
  | .cardWait q =>
    if q.txn.isNone ∧ s.cardIdle then
      let txn := s.freeTxn 104 s.card.nextTxn
      let req : CardReq := .pay txn q.amount q.tip (s.card.currency.getD 0)
      ((s.onPay fun p => { p with session := .cardWait { q with txn := some txn }
                                  overall := startTimer (sec 90) }).onCard fun c =>
        { c with nextTxn := succTxn txn, missed := 0 }).sendCard req
    else s
  | .none => s
  | .tipSelect _ => s
  | .enquiry _ => s

/-- CARD_PAY_SEND (R128, R130, R135). -/
def execCardPaySend (s : State) : Host.Outcome State Fault Refusal := event State.sendPay s

/-- Mark the session's CANCEL as sent (R140). -/
def Session.cancelIsSent : Session → Session
  | .cardWait q => .cardWait { q with cancelSent := true }
  | .enquiry q => .enquiry { q with cancelSent := true }
  | .none => .none
  | .tipSelect c => .tipSelect c

/-- The requested CANCEL is sent, once per session (R140). -/
def State.sendCancel (s : State) : State :=
  if s.cancelWaiting ∧ s.cardIdle then
    (s.onPay fun p => { p with session := p.session.cancelIsSent }).sendCard
      (.cancel ((s.pay.session.card?.bind (·.txn)).getD 0))
  else s

/-- CARD_CANCEL_SEND (R128, R140). -/
def execCardCancelSend (s : State) : Host.Outcome State Fault Refusal := event State.sendCancel s

/-- What a tick sends with no request outstanding and none waiting (R128). -/
def State.tickRequest (s : State) : Option CardReq :=
  match s.pay.session with
  | .enquiry q => some (.enquire (q.txn.getD 0))
  | .cardWait _ => none
  | .none => some (match s.pay.reversals with
    | r :: _ => .reverse r.txn r.amount
    | [] => .poll)
  | .tipSelect _ => some (match s.pay.reversals with
    | r :: _ => .reverse r.txn r.amount
    | [] => .poll)

def State.takeTick (s : State) : State :=
  if s.card.poll.isSome then
    let s := s.onCard fun c => { c with poll := startTimer c.pollInterval }
    if s.cardIdle ∧ !s.payWaiting ∧ !s.cancelWaiting then
      match s.tickRequest with
      | some q => s.sendCard q
      | none => s
    else s
  else s

/-- POLL_TICK (R128). -/
def execPollTick (s : State) : Host.Outcome State Fault Refusal := event State.takeTick s

/-- The last check byte has left the station: the response limit starts (R125). -/
def State.requestSent (s : State) : State :=
  match s.card.out with
  | some o =>
    if o.sent then s
    else s.onCard fun c => { c with out := some { o with sent := true, timer := startTimer c.respLimit } }
  | none => s

/-- CARD_REQUEST_SENT (R125, R127). -/
def execCardRequestSent (s : State) : Host.Outcome State Fault Refusal := event State.requestSent s

/-! ### Frames of the module (R124, R127, R136, R142) -/

/-- A valid frame is received: the receiver scans again; a station with no module takes nothing (R124, R126). -/
def cardEvent (f : State → State) (s : State) : Host.Outcome State Fault Refusal :=
  event (fun s =>
    if s.card.moduleState = .notFitted then s else f (s.onCard fun c => { c with rxOpen := false })) s

/-- Any valid frame other than a STATUS finds the module again (R124). -/
def State.moduleFound (s : State) : State :=
  s.onCard fun c => { c with moduleState := match c.moduleState with
    | .unknown => .ready
    | .absent => .ready
    | .notFitted => .notFitted
    | .ready => .ready
    | .cardWait => .cardWait
    | .processing => .processing
    | .outOfService => .outOfService }

def moduleOf : CardStatus → ModuleState
  | .ready => .ready
  | .cardWait => .cardWait
  | .processing => .processing
  | .outOfService => .outOfService

/-- The request outstanding now: its last byte has left (R127). -/
def Card.outstanding (c : Card) : Option CardReq :=
  c.out.bind fun o => if o.sent then some o.req else none

def CardReq.ofSession : CardReq → Bool
  | .pay _ _ _ _ => true
  | .enquire _ => true
  | .cancel _ => true
  | .poll => false
  | .reverse _ _ => false

/-- The outstanding request is the session's, with this transaction number (R127, R138). -/
def Card.awaits (c : Card) (txn : Nat) : Bool :=
  match c.outstanding with
  | some q => q.ofSession && q.txn == txn
  | none => false

/-- An answer ends the request and sets the missed count to 0 (R127). -/
def State.answered (s : State) : State := s.onCard fun c => { c with out := none, missed := 0 }

/-- A STATUS that answers the session's request (R136). -/
def State.sessionEnquires (s : State) : State :=
  match s.pay.session.card? with
  | some q => s.toEnquiry q
  | none => s

def State.takeStatus (s : State) (txn : Nat) (st : CardStatus) : State :=
  let s := s.onCard fun c => { c with moduleState := moduleOf st }
  if s.card.outstanding = some .poll then s.answered
  else if s.card.awaits txn then s.answered.sessionEnquires
  else s

/-- STATUS (R124, R127, R136). -/
def execStatus (txn : Nat) (st : CardStatus) (s : State) : Host.Outcome State Fault Refusal :=
  cardEvent (fun s => s.takeStatus txn st) s

/-- The approval of Table 8-3: a CARD tender, DECLINED, or in doubt. -/
def State.approve (s : State) (q : CardSession) (a scheme lastFour : Nat) (auth : List Nat) : State :=
  if a = 0 then s.endWith .declined
  else if q.amount < a then s.inDoubt q
  else
    ((s.hireChanged.applyTender (.card a (q.txn.getD 0) scheme lastFour auth)).endWith
      (if a = q.amount then .approved else .partApproved (q.amount - a)))

/-- A RESULT for the session (R137, Table 8-3). -/
def State.sessionResult (s : State) (q : CardSession) (o : CardOutcome) (a scheme lastFour : Nat) (auth : List Nat) :
    State :=
  match o with
  | .approved => s.approve q a scheme lastFour auth
  | .partApproved => s.approve q a scheme lastFour auth
  | .declined => s.endWith .declined
  | .cancelled => s.endWith .cancelled
  | .cardError => s.endWith .cardError
  | .refused => s.endWith .refused

def State.takeResult (s : State) (txn : Nat) (o : CardOutcome) (a scheme lastFour : Nat) (auth : List Nat) : State :=
  let s := s.moduleFound
  if s.card.awaits txn then
    match s.pay.session.card? with
    | some q => s.answered.sessionResult q o a scheme lastFour auth
    | none => s.answered
  else s

/-- RESULT (R127, R137, R138). -/
def execResult (txn : Nat) (outcome : CardOutcome) (approved scheme lastFour : Nat) (auth : List Nat) (s : State) :
    Host.Outcome State Fault Refusal :=
  cardEvent (fun s => s.takeResult txn outcome approved scheme lastFour auth) s

/-- The reversal entry is removed (R141, R142). -/
def State.dropReversal (s : State) (txn : Nat) : State :=
  s.onPay fun p => { p with reversals := p.reversals.filter fun r => r.txn != txn }

/-- The outstanding request is a REVERSE of this transaction (R127). -/
def Card.reverses (c : Card) (txn : Nat) : Bool :=
  match c.outstanding with
  | some (.reverse t _) => t == txn
  | _ => false

def State.takeNotFound (s : State) (txn : Nat) : State :=
  let s := s.moduleFound
  if s.card.reverses txn then s.answered.dropReversal txn
  else if s.card.awaits txn then
    if s.pay.session.card?.isSome then s.answered.endWith .notCompleted else s.answered
  else s

/-- NOT_FOUND (R127, R136, R142). -/
def execNotFound (txn : Nat) (s : State) : Host.Outcome State Fault Refusal :=
  cardEvent (fun s => s.takeNotFound txn) s

def State.takeReversed (s : State) (txn : Nat) : State :=
  let s := s.moduleFound
  if s.card.reverses txn then s.answered.dropReversal txn else s

/-- REVERSED (R127, R142). -/
def execReversed (txn : Nat) (s : State) : Host.Outcome State Fault Refusal :=
  cardEvent (fun s => s.takeReversed txn) s

/-! ### Misses (R127, R129, R139, R142) -/

/-- A missed POLL or REVERSE: at a missed count of 3 the module is ABSENT (R129), and again at each miss beyond (log
entry 48). -/
def State.missIdle (s : State) : State :=
  s.onCard fun c => { c with
    out := none, missed := c.missed + 1
    moduleState := if 3 ≤ c.missed + 1 then .absent else c.moduleState }

/-- The entry's attempt count rises, saturating at 255 (R142). -/
def State.countAttempt (s : State) (txn : Nat) : State :=
  s.onPay fun p => { p with reversals := p.reversals.map fun r =>
    if r.txn = txn then { r with attempts := min 255 (r.attempts + 1) } else r }

/-- A missed PAY, ENQUIRE or CANCEL: ENQUIRY, or in doubt at a missed count of 3 (R139). -/
def State.missSession (s : State) : State :=
  let s := s.onCard fun c => { c with out := none, missed := c.missed + 1 }
  match s.pay.session.card? with
  | some q => if 3 ≤ s.card.missed then s.inDoubt q else s.toEnquiry q
  | none => s

/-- The response limit of the outstanding request expires (R127). -/
def State.takeMiss (s : State) : State :=
  match s.card.outstanding with
  | some .poll => s.missIdle
  | some (.reverse txn _) => s.missIdle.countAttempt txn
  | some (.pay _ _ _ _) => s.missSession
  | some (.enquire _) => s.missSession
  | some (.cancel _) => s.missSession
  | none => s

/-- CARD_RESPONSE_EXPIRY (R127, R129, R139, R142). -/
def execCardResponseExpiry (s : State) : Host.Outcome State Fault Refusal := event State.takeMiss s

/-- The outstanding request is the session's (R139). -/
def State.missIsSession (s : State) : Bool := (s.card.outstanding.map CardReq.ofSession).getD false

/-- MODULE_ABSENT (R129): the miss of a POLL or REVERSE at which the missed count reaches 3 (log entry 4). -/
def execModuleAbsent (s : State) : Host.Outcome State Fault Refusal :=
  event (fun s =>
    if s.card.outstanding.isSome ∧ !s.missIsSession ∧ s.card.missed = 2 then s.takeMiss else s) s

/-- TRANSACTION_IN_DOUBT (R139): the miss in a session at which the missed count reaches 3 (log entry 4). -/
def execTransactionInDoubt (s : State) : Host.Outcome State Fault Refusal :=
  event (fun s => if s.missIsSession ∧ s.card.missed = 2 then s.takeMiss else s) s

/-- CARD_FRAME_TRUNCATED (R126): the frame is discarded; a late byte is taken as a start byte if it is 02h. -/
def execCardFrameTruncated (late : Option Byte) (s : State) : Host.Outcome State Fault Refusal :=
  event (fun s =>
    if s.card.moduleState = .notFitted then s else s.onCard fun c => { c with rxOpen := late == some 2#8 }) s

end Sys2Proof.Machine
end

