-- ==== Sys2Proof/Machine/Intercom.lean ====
section
/-! DEFINITION. The commands and events of the intercom controller (chapter 7): CONNECT to LISTEN_END, intercom events,
TALK and ANNOUNCE at station 0, the CALL button, and the timers of talk, call and prompt. -/
namespace Sys2Proof.Machine
open Sys2Proof

/-! ### Intercom commands (R114, R118) -/

/-- Station 0 has taken CONNECT at its own end: its talk is with itself, HELD under a prompt, and it is no caller any more
(R113). -/
def State.openOwnTalk (s : State) : State :=
  (s.dropCaller 0).onIntercom fun i => { i with
    talk := match i.endState with
      | .held _ => .held 0
      | _ => .talk 0
    talkTimer := startTimer talkTime }

/-- A CONNECT of station 0's own end refused by privacy: the driver display shows it (R113). -/
def State.showRefusal (s : State) (src : Source) : State :=
  if src = .localKey then s.onConsole fun c => { c with message := some .privacyRefused } else s

def State.takeConnect (s : State) (src : Source) (seq : Nat) : State :=
  if s.hire.slot.privacy then (s.refuse src seq .privacy).showRefusal src
  else
    let s := s.connectEnd
    let s := if src = .localKey ∧ s.intercom.talk = .none then s.openOwnTalk else s
    s.replyTo src seq .done

/-- CONNECT (R114). -/
def execConnect (src : Source) (seq : Nat) (s : State) : Host.Outcome State Fault Refusal :=
  commandEvent src seq (fun s => s.takeConnect src seq) s

/-- DISCONNECT (R114). -/
def execDisconnect (src : Source) (seq : Nat) (s : State) : Host.Outcome State Fault Refusal :=
  commandEvent src seq (fun s => s.disconnectEnd.replyTo src seq .done) s

/-- LISTEN (R118). -/
def execListen (src : Source) (seq : Nat) (s : State) : Host.Outcome State Fault Refusal :=
  commandEvent src seq (fun s => s.listenEnd.replyTo src seq .done) s

/-- LISTEN_END (R118). -/
def execListenEnd (src : Source) (seq : Nat) (s : State) : Host.Outcome State Fault Refusal :=
  commandEvent src seq (fun s => s.listenEndEnd.replyTo src seq .done) s

/-! ### The call queue and the events of seats (R111, R112, R115) -/

/-- Entries of the call queue at most, and the time an entry stands (R111). -/
def callSize : Nat := 4

def callTime : Nat := sec 30

/-- A call joins the queue (R111). -/
def Intercom.addCall (i : Intercom) (a : Addr) : Intercom :=
  if i.talk.partner = some a then i
  else if i.queue.any fun e => e.addr == a then
    { i with queue := i.queue.map fun e => if e.addr = a then { e with left := callTime } else e }
  else if callSize ≤ i.queue.length then i
  else { i with queue := i.queue ++ [{ addr := a, left := callTime }] }

/-- CALL_EVENT (R111). -/
def execCallEvent (sender : Addr) (s : State) : Host.Outcome State Fault Refusal :=
  frameEvent sender (fun s => s.atConsole fun s => s.onIntercom fun i => i.addCall sender) s

/-- CALL_WITHDRAW_EVENT (R111, R115). -/
def execCallWithdrawEvent (sender : Addr) (s : State) : Host.Outcome State Fault Refusal :=
  frameEvent sender (fun s => s.atConsole fun s => (s.dropCaller sender).endTalkWith sender false) s

/-- SPEAKER_HELD_EVENT (R112). -/
def execSpeakerHeldEvent (sender : Addr) (s : State) : Host.Outcome State Fault Refusal :=
  frameEvent sender (fun s => s.atConsole fun s => s.talkHeld sender) s

/-- SPEAKER_FREE_EVENT (R112). -/
def execSpeakerFreeEvent (sender : Addr) (s : State) : Host.Outcome State Fault Refusal :=
  frameEvent sender (fun s => s.atConsole fun s => s.talkFreed sender) s

/-- The privacy indication of a seat (R177). -/
def State.showPrivacy (s : State) (a : Addr) (on : Bool) : State :=
  s.onConsole fun c => { c with privacyInd := c.privacyInd.set a on }

/-- PRIVACY_ON_EVENT (R111, R115, R177). -/
def execPrivacyOnEvent (sender : Addr) (s : State) : Host.Outcome State Fault Refusal :=
  frameEvent sender
    (fun s => s.atConsole fun s => ((s.showPrivacy sender true).dropCaller sender).endTalkWith sender false) s

/-- PRIVACY_OFF_EVENT (R177). -/
def execPrivacyOffEvent (sender : Addr) (s : State) : Host.Outcome State Fault Refusal :=
  frameEvent sender (fun s => s.atConsole fun s => s.showPrivacy sender false) s

/-! ### The CALL button (R109, R119) -/

/-- A call is made: CALLING with its timer, and CALL or, at station 0, the own call queue (R109). -/
def State.startCall (s : State) : State :=
  let s := s.onIntercom fun i => { i with endState := .calling, callTimer := startTimer callTime }
  if s.isConsole then s.onIntercom fun i => i.addCall 0 else s.sayEvent .call

/-- The passenger leaves a call or a talk: CALL_WITHDRAW, or at station 0 the own entry and the own talk (R109). -/
def State.withdrawCall (s : State) : State :=
  let s := s.idleEnd
  if s.isConsole then (s.dropCaller 0).endTalkWith 0 false else s.sayEvent .callWithdraw

def State.shortPress (s : State) : State :=
  match s.intercom.endState with
  | .idle =>
    if s.hire.slot.privacy then s else s.startCall
  | .calling => s.withdrawCall
  | .connected => s.withdrawCall
  | .listen => s
  | .held _ => s

/-- A button press is taken at all: the straps show passenger buttons (R109, R121). -/
def State.withButtons (s : State) (f : State → State) : State := if s.straps.buttons then f s else s

/-- The time that makes a press long (R119). -/
def longPress : Nat := sec 2

/-- CALL_PRESSED (R119): the count begins that decides between a short and a long press. -/
def execCallPressed (s : State) : Host.Outcome State Fault Refusal :=
  event (fun s => s.withButtons fun s => s.onIntercom fun i => { i with press := startTimer longPress }) s

/-- The press that is being counted is over, and is taken as `f` (R109, R119). -/
def State.takePress (s : State) (f : State → State) : State :=
  if s.straps.buttons ∧ s.intercom.press.isSome then f (s.onIntercom fun i => { i with press := none }) else s

/-- CALL_SHORT_PRESS (R109): CALL released before 2 s have passed. -/
def execCallShortPress (s : State) : Host.Outcome State Fault Refusal :=
  event (fun s => s.takePress State.shortPress) s

/-- Set or clear the privacy flag of the hire record (R4). -/
def State.setPrivacy (s : State) (on : Bool) : State :=
  s.onHire fun h => { h with slot := h.slot.mapHire fun x => x.mapRec fun r => { r with privacy := on } }

/-- The end leaves a call or a talk when privacy is set (R119). -/
def State.privacyEnd (s : State) : State :=
  let s' := match s.intercom.endState with
    | .calling => s.idleEnd
    | .connected => s.idleEnd
    | .held .connected => s.idleEnd
    | .idle => s
    | .listen => s
    | .held .listen => s
  if s'.isConsole then (s'.dropCaller 0).endTalkWith 0 false else s'

def State.longPressed (s : State) : State :=
  match s.hire.slot.hire? with
  | none => s
  | some h =>
    if h.rc.privacy then (s.setPrivacy false).sayEvent .privacyOff
    else (s.setPrivacy true).privacyEnd.sayEvent .privacyOn

/-- CALL_LONG_PRESS (R119, R4): CALL held for 2 s toggles privacy; the release that follows does nothing. -/
def execCallLongPress (s : State) : Host.Outcome State Fault Refusal :=
  event (fun s => s.takePress State.longPressed) s

/-- CALL_TIMER_EXPIRY (R109): the end returns to IDLE and offers nothing. -/
def execCallTimerExpiry (s : State) : Host.Outcome State Fault Refusal :=
  event (fun s => if s.intercom.endState = .calling ∧ s.intercom.callTimer.isSome then s.idleEnd else s) s

/-- QUEUE_ENTRY_EXPIRY (R111). -/
def execQueueEntryExpiry (a : Addr) (s : State) : Host.Outcome State Fault Refusal :=
  event (fun s => s.dropCaller a) s

/-! ### TALK (R113) -/

/-- Station 0 opens a talk with a target: CONNECT is formed, and at its own end taken at once, where privacy may refuse it
(R113, R176, log entry 16). -/
def State.openTalk (s : State) (t : Addr) : State :=
  if t = 0 then (s.formCommand 0 .connect).takeConnect .localKey s.console.nextSeq
  else
    ((s.dropCaller t).onIntercom fun i => { i with
      talk := .talk t, talkTimer := startTimer talkTime }).formCommand t .connect

/-- TALK toward a target: refused with WAIT while a command is pending or deferred for it (R176). -/
def State.talkTo (s : State) (t : Addr) : State :=
  if s.console.ready t then s.openTalk t
  else s.onConsole fun c => { c with message := some (.wait t) }

def State.takeTalk (s : State) : State :=
  match s.intercom.talk with
  | .announce => s
  | .talk _ => s.endTalk true
  | .held _ => s.endTalk true
  | .none =>
    match s.intercom.queue with
    | e :: _ => s.talkTo e.addr
    | [] =>
      let t := s.console.selected
      if t ≠ 0 ∧ !(s.peer.rows.get t).present then
        s.onConsole fun c => { c with message := some (.stationAbsent t) }
      else s.talkTo t

/-- TALK_TIMER_EXPIRY (R115, R116). -/
def execTalkTimerExpiry (s : State) : Host.Outcome State Fault Refusal :=
  event (fun s => if s.intercom.talkTimer.isSome then s.endTalk true else s) s

/-- END_TALK_TIMER_EXPIRY (R116): the timer of an end that is HELD stands still. -/
def execEndTalkTimerExpiry (s : State) : Host.Outcome State Fault Refusal :=
  event (fun s =>
    match s.intercom.endState with
    | .connected => s.idleEnd
    | .listen => s.idleEnd
    | .idle => s
    | .calling => s
    | .held _ => s) s

/-! ### ANNOUNCE (R117) -/

/-- LISTEN falls due for one end of the announce; an end whose LISTEN is not deferred has been offered it (R117). -/
def State.offerListen (s : State) (t : Addr) : State :=
  let now := s.console.ready t
  let s := s.dueCommand t .listen
  if now then s.onIntercom fun i => { i with announced := i.announced ++ [t] } else s

/-- ANNOUNCE is pressed (R117): LISTEN falls due at the own end, then at the present seats by ascending address, each taking the
next sequence number (log entry 61). -/
def State.takeAnnounce (s : State) : State :=
  match s.intercom.talk with
  | .none =>
    let seats := seatAddrs.filter fun a => (s.peer.rows.get a).present
    let s := (s.onIntercom fun i => { i with
      talk := .announce, announceTimer := startTimer talkTime, listenSet := seats, announced := [] })
    (0 :: seats).foldl State.offerListen s
  | .talk _ => s.onConsole fun c => { c with message := some .talkOpen }
  | .held _ => s.onConsole fun c => { c with message := some .talkOpen }
  | .announce => s

/-- The announce is over for one end: LISTEN_END where LISTEN was offered, and a deferred LISTEN discarded (R117,
R176). -/
def State.endListen (s : State) (t : Addr) : State :=
  if s.intercom.announced.contains t then s.dueCommand t .listenEnd
  else s.onConsole fun c => { c with deferred := c.deferred.set t ((c.deferred.get t).filter (· ≠ .listen)) }

/-- The announce ends, at the seats of the listen set by ascending address, then at station 0's own end (R117, log entry 61). -/
def State.endAnnounce (s : State) : State :=
  if s.intercom.talk = .announce then
    ((s.intercom.listenSet ++ [0]).foldl State.endListen s).onIntercom fun i =>
      { i with talk := .none, announceTimer := none, listenSet := [], announced := [] }
  else s

/-- ANNOUNCE_RELEASE (R117); it is taken in LOW too, where no key is (log entry 53). -/
def execAnnounceRelease (s : State) : Host.Outcome State Fault Refusal :=
  event (fun s => s.atConsole State.endAnnounce) s

/-- ANNOUNCE_TIMER_EXPIRY (R117). -/
def execAnnounceTimerExpiry (s : State) : Host.Outcome State Fault Refusal :=
  event (fun s => if s.intercom.announceTimer.isSome then s.endAnnounce else s) s

/-! ### After a start, and the prompt -/

/-- STARTUP_CALL_WITHDRAW (R123): once the line has been seen idle, a seat offers one CALL_WITHDRAW. -/
def execStartupCallWithdraw (s : State) : Host.Outcome State Fault Refusal :=
  event (fun s =>
    if s.intercom.withdrawDue ∧ s.link.synced then
      (s.onIntercom fun i => { i with withdrawDue := false }).sayEvent .callWithdraw
    else s) s

/-- PROMPT_RELEASE (R120, R143). -/
def execPromptRelease (s : State) : Host.Outcome State Fault Refusal :=
  event (fun s => if s.intercom.promptTimer.isSome then s.releasePrompt else s) s

end Sys2Proof.Machine
end

