-- ==== Sys2Proof/Machine/Record.lean ====
section
/-! DEFINITION. The record form (R199, Table 12-5): how a seat codes a log record into parts, how station 0 reads the
assembled parts, and the items of a receipt (R184). -/
namespace Sys2Proof.Machine
open Sys2Proof

/-! ### Coding (Table 12-5) -/

def Tender.kindCode : Tender → Nat
  | .cash _ _ _ => 1
  | .card _ _ _ _ _ => 2
  | .account _ _ _ => 3

def HireRecord.isCancelled (r : HireRecord) : Bool := r.outcome == some .cancelled

def minuteOf (seconds : Nat) : Nat := seconds / 60

/-- The status byte. -/
def HireRecord.statusByte (r : HireRecord) : Byte :=
  u8 (r.kind.code + 2 * (r.bandIdx % 4) + 8 * ((r.outcome.map HireOutcome.code).getD 0) + 32 * r.rounding.getD 0
    + 64 * bitNat r.tip.isSome + 128 * bitNat r.capped)

/-- The list byte. -/
def HireRecord.listByte (r : HireRecord) : Byte :=
  u8 (bitNat r.conflict + 2 * bitNat r.powerGap + 4 * bitNat r.pulseFault + 8 * (r.extras.length % 8)
    + 64 * (r.tenders.length % 4))

/-- Two bits a tender, from bit 0. -/
def kindsNat : List Tender → Nat
  | [] => 0
  | t :: ts => t.kindCode + 4 * kindsNat ts

/-- The scheme in bits 39 to 36 and six authorisation characters of 6 bits, whose codes are free values
(log entry 8). -/
def authNat (scheme : Nat) (auth : List Nat) : Nat :=
  ((List.range 6).map fun i => auth.getD i 32).foldl (fun n c => n * 64 + (Config.authCode c).toNat) (scheme % 16)

def be40 (n : Nat) : List Byte := u8 (n / 4294967296) :: be32 n

/-- One tender of the form. -/
def Tender.form : Tender → List Byte
  | .cash a _ c => vBytes a ++ vBytes c
  | .card a _ scheme four auth => vBytes a ++ bcdBytes (decimalDigits 4 four) ++ be40 (authNat scheme auth)
  | .account a digits number => vBytes a ++ [u8 digits] ++ bcdBytes (decimalDigits 8 number)

/-- The record form, cut at 54 bytes (R199). A start minute above 16 777 215 is carried by its low 24 bits
(log entry 59). -/
def HireRecord.form (r : HireRecord) : List Byte :=
  let start := minuteOf r.start
  let stop := minuteOf (r.stop.getD 0)
  let close := minuteOf (r.close.getD 0)
  let whole :=
    vBytes r.shiftNo ++ [r.statusByte, r.listByte, u8 (kindsNat r.tenders)] ++ be24 start
      ++ (if r.isCancelled then [] else vBytes (stop - start))
      ++ vBytes (if r.isCancelled then close - start else close - stop)
      ++ vBytes (r.paidDistance.getD 0) ++ vBytes (r.hiredSeconds.getD 0)
      ++ vBytes r.flagFall ++ vBytes r.distCharge ++ vBytes r.timeCharge
      ++ (if r.isCancelled then [] else vBytes (r.topUp.getD 0))
      ++ (match r.tip with
        | some t => vBytes t
        | none => [])
      ++ vBytes r.undiscounted
      ++ (if r.powerGap then vBytes r.gapSeconds else [])
      ++ r.tenders.flatMap Tender.form
      ++ r.extras.flatMap fun e => u8 e.1 :: vBytes e.2
  whole.take 54

/-- The parts of a record: 9 bytes each, the last with what remains (R199). -/
def HireRecord.parts (r : HireRecord) : List (List Byte) := chunks 9 6 r.form

/-! ### Reading -/

/-- The items of the form, in its order. `entry k i j` is item `j` of tender (k = 0) or extra (k = 1) number `i`. -/
inductive Item
  | shiftNo | status | list | kinds | start | stopOffset | closeOffset | distance | seconds
  | flagFall | distCharge | timeCharge | topUp | tip | undiscounted | gap
  | entry (k i j : Nat)
  deriving DecidableEq, Repr

/-- How an item is carried: in the V form, or in `n` bytes. -/
inductive Width | v | bytes (n : Nat)
  deriving DecidableEq, Repr

/-- Items read in order as far as the data goes. -/
def readItems : List (Item × Width) → List Byte → List (Item × Nat) × List Byte
  | [], bs => ([], bs)
  | (x, w) :: xs, bs =>
    match (match w with
      | .v => vRead 0 bs
      | .bytes n => natRead n bs) with
    | some (val, rest) =>
      let r := readItems xs rest
      ((x, val) :: r.1, r.2)
    | none => ([], [])

def itemsHead : List (Item × Width) :=
  [(.shiftNo, .v), (.status, .bytes 1), (.list, .bytes 1), (.kinds, .bytes 1)]

/-- The items of one tender by its kind; kind 0, which Table 12-5 does not define, has none (log entry 64). -/
def itemsTender (i kind : Nat) : List (Item × Width) :=
  match kind with
  | 1 => [(.entry 0 i 0, .v), (.entry 0 i 1, .v)]
  | 2 => [(.entry 0 i 0, .v), (.entry 0 i 1, .bytes 2), (.entry 0 i 2, .bytes 5)]
  | 3 => [(.entry 0 i 0, .v), (.entry 0 i 1, .bytes 1), (.entry 0 i 2, .bytes 4)]
  | _ => []

/-- The items that follow the first four, by the status, list and kinds bytes. -/
def itemsBody (status list kinds : Nat) : List (Item × Width) :=
  let cancelled : Bool := status / 8 % 4 == 3
  [(.start, .bytes 3)]
    ++ (if cancelled then [] else [(.stopOffset, .v)])
    ++ [(.closeOffset, .v), (.distance, .v), (.seconds, .v), (.flagFall, .v), (.distCharge, .v), (.timeCharge, .v)]
    ++ (if cancelled then [] else [(.topUp, .v)])
    ++ (if status / 64 % 2 = 1 then [(.tip, .v)] else [])
    ++ [(.undiscounted, .v)]
    ++ (if list / 2 % 2 = 1 then [(.gap, .v)] else [])
    ++ (List.range (list / 64 % 4)).flatMap (fun i => itemsTender i (kinds / 4 ^ i % 4))
    ++ (List.range (list / 8 % 8)).flatMap fun i => [(.entry 1 i 0, .bytes 1), (.entry 1 i 1, .v)]

def itemOf (x : Item) (items : List (Item × Nat)) : Option Nat := (items.find? fun e => e.1 == x).map (·.2)

/-- What a form tells, item by item, and whether it stands whole. -/
structure FormData where
  items : List (Item × Nat)
  whole : Bool
  deriving DecidableEq, Repr

/-- Read a form (R199). -/
def readForm (bs : List Byte) : FormData :=
  let head := readItems itemsHead bs
  match itemOf .status head.1, itemOf .list head.1, itemOf .kinds head.1 with
  | some status, some list, some kinds =>
    let spec := itemsBody status list kinds
    let body := readItems spec head.2
    { items := head.1 ++ body.1, whole := body.1.length == spec.length }
  | _, _, _ => { items := head.1, whole := false }

/-! ### Receipts (R184) -/

/-- What a receipt prints; `minutes`: the times of its heading are minutes, not seconds (R199). -/
structure Receipt where
  minutes    : Bool
  heading    : List Nat
  distance   : Option Nat
  seconds    : Option Nat
  flagFall   : Option Nat
  distCharge : Option Nat
  timeCharge : Option Nat
  rounding   : Option Nat
  topUp      : Option Nat
  extras     : List (Nat × Nat)
  due        : Option Nat
  tip        : Option Nat
  tenders    : List (PrintLabel × List Nat)
  outcome    : Option Nat
  unpaid     : Option Nat
  saving     : Option Nat
  conflict   : Bool
  powerGap   : Bool
  pulseFault : Bool
  capped     : Bool
  gap        : Option Nat
  shortened  : Bool
  deriving DecidableEq, Repr

/-- A line for a value that is there. -/
def lineFor (l : PrintLabel) : Option Nat → List (PrintLabel × List Nat)
  | some n => [(l, [n])]
  | none => []

def lineIf (l : PrintLabel) (vals : List Nat) (b : Bool) : List (PrintLabel × List Nat) := if b then [(l, vals)] else []

/-- The rest of a heading, with its times in seconds, or to the minute for a seat (R184, R199). -/
def Receipt.head (r : Receipt) : PrintLabel × List Nat :=
  (if r.minutes then .headingRestMinutes else .headingRest, r.heading)

/-- The lines of a receipt after its heading, in the order of R184. -/
def Receipt.lines (r : Receipt) : List (PrintLabel × List Nat) :=
  lineFor .paidDistance r.distance ++ lineFor .hiredTime r.seconds ++ lineFor .flagFall r.flagFall
    ++ lineFor .distanceCharge r.distCharge ++ lineFor .timeCharge r.timeCharge ++ lineFor .rounding r.rounding
    ++ lineFor .topUp r.topUp ++ r.extras.map (fun e => (.extra, [e.1, e.2])) ++ lineFor .due r.due
    ++ lineFor .tip r.tip ++ r.tenders ++ lineFor .outcome r.outcome ++ lineFor .unpaid r.unpaid
    ++ lineFor .saving r.saving ++ lineIf .flagConflict [] r.conflict
    ++ lineIf .flagPowerGap r.gap.toList r.powerGap ++ lineIf .flagPulseFault [] r.pulseFault
    ++ lineIf .flagCapped [] r.capped ++ lineIf .recordShortened [] r.shortened

/-- The values of a heading that are there, each after its place in the heading of R184. -/
def headingValues (vals : List (Option Nat)) : List Nat :=
  vals.zipIdx.flatMap fun e => match e.1 with
    | some v => [e.2, v]
    | none => []

def Tender.line : Tender → PrintLabel × List Nat
  | .cash a t c => (.tenderCash, [a, t, c])
  | .card a _ scheme four auth => (.tenderCard, [a, scheme, four] ++ auth)
  | .account a digits number => (.tenderAccount, [a, digits, number])

/-- The receipt of a record of station 0's own log; a hire that never stopped has no stop time (log entry 51). -/
def HireRecord.receipt (r : HireRecord) : Receipt :=
  { minutes := false
    heading := headingValues [some r.no, some r.shiftNo, some r.bandIdx, some r.start, r.stop, r.close]
    distance := r.paidDistance, seconds := r.hiredSeconds, flagFall := some r.flagFall
    distCharge := some r.distCharge, timeCharge := some r.timeCharge, rounding := r.rounding, topUp := r.topUp
    extras := r.extras, due := r.due, tip := r.tip, tenders := r.tenders.map Tender.line
    outcome := r.outcome.map HireOutcome.code, unpaid := r.unpaid, saving := r.saving
    conflict := r.conflict, powerGap := r.powerGap, pulseFault := r.pulseFault, capped := r.capped
    gap := some r.gapSeconds, shortened := false }

/-- The authorisation characters Table 12-6 allows. -/
def authChars : List Nat := (List.range 128).filter authOk

/-- The authorisation characters that six codes of 6 bits carry, the first in the highest bits; their codes are free values
(log entry 8). -/
def authOf (x : Nat) : List Nat :=
  (List.range 6).filterMap fun i =>
    authChars.find? fun c => (Config.authCode c).toNat == x / 64 ^ (5 - i) % 64

/-- The line of tender `i` when all its items stand; CASH derives the tendered amount (R199). -/
def FormData.tenderLine (f : FormData) (kinds i : Nat) : List (PrintLabel × List Nat) :=
  let at' (j : Nat) := itemOf (.entry 0 i j) f.items
  match kinds / 4 ^ i % 4, at' 0, at' 1, at' 2 with
  | 1, some a, some c, _ => [(.tenderCash, [a, a + c, c])]
  | 2, some a, some four, some x =>
    [(.tenderCard, [a, x / 2 ^ 36 % 16, digitsValue (bcdDigits (be16 four))] ++ authOf x)]
  | 3, some a, some n, some x => [(.tenderAccount, [a, n, digitsValue (bcdDigits (be32 x))])]
  | _, _, _, _ => []

def FormData.extraEntry (f : FormData) (i : Nat) : List (Nat × Nat) :=
  match itemOf (.entry 1 i 0) f.items, itemOf (.entry 1 i 1) f.items with
  | some c, some a => [(c, a)]
  | _, _ => []

/-- The times of the heading in minutes, each where all it is made of stands; a CANCELLED hire has no stop time
(R199, log entry 51). -/
def FormData.times (f : FormData) (cancelled : Bool) : List (Option Nat) :=
  let start := itemOf .start f.items
  let stop := if cancelled then none else start.bind fun a => (itemOf .stopOffset f.items).map (a + ·)
  let close := (if cancelled then start else stop).bind fun a => (itemOf .closeOffset f.items).map (a + ·)
  [start, stop, close]

/-- The receipt of a record fetched from a seat (R199): the items that stand whole are printed; the due, the unpaid amount
and the saving are derived, and left out where the data ended early. What is printed of a form that no seat sends (outcome
bits 0, a V of more than four groups, bytes after the last item) is the model's choice (log entries 64 and 68). -/
def FormData.receipt (f : FormData) (hireNo : Nat) : Receipt :=
  let val (x : Item) : Option Nat := itemOf x f.items
  let num (x : Item) : Nat := (val x).getD 0
  let status := num .status
  let list := num .list
  let kinds := num .kinds
  let cancelled : Bool := status / 8 % 4 == 3
  let capped : Bool := status / 128 % 2 == 1
  let rounding := status / 32 % 2
  let extras := (List.range (list / 8 % 8)).flatMap fun i => f.extraEntry i
  let applied := ((List.range (list / 64 % 4)).map fun i => num (.entry 0 i 0)).sum
  let due := if cancelled then 0
    else num .flagFall + num .distCharge + num .timeCharge + rounding + num .topUp + (extras.map (·.2)).sum
  { minutes := true
    heading := headingValues
      ([some hireNo, val .shiftNo, (val .status).map fun st => st / 2 % 4] ++ f.times cancelled)
    distance := val .distance, seconds := val .seconds, flagFall := val .flagFall
    distCharge := val .distCharge, timeCharge := val .timeCharge
    rounding := if cancelled then none else (val .status).map fun _ => rounding
    topUp := val .topUp, extras := extras, due := if f.whole then some due else none, tip := val .tip
    tenders := (List.range (list / 64 % 4)).flatMap fun i => f.tenderLine kinds i
    outcome := (val .status).map fun st => st / 8 % 4
    unpaid := if f.whole ∧ status / 8 % 4 = 2 then some (due + num .tip - applied) else none
    saving := if f.whole ∧ !capped then some (num .undiscounted - (num .distCharge + num .timeCharge)) else none
    conflict := list % 2 == 1, powerGap := list / 2 % 2 == 1, pulseFault := list / 4 % 2 == 1, capped := capped
    gap := val .gap, shortened := !f.whole }

end Sys2Proof.Machine
end

