-- ==== Sys2Proof/Machine/Print.lean ====
section
/-! DEFINITION. The print unit (R180 to R186): jobs, builders and the print queue, the printer line, and the record transfer
at both ends. -/
namespace Sys2Proof.Machine
open Sys2Proof

/-! ### The print queue (R181, R182) -/

/-- Entries the print queue holds at most, entries of a line at most, and the room a new line asks for (R181). -/
def printSize : Nat := 512

def lineSize : Nat := 48

def lineRoom : Nat := 128

/-- An entry that ends a line (R181). -/
def PrintEntry.ends : PrintEntry → Bool
  | .text _ => false
  | .control .feed => true
  | .control .cut => true
  | .control .emphasisOn => false
  | .control .emphasisOff => false

/-- An item's characters and emphasis as entries; the text is a free value (log entry 7). -/
def itemEntries (n : Nat) (x : PrintLabel × List Nat) : List PrintEntry :=
  ((Config.lineText x.1 x.2).take n).map fun t => match t with
    | .inl c => .text c
    | .inr true => .control .emphasisOn
    | .inr false => .control .emphasisOff

/-- A whole line: an item ended by FEED, or by CUT where it is the last (R181). -/
def lineEntries (x : PrintLabel × List Nat) (last : Bool) : List PrintEntry :=
  itemEntries (lineSize - 1) x ++ [.control (if last then .cut else .feed)]

/-- Room to begin a line (R181). -/
def Print.hasRoom (p : Print) : Bool := lineRoom ≤ printSize - p.queue.length

/-- A line stands unended at the end of the queue. -/
def Print.unended (p : Print) : Bool := (p.queue.getLast?.map fun e => !e.ends).getD false

/-- Entries are written: an ended line needs no flush; an unended one starts its 300 ms again, unless it has been released
(R182). -/
def Print.write (p : Print) (es : List PrintEntry) : Print :=
  let p := { p with queue := p.queue ++ es }
  if p.unended then { p with flush := if p.released then none else startTimer (ms 300) }
  else { p with flush := none, released := false }

/-! ### What the builders write (R184, R168) -/

def partValues : SummaryPart → List Nat
  | .part0 no s c u w lost fault conflict rev metered =>
    [no, s, c, u, w, bitNat lost, bitNat fault, bitNat conflict, rev, metered]
  | .part1 d e t => [d.getD unknownDistance, e, t]
  | .part2 d c k => [d.getD unknownDistance, c, k]
  | .part3 h a u => [h, a, u]

/-- The parts a row holds, in order. -/
def partsOf (q : Quad (Option SummaryPart)) : List SummaryPart := q.toList.filterMap id

/-- The fields of a COMPLETE row, part by part (Table 9-5). -/
def partLines (l : PrintLabel) (a : Addr) (ps : List SummaryPart) : List (PrintLabel × List Nat) :=
  ps.map fun p => (l, [a.val, p.index] ++ partValues p)

/-- Pulses of row 0's copy in metres, not bounded by the width of a summary field; unknown with an invalid image (R168). -/
def State.fullMetres (s : State) (pulses : Nat) : Option Nat := s.image.map fun im => pulses * 1000 / im.k

/-- Total and paid distance of row 0 in metres, or as unknown (R161, R168). -/
def State.rowZeroDistances (s : State) (a : Accum) : PrintLabel × List Nat :=
  match s.fullMetres a.totalPulses, s.fullMetres a.paidPulses with
  | some total, some paid => (.sumDistances, [total, paid])
  | _, _ => (.distancesUnknown, [])

/-- Row 0 in full from its copy: every field of Table 9-5, with the shift number, the totals-lost flag and the reversal
count on its first line (R168). -/
def State.rowZeroLines (s : State) (z : RowZero) : List (PrintLabel × List Nat) :=
  let a := z.acc
  [ (.rowComplete, [0, s.close.number, bitNat z.lost, z.reversals.length]),
    (.rowZeroCounts, [a.settled, a.cancelled, a.unpaid, a.warmStarts, a.faultSeconds, a.conflicts]),
    s.rowZeroDistances a,
    (.sumMoney, [a.metered, a.extras, a.tips, a.cash, a.card, a.account, a.unpaidTotal, a.hiredSeconds]) ]

/-- The line or lines of one row (R168). -/
def State.rowLines (s : State) (a : Addr) : List (PrintLabel × List Nat) :=
  let r := s.close.rows.get a
  match r.st with
  | .complete =>
    if a = 0 then (s.close.rowZero.map s.rowZeroLines).getD [] else partLines .rowComplete a (partsOf r.parts)
  | .notExpected => [(.rowNotExpected, [a.val])]
  | .absent => [(.rowAbsent, [a.val])]
  | .waiting => [(.rowAbsent, [a.val])]
  | .refused _ => [(.rowAbsent, [a.val])]
  | .incomplete => [(.rowAbsent, [a.val])]

/-- Counts, distances and money of one COMPLETE row, for the vehicle sums (R168). -/
structure RowSums where
  counts : List Nat
  dists  : List (Option Nat)
  money  : List Nat
  deriving DecidableEq, Repr

def sumsZero : RowSums := { counts := [0, 0, 0], dists := [], money := [0, 0, 0, 0, 0, 0, 0, 0] }

def sumsOfZero (s : State) (z : RowZero) : RowSums :=
  let a := z.acc
  { counts := [a.settled, a.cancelled, a.unpaid], dists := [s.fullMetres a.totalPulses, s.fullMetres a.paidPulses]
    money := [a.metered, a.extras, a.tips, a.cash, a.card, a.account, a.unpaidTotal, a.hiredSeconds] }

/-- The sums of a seat's parts: they stand in four parts (Table 12-4). -/
def sumsOfParts (q : Quad (Option SummaryPart)) : RowSums :=
  match q.s0, q.s1, q.s2, q.s3 with
  | some (.part0 _ st c u _ _ _ _ _ m), some (.part1 d1 e t), some (.part2 d2 cash card), some (.part3 h a up) =>
    { counts := [st, c, u], dists := [d1, d2], money := [m, e, t, cash, card, a, up, h] }
  | _, _, _, _ => sumsZero

def State.rowSums (s : State) (a : Addr) : Option RowSums :=
  let r := s.close.rows.get a
  if r.st = .complete then
    some (if a = 0 then (s.close.rowZero.map fun z => sumsOfZero s z).getD sumsZero else sumsOfParts r.parts)
  else none

/-- A sum over rows, saturating (R168). -/
def sumAt (i : Nat) (rows : List (List Nat)) : Nat := rows.foldl (fun n r => satAdd top32 n (r.getD i 0)) 0

/-- A distance sum leaves unknown distances out (R168). -/
def distAt (i : Nat) (rows : List RowSums) : Nat :=
  rows.foldl (fun n r => satAdd top32 n (((r.dists[i]?).join).getD 0)) 0

/-- Vehicle sums and reconciliation (R168). A side of the reconciliation is the plain total of its saturated sums
(log entry 56). -/
def State.sumLines (s : State) : List (PrintLabel × List Nat) :=
  let rows := allAddrs.filterMap s.rowSums
  let m (i : Nat) : Nat := sumAt i (rows.map (·.money))
  [ (.sumCounts, [0, 1, 2].map fun i => sumAt i (rows.map (·.counts))),
    (.sumDistances, [distAt 0 rows, distAt 1 rows]) ]
    ++ lineIf .sumIncomplete [] (rows.any fun r => r.dists.any Option.isNone)
    ++ [ (.sumMoney, [0, 1, 2, 3, 4, 5, 6, 7].map m),
         (.reconciliation, [m 0 + m 1 + m 2, m 3 + m 4 + m 5 + m 6]) ]

/-- A row whose totals-lost flag is set (R168). -/
def State.rowLost (s : State) (a : Addr) : Bool :=
  let r := s.close.rows.get a
  r.st == .complete &&
    (if a = 0 then (s.close.rowZero.map (·.lost)).getD false
     else match r.parts.s0 with
       | some (.part0 _ _ _ _ _ lost _ _ _ _) => lost
       | _ => false)

/-- The vehicle report from the close table (R168). -/
def State.reportLines (s : State) : List (PrintLabel × List Nat) :=
  let c := s.close
  let z := c.rowZero
  [(.reportHeading, [c.number, c.driver.getD 0, ((z.map (·.openTime)).join).getD 0, (z.map (·.closeTime)).getD 0])]
    ++ lineIf .reportForced [] c.forced
    ++ allAddrs.flatMap s.rowLines
    ++ s.sumLines
    ++ ((z.map (·.reversals)).getD []).map (fun r => (.reversalEntry, [r.txn, r.amount, r.hireNo]))
    ++ (z.toList.map fun z => (.stationZeroFlags, [z.acc.distress, bitNat z.acc.lampFault, bitNat z.acc.signSilent]))
    ++ (allAddrs.filter s.rowLost).map fun a => (.totalsLost, [a.val])

/-- The report as the builder finds it; NO REPORT when the close state is no longer DONE (R184). -/
def State.reportOrNone (s : State) : List (PrintLabel × List Nat) :=
  if s.close.state = .done then s.reportLines else [(.noReport, [])]

/-- The slip of a row's late summary (R184, R167). -/
def State.slipLines (s : State) (a : Addr) : List (PrintLabel × List Nat) :=
  match (s.close.rows.get a).late with
  | some l =>
    [(.slipHeading, [a.val, l.number])] ++ partLines .slipFields a (partsOf l.parts)
      ++ lineIf .slipAlreadyReported [] l.reported
  | none => [(.slipHeading, [a.val])]

/-- What the builder of a receipt has to print: still waiting, not to be had, or there (R184, R185). -/
inductive Content
  | waiting
  | unavailable
  | ready (r : Receipt)
  deriving DecidableEq, Repr

/-- The bytes assembled from the stored parts (R185). -/
def Transfer.bytes (t : Transfer) : List Byte := t.parts.flatMap fun p => p.getD []

def State.receiptContent (s : State) (station : Addr) (b : Builder) : Content :=
  if station = 0 then
    match b.record with
    | some r => .ready r.receipt
    | none => .unavailable
  else
    match s.print.transfer with
    | some t =>
      match t.st with
      | .opened => .waiting
      | .unavailable => .unavailable
      | .complete => .ready ((readForm t.bytes).receipt t.hireNo)
    | none => .unavailable

/-! ### Building (R181, R184) -/

/-- The builder writes entries and goes on as `b`. -/
def State.writeLine (s : State) (es : List PrintEntry) (b : Builder) : State :=
  s.onPrint fun p => { p.write es with builder := some b }

/-- The next line of a job whose lines are all known: the last one ends with CUT and finishes the builder. -/
def State.buildLine (s : State) (b : Builder) (i : Nat) (lines : List (PrintLabel × List Nat)) : State :=
  let last : Bool := lines.length ≤ i + 1
  match lines[i]? with
  | some x => s.writeLine (lineEntries x last) { b with line := b.line + 1, finished := last }
  | none => s.writeLine [.control .cut] { b with finished := true }

/-- The next piece of a receipt: the heading begun from the job, its rest once the record is there, the lines (R184). -/
def State.buildReceipt (s : State) (station : Addr) (hireNo : Nat) (b : Builder) : State :=
  let content := s.receiptContent station b
  if b.headOpen then
    match content with
    | .waiting => s
    | .unavailable => s.writeLine [.control .feed] { b with headOpen := false, line := 1 }
    | .ready r =>
      s.writeLine (itemEntries 24 r.head ++ [.control .feed]) { b with headOpen := false, line := 1 }
  else if s.print.hasRoom then
    if b.line = 0 then
      s.writeLine (itemEntries 23 (.headingStart, [station.val, hireNo])) { b with headOpen := true }
    else match content with
      | .waiting => s
      | .unavailable => s.buildLine b (b.line - 1) [(.recordUnavailable, [])]
      | .ready r => s.buildLine b (b.line - 1) r.lines
  else s

/-- A line of a report or slip is begun only with room in the queue (R181). -/
def State.buildListed (s : State) (b : Builder) (lines : List (PrintLabel × List Nat)) : State :=
  if s.print.hasRoom then s.buildLine b b.line lines else s

/-- The late summary is released from the row when its slip has been written (R167, R184). -/
def State.releaseLate (s : State) (a : Addr) : State :=
  if (s.print.builder.map (·.finished)).getD false then
    s.onClose fun c => { c with rows := c.rows.set a { c.rows.get a with late := none } }
  else s

/-- The active job's builder writes what it can write next (R181, R183, R184). -/
def State.build (s : State) : State :=
  match s.print.jobs.head?, s.print.builder with
  | some job, some b =>
    if b.finished ∨ s.supply.state = .low then s
    else match job with
      | .receipt station hireNo => s.buildReceipt station hireNo b
      | .vehicleReport => s.buildListed b s.reportOrNone
      | .lastReport => s.buildListed b s.reportOrNone
      | .lateSlip a => (s.buildListed b (s.slipLines a)).releaseLate a
  | _, _ => s

/-- PRINT_BUILD (R181, R184). -/
def execPrintBuild (s : State) : Host.Outcome State Fault Refusal := event (fun s => s.atConsole State.build) s

/-! ### Jobs (R180, R185) -/

/-- The newest log record with this hire number, or the newest of all for 0 (R180, R186). -/
def State.logRecord (s : State) (hireNo : Nat) : Option HireRecord :=
  s.hire.log.reverse.find? fun r => hireNo == 0 || r.no == hireNo

/-- A transfer is opened for a receipt of a seat (R185). -/
def State.openTransfer (s : State) (t : Addr) (hireNo : Nat) : State :=
  let tr : Transfer :=
    { target := t, hireNo := hireNo, m := none, parts := [none, none, none, none, none, none], requery := 0
      suspended := none, first := 0, queryHeld := false, limit := none
      st := if s.silent then .unavailable else .opened, gen := s.print.gen }
  let s' := s.onPrint fun p => { p with transfer := some tr, gen := p.gen + 1 }
  if s.silent then s' else s'.offer .recordQuery

/-- The oldest job becomes active (R180). For a receipt of station 0's own hire its builder takes the log record now, and does
not read the log again as it writes (log entry 57). -/
def State.activateJob (s : State) : State :=
  match s.print.jobs.head?, s.print.builder with
  | some job, none =>
    let builder (r : Option HireRecord) : Builder := { record := r, line := 0, headOpen := false, finished := false }
    match job with
    | .receipt t hireNo =>
      if t = 0 then s.onPrint fun p => { p with builder := some (builder (s.logRecord hireNo)) }
      else (s.onPrint fun p => { p with builder := some (builder none) }).openTransfer t hireNo
    | .vehicleReport => s.onPrint fun p => { p with builder := some (builder none) }
    | .lastReport => s.onPrint fun p => { p with builder := some (builder none) }
    | .lateSlip _ => s.onPrint fun p => { p with builder := some (builder none) }
  | _, _ => s

/-- PRINT_JOB_ACTIVE (R180, R185). -/
def execPrintJobActive (s : State) : Host.Outcome State Fault Refusal := event (fun s => s.atConsole State.activateJob) s

/-! ### The printer line (R182, R183) -/

/-- PRINT_LINE_FLUSH (R182). -/
def execPrintLineFlush (s : State) : Host.Outcome State Fault Refusal :=
  event (fun s =>
    if s.print.flush.isSome then s.onPrint fun p => { p with flush := none, released := true } else s) s

/-- The entry the printer may be given now: the next of a released line (R182). -/
def Print.nextEntry (p : Print) : Option PrintEntry :=
  if p.released ∨ (p.queue.drop p.given).any PrintEntry.ends then p.queue[p.given]? else none

/-- The active job leaves the list when the printer has taken its last entry (R180). -/
def Print.jobDone (p : Print) : Print :=
  if p.queue.isEmpty ∧ (p.builder.map (·.finished)).getD false then
    { p with jobs := p.jobs.drop 1, builder := none, transfer := none }
  else p

/-- The printer takes an entry; a line leaves the queue whole with its ending entry (R182). -/
def Print.take (p : Print) (e : PrintEntry) : Print :=
  if e.ends then { p with queue := p.queue.drop (p.given + 1), given := 0 }.jobDone
  else { p with given := p.given + 1 }

def State.printerTakes (s : State) : State :=
  if s.print.paperOut ∨ s.supply.state = .low then s
  else match s.print.nextEntry with
    | some e => (s.onLines fun l => { l with printer := some e }).onPrint fun p => p.take e
    | none => s

/-- PRINTER_READY (R182, R183). -/
def execPrinterReady (s : State) : Host.Outcome State Fault Refusal := event (fun s => s.atConsole State.printerTakes) s

/-- PAPER_OUT (R183). The line is followed also by a stopped station (log entry 35). -/
def execPaperOut (s : State) : Host.Outcome State Fault Refusal :=
  event (fun t => t) (s.onPrint fun p => { p with paperOut := true })

/-- PAPER_RETURN (R183): the interrupted line is given again from its first entry. -/
def execPaperReturn (s : State) : Host.Outcome State Fault Refusal :=
  event (fun t => t.onPrint fun p => { p with given := 0 }) (s.onPrint fun p => { p with paperOut := false })

/-! ### The transfer at station 0 (R185) -/

/-- The lowest index with no part. -/
def Transfer.missing (t : Transfer) : Nat := t.parts.findIdx Option.isNone

/-- A re-query from the lowest missing index, or the end of the transfer (R185). The part limit runs on as the transfer has
it: after a gap as the stored part restarted it. -/
def State.requery (s : State) (t : Transfer) : State :=
  if t.requery < 2 then
    let t' := { t with requery := t.requery + 1, first := t.missing, suspended := some t.missing
                       queryHeld := false, gen := s.print.gen }
    (s.onPrint fun p => { p with transfer := some t', gen := p.gen + 1 }).offer .recordQuery
  else s.endTransfer .unavailable

/-- The part as stored, with what follows for the limit and the gap test (R185). -/
def Transfer.store (t : Transfer) (k m hireNo : Nat) (data : List Byte) : Transfer :=
  { t with hireNo := hireNo, m := some m, parts := setAt t.parts k (some data), limit := startTimer (ms 200)
           suspended := if t.suspended = some k then none else t.suspended }

/-- All m parts are stored. -/
def Transfer.full (t : Transfer) (m : Nat) : Bool := (t.parts.take m).all Option.isSome

/-- A part that the open transfer takes (R185). For a query with hire number 0, only a part that is stored fixes the queried
number, not one that is ignored (log entry 58). -/
def State.takePart (s : State) (t : Transfer) (k m hireNo : Nat) (data : List Byte) : State :=
  if m = 0 then s.endTransfer .unavailable
  else if m ≤ k ∨ 6 < m then s
  else if t.m.isSome ∧ t.m ≠ some m then s.endTransfer .unavailable
  else
    let t' := t.store k m hireNo data
    let s' := s.onPrint fun p => { p with transfer := some t' }
    if t'.full m then s'.endTransfer .complete
    else if t'.suspended.isNone ∧ t'.missing < k then s'.requery t'
    else s'

/-- A RECORD_PART from the target of the transfer with the queried hire number (R185); one that comes after the transfer is
complete overwrites its copy (Table 10-2). That parts are taken from the opening on, also before the query's sent report, is
the model's choice (log entry 66). -/
def State.takeRecordPart (s : State) (sender : Addr) (k m hireNo : Nat) (data : List Byte) : State :=
  match s.print.transfer with
  | some t =>
    if t.target = sender ∧ (t.hireNo = hireNo ∨ (t.hireNo = 0 ∧ t.m.isNone)) then
      match t.st with
      | .opened => s.takePart t k m hireNo data
      | .complete =>
        if t.m = some m ∧ k < m then
          s.onPrint fun p => { p with transfer := some { t with parts := setAt t.parts k (some data) } }
        else s
      | .unavailable => s
    else s
  | none => s

/-- RECORD_PART (R185). -/
def execRecordPart (sender : Addr) (k m hireNo : Nat) (data : List Byte) (s : State) :
    Host.Outcome State Fault Refusal :=
  frameEvent sender (fun s => s.atConsole fun s => s.takeRecordPart sender k m hireNo data) s

/-- The part limit has expired: it runs again from the sent report of the re-query (R185). -/
def State.partLimit (s : State) : State :=
  match s.print.transfer with
  | some t => if t.st = .opened ∧ t.limit.isSome then s.requery { t with limit := none } else s
  | none => s

/-- PART_LIMIT_EXPIRY (R185). -/
def execPartLimitExpiry (s : State) : Host.Outcome State Fault Refusal := event State.partLimit s

/-! ### The transfer at the answering station (R186) -/

/-- The parts of the answer; none where the log holds no such record. -/
def State.serveRecord (s : State) (hireNo first : Nat) : State :=
  let sv : Serve := match s.logRecord hireNo with
    | some r => { hireNo := r.no, parts := r.parts, k := if first < r.parts.length then first else 0
                  held := false, gen := s.print.gen }
    | none => { hireNo := hireNo, parts := [], k := 0, held := false, gen := s.print.gen }
  (s.onPrint fun p => { p with serve := some sv, gen := p.gen + 1 }).offer .recordPart

/-- RECORD_QUERY (R186); a LINK_SILENT station offers nothing. -/
def execRecordQuery (sender : Addr) (hireNo : Nat) (target : Addr) (first : Nat) (s : State) :
    Host.Outcome State Fault Refusal :=
  frameEvent sender
    (fun s => s.fromConsole sender fun s =>
      if target = s.addr ∧ !s.silent then s.serveRecord hireNo first else s) s

end Sys2Proof.Machine
end

