-- ==== Sys2Proof/Machine/Roof.lean ====
section
/-! DEFINITION. The events of the roof sign line (R95 to R100) and of the distress latch (R102 to R107). -/
namespace Sys2Proof.Machine
open Sys2Proof

/-! ### Sign line -/

/-- The period has run out: a REPEAT falls due (R95). -/
def State.repeatDue (s : State) : State :=
  if s.sign.period.isSome ∧ s.sign.control = .repeating then
    (s.onSign fun g => { g with period := none }).dueSign .repeating
  else s

/-- SIGN_REPEAT_PERIOD (R95, R96). -/
def execSignRepeatPeriod (s : State) : Host.Outcome State Fault Refusal := event State.repeatDue s

/-- One lamp: reported failed, and not shown failed before (R97). -/
def newlyFailed (good : Bool) (before : Option Bool) : Bool := !good && before.getD true

/-- Some lamp is newly failed against the lamp status before (R97). -/
def Lamps.newFault (l : Lamps) (before : Option Lamps) : Bool :=
  newlyFailed l.vacant (before.map (·.vacant)) || newlyFailed l.hired (before.map (·.hired))
    || newlyFailed l.numeral (before.map (·.numeral)) || newlyFailed l.distress (before.map (·.distress))

/-- A valid reply during the wait (R97), also where the state has become OFF since the message went out (log entry 46). -/
def State.takeLamps (s : State) (l : Lamps) : State :=
  let fault := l.newFault s.sign.lamps
  let s := s.onSign fun g => { g with lamps := some l, silent := 0, signSilent := false }
  (if fault then s.reportLampFault else s).endSignWait

def State.takeSignReply (s : State) (b0 b1 b2 : Byte) : State :=
  if s.sign.wait.isSome then
    match signReplyLamps b0 b1 b2 with
    | some l => s.takeLamps l
    | none => s
  else s

/-- SIGN_REPLY (R96, R97, R200). -/
def execSignReply (b0 b1 b2 : Byte) (s : State) : Host.Outcome State Fault Refusal :=
  event (fun s => s.takeSignReply b0 b1 b2) s

/-- The reply limit expires: the silent count rises to 3 at most, and at 3 SIGN_SILENT is set and reported (R98). -/
def State.missSign (s : State) : State :=
  if s.sign.silent = 2 then
    (s.onSign fun g => { g with silent := 3, signSilent := true }).reportSignSilent
  else s.onSign fun g => { g with silent := min 3 (g.silent + 1) }

/-- The wait ends with its limit: the reply counts as missed (R98), but in OFF the silent count and SIGN_SILENT stay as they
stood (R100). -/
def State.signTimeout (s : State) : State :=
  if s.sign.wait.isSome then (if s.sign.control = .off then s else s.missSign).endSignWait else s

/-- SIGN_REPLY_TIMEOUT (R96, R98). -/
def execSignReplyTimeout (s : State) : Host.Outcome State Fault Refusal := event State.signTimeout s

/-- SIGN_SILENT (R98): the missed reply at which the silent count reaches 3 (log entry 4), and none is counted in OFF (R100). -/
def execSignSilent (s : State) : Host.Outcome State Fault Refusal :=
  event (fun s => if s.sign.silent = 2 ∧ s.sign.control ≠ .off then s.signTimeout else s) s

/-- The 1 s of TEST has passed (R99). -/
def State.endTest (s : State) : State :=
  if s.sign.control = .test ∧ s.sign.test.isSome then
    (s.onSign fun g => { g with control := .repeating, test := none }).dueSign .repeating
  else s

/-- LAMP_TEST_END (R99). -/
def execLampTestEnd (s : State) : Host.Outcome State Fault Refusal := event State.endTest s

/-- A lamp test may be taken (R99). -/
def State.mayTest (s : State) : Bool := s.signMode.1 == .offDuty && s.sign.control == .repeating

/-- The lamp test: a ONCE message, and TEST for 1 s from it (R99). -/
def State.startTest (s : State) : State :=
  (s.onSign fun g => { g with control := .test, period := none }).dueSign .once

/-! ### Distress latch -/

/-- The hold that sets the latch (R102). -/
def holdTime : Nat := ms 1500

/-- The hold timer starts where the input is active, the latch clear and the inhibit over (R102). -/
def State.startHold (s : State) : State :=
  if s.isConsole ∧ s.distress.active ∧ s.distress.latch.isNone ∧ s.distress.inhibit.isNone then
    s.onDistress fun d => { d with hold := startTimer holdTime }
  else s

/-- The concealed input's level is followed also by a stopped station; only a running one takes the event
(log entry 35). -/
def inputEvent (active : Bool) (f : State → State) (s : State) : Host.Outcome State Fault Refusal :=
  event f (s.onDistress fun d => { d with active := active })

/-- DISTRESS_INPUT_ACTIVE (R102). -/
def execDistressInputActive (s : State) : Host.Outcome State Fault Refusal :=
  inputEvent true (fun t => if s.distress.active then t else t.startHold) s

/-- DISTRESS_INPUT_INACTIVE (R102). -/
def execDistressInputInactive (s : State) : Host.Outcome State Fault Refusal :=
  inputEvent false (fun t => t.onDistress fun d => { d with hold := none }) s

/-- A DISTRESS frame is offered and the period starts (R104). -/
def State.sendDistress (s : State) : State :=
  if s.silent then s.onDistress fun d => { d with period := none }
  else (s.onDistress fun d => { d with period := startTimer (ms 250) }).offer .distress

/-- The latch is set (R103). -/
def State.setLatch (s : State) : State :=
  ((s.onDistress fun d => { d with latch := some s.clock.seconds, hold := none }).account fun a =>
    { a with distress := satAdd top16 a.distress 1 }).sendDistress

/-- DISTRESS_HOLD_EXPIRY (R103). -/
def execDistressHoldExpiry (s : State) : Host.Outcome State Fault Refusal :=
  event (fun s => if s.distress.hold.isSome ∧ s.distress.latch.isNone then s.setLatch else s) s

/-- START_INHIBIT_END (R102). -/
def execStartInhibitEnd (s : State) : Host.Outcome State Fault Refusal :=
  event (fun s =>
    if s.distress.inhibit.isSome then (s.onDistress fun d => { d with inhibit := none }).startHold else s) s

/-- DISTRESS_PERIOD (R104). -/
def execDistressPeriod (s : State) : Host.Outcome State Fault Refusal :=
  event (fun s => if s.distress.period.isSome ∧ s.distress.latch.isSome then s.sendDistress else s) s

/-- The clear sequence (R106): the right code with the latch set and a valid image clears it. -/
def State.clearLatch (s : State) (digits : List Nat) : State :=
  if s.distress.latch.isSome ∧ s.image.map (·.clearCode) = some digits then
    (s.onDistress fun d => { d with latch := none, period := none }).startHold
  else s

end Sys2Proof.Machine
end

