-- ==== Sys2Proof/Machine/Shift.lean ====
section
/-! DEFINITION. SHIFT frames and the close (chapter 9): what a seat does with SHIFT_OPEN, SHIFT_CALL, SHIFT_DONE and
SHIFT_ABANDON, what station 0 does with summaries and refusals, and the limits of a close. -/
namespace Sys2Proof.Machine
open Sys2Proof

/-! ### At a seat (R152, R153, R160, R163, R165) -/

/-- A late close with these values is pending; one pending with the same number stands as it is (R153). -/
def State.pendLate (s : State) (number driver : Nat) : State :=
  s.onShift fun sh => { sh with pendingLate := match sh.pendingLate with
    | some (n, d) => if n = number then some (n, d) else some (number, driver)
    | none => some (number, driver) }

def State.takeShiftOpen (s : State) (rejoin : Bool) (number driver : Nat) : State :=
  match s.shift.state with
  | .offShift => s.adoptShift number driver rejoin
  | .onShift => if s.shift.number = number then s else s.pendLate number driver
  | .closing => if s.shift.number = number then s else s.leaveClosing.pendLate number driver

/-- SHIFT_OPEN (R152, R153): a pending late close that may be made is made within the event. -/
def execShiftOpen (sender : Addr) (rejoin : Bool) (shiftNo driver : Nat) (s : State) :
    Host.Outcome State Fault Refusal :=
  frameEvent sender (fun s => s.fromConsole sender fun s => s.takeShiftOpen rejoin shiftNo driver) s

/-- Slot FREE and session NONE (R158, R160). -/
def State.atRest (s : State) : Bool := s.hire.slot.isFree && !s.pay.session.active

/-- The time a seat stays CLOSING (R160). -/
def closingLimit : Nat := sec 10

/-- Enter or renew CLOSING and offer the summary from part 0 (R160, R161). -/
def State.answerCall (s : State) : State :=
  (s.onShift fun sh => { sh with state := .closing, closing := startTimer closingLimit }).startSummary false
    (s.summaryParts s.shift.number s.shift.lost s.shift.acc)

def State.takeShiftCall (s : State) (number : Nat) : State :=
  match s.shift.state with
  | .offShift => s
  | .onShift =>
    if s.shift.number ≠ number then s.sendShift (.refuse .number s.shift.number)
    else if s.atRest then s.answerCall
    else s.sendShift (.refuse .busy s.shift.number)
  | .closing =>
    if s.shift.number ≠ number then s.sendShift (.refuse .number s.shift.number) else s.answerCall

/-- SHIFT_CALL (R160). -/
def execShiftCall (sender : Addr) (shiftNo : Nat) (s : State) : Host.Outcome State Fault Refusal :=
  frameEvent sender (fun s => s.fromConsole sender fun s => s.takeShiftCall shiftNo) s

def State.takeShiftDone (s : State) (forced : Bool) (number : Nat) (addrs : List Addr) : State :=
  if s.shift.state = .closing ∧ s.shift.number = number then
    if addrs.contains s.addr then
      (s.leaveClosing).closeShift (if forced then .forced else .normal)
    else s.leaveClosing
  else s

/-- SHIFT_DONE (R163). -/
def execShiftDone (sender : Addr) (forced : Bool) (shiftNo : Nat) (addrs : List Addr) (s : State) :
    Host.Outcome State Fault Refusal :=
  frameEvent sender (fun s => s.fromConsole sender fun s => s.takeShiftDone forced shiftNo addrs) s

def State.takeShiftAbandon (s : State) (number : Nat) : State :=
  if s.shift.state = .closing ∧ s.shift.number = number then s.leaveClosing else s

/-- SHIFT_ABANDON (R165). -/
def execShiftAbandon (sender : Addr) (shiftNo : Nat) (s : State) : Host.Outcome State Fault Refusal :=
  frameEvent sender (fun s => s.fromConsole sender fun s => s.takeShiftAbandon shiftNo) s

/-- SEAT_CLOSING_LIMIT_EXPIRY (R165). -/
def execSeatClosingLimitExpiry (s : State) : Host.Outcome State Fault Refusal :=
  event (fun s => if s.shift.closing.isSome then s.leaveClosing else s) s

/-! ### Summaries at station 0 (R162, R167) -/


/-- The place of a part among the four (Table 12-4). -/
def partPlace : SummaryPart → Addr
  | .part0 .. => 0
  | .part1 .. => 1
  | .part2 .. => 2
  | .part3 .. => 3

/-- The shift number that a part 0 carries (Table 12-4). -/
def partNumber : SummaryPart → Option Nat
  | .part0 n .. => some n
  | .part1 .. => none
  | .part2 .. => none
  | .part3 .. => none

def allParts (q : Quad (Option SummaryPart)) : Bool := q.toList.all Option.isSome

/-- A row takes a part: not once it is COMPLETE, REFUSED or ABSENT (R162). -/
def CloseRow.takes (r : CloseRow) : Bool :=
  r.expected && match r.st with
    | .waiting => true
    | .incomplete => true
    | .notExpected => true
    | .complete => false
    | .refused _ => false
    | .absent => false

/-- The row with a part stored; a WAITING row with all four is COMPLETE (R162). -/
def CloseRow.store (r : CloseRow) (p : SummaryPart) : CloseRow :=
  let parts := r.parts.set (partPlace p) (some p)
  { r with parts := parts, st := if allParts parts ∧ r.st = .waiting then .complete else r.st }

def State.takeSummary (s : State) (sender : Addr) (p : SummaryPart) : State :=
  let r := s.close.rows.get sender
  if s.close.state = .collecting ∧ r.takes ∧ (partNumber p).getD s.close.number = s.close.number then
    (s.onClose fun c => { c with rows := c.rows.set sender (r.store p) }).completionTest
  else s

/-- SHIFT_SUMMARY (R162). -/
def execShiftSummary (sender : Addr) (part : SummaryPart) (s : State) : Host.Outcome State Fault Refusal :=
  frameEvent sender (fun s => s.atConsole fun s => s.takeSummary sender part) s

/-- A LATE part into the late summary of its row (R167): a part 0 of another shift starts a new one; nothing is taken
while a complete one awaits its slip. -/
def lateStore (l : Option LateSummary) (p : SummaryPart) : Option LateSummary :=
  match l with
  | some x =>
    if x.complete then some x
    else match partNumber p with
      | some n =>
        if n = x.number then some { x with parts := x.parts.set 0 (some p) }
        else some { number := n, parts := ⟨some p, none, none, none⟩, complete := false, reported := false }
      | none => some { x with parts := x.parts.set (partPlace p) (some p) }
  | none =>
    (partNumber p).map fun n => { number := n, parts := ⟨some p, none, none, none⟩, complete := false, reported := false }

/-- The close table has already reported this shift of this row (R167). -/
def Close.reported (c : Close) (sender : Addr) (number : Nat) : Bool :=
  c.state == .done && c.number == number && (c.rows.get sender).st == .complete

def State.takeLatePart (s : State) (sender : Addr) (p : SummaryPart) : State :=
  let r := s.close.rows.get sender
  match lateStore r.late p with
  | none => s
  | some l =>
    if !l.complete ∧ allParts l.parts then
      let done := { l with complete := true, reported := s.close.reported sender l.number }
      (s.onClose fun c => { c with rows := c.rows.set sender { r with late := some done } }).offerSlip sender
    else s.onClose fun c => { c with rows := c.rows.set sender { r with late := some l } }

/-- LATE_SUMMARY_PART (R167). -/
def execLateSummaryPart (sender : Addr) (part : SummaryPart) (s : State) : Host.Outcome State Fault Refusal :=
  frameEvent sender (fun s => s.atConsole fun s => s.takeLatePart sender part) s

/-! ### Refusals and the collect time (R164, R166) -/

/-- Set the state of a row of the close table. -/
def State.setRow (s : State) (a : Addr) (st : RowState) : State :=
  s.onClose fun c => { c with rows := c.rows.set a { c.rows.get a with st := st } }

def State.takeRefuse (s : State) (sender : Addr) (reason : RefuseReason) : State :=
  let r := s.close.rows.get sender
  if s.close.state = .collecting ∧ r.expected ∧ r.st = .waiting then
    if s.close.forced then s.setRow sender .absent else (s.setRow sender (.refused reason)).abandonClose
  else s

/-- SHIFT_REFUSE (R164, R166). -/
def execShiftRefuse (sender : Addr) (reason : RefuseReason) (_shiftNo : Nat) (s : State) :
    Host.Outcome State Fault Refusal :=
  frameEvent sender (fun s => s.atConsole fun s => s.takeRefuse sender reason) s

/-- A row that is not COMPLETE at the collect expiry of a forced close is ABSENT (R166). -/
def CloseRow.miss (r : CloseRow) : CloseRow := if r.expected ∧ r.st ≠ .complete then { r with st := .absent } else r

/-- A WAITING row at the collect expiry of an unforced close is INCOMPLETE (R164). -/
def CloseRow.fail (r : CloseRow) : CloseRow := if r.st = .waiting then { r with st := .incomplete } else r

def State.collectEnds (s : State) : State :=
  if s.close.collect.isSome ∧ s.close.state = .collecting then
    if s.close.forced then (s.onClose fun c => { c with rows := c.rows.map CloseRow.miss }).closeDone
    else (s.onClose fun c => { c with rows := c.rows.map CloseRow.fail }).abandonClose
  else s

/-- COLLECT_TIME_EXPIRY (R164, R166). -/
def execCollectTimeExpiry (s : State) : Host.Outcome State Fault Refusal := event State.collectEnds s

/-! ### Opening and closing at station 0 (R150, R158, R166) -/

def succShiftNo (n : Nat) : Nat := if 65535 ≤ n then 1 else n + 1

/-- The open of a shift at station 0 (R150). -/
def State.openShift (s : State) (driver : Nat) : State :=
  let number := succShiftNo s.shift.number
  let s := (s.onShift fun sh => { sh with
    number := number, driver := some driver, openTime := some s.clock.seconds, acc := .zero, lost := false
    coldMark := false, state := .onShift }).onHire fun h => { h with nextNo := 1 }
  (s.sendShift (.opened number driver false)).reportStanding

/-- The cause shown for a refused CLOSE key: the first that holds, in the order R158 lists them (log entry 55). -/
def State.closeRefusal (s : State) : Option CloseRefusal :=
  if s.shift.state ≠ .onShift then some .noShift
  else if !s.atRest then some .slotBusy
  else if s.silent then some .linkSilent
  else if s.print.jobs.contains .vehicleReport ∨ s.print.jobs.contains .lastReport ∨ s.close.reportHeld then
    some .reportPending
  else none

/-- A row as a CLOSE finds it: cleared but for its late summary, and expected or not (R158). -/
def CloseRow.fresh (r : CloseRow) (expected : Bool) : CloseRow :=
  { expected := expected, st := if expected then .waiting else .notExpected
    parts := ⟨none, none, none, none⟩, late := r.late }

/-- The row of a seat that station 0 sees ON_SHIFT (R158). -/
def State.seatOnShift (s : State) (a : Addr) : Bool :=
  let r := s.peer.rows.get a
  r.present && (r.beacon.map fun b => b.shiftState == .onShift).getD false

/-- The rows of a close over the expected set (R158). -/
def State.expectedRows (s : State) : Quad CloseRow :=
  { s0 := s.close.rows.s0.fresh true
    s1 := s.close.rows.s1.fresh (s.seatOnShift 1)
    s2 := s.close.rows.s2.fresh (s.seatOnShift 2)
    s3 := s.close.rows.s3.fresh (s.seatOnShift 3) }

/-- A forced close is available (R166). -/
def State.mayForce (s : State) : Bool :=
  s.close.state == .abandoned && s.close.number == s.shift.number && s.shift.state == .onShift && s.atRest
    && !s.silent

/-- A seat row as a forced close calls it again (R166). -/
def CloseRow.again (r : CloseRow) : CloseRow :=
  if r.expected then { r with st := .waiting, parts := ⟨none, none, none, none⟩ } else r

/-- The rows of a forced close: the expected set is kept, every expected seat called again (R166). -/
def Close.forcedRows (c : Close) : Quad CloseRow :=
  { s0 := c.rows.s0, s1 := c.rows.s1.again, s2 := c.rows.s2.again, s3 := c.rows.s3.again }

end Sys2Proof.Machine
end

