-- ==== Sys2Proof/Machine/Console.lean ====
section
/-! DEFINITION. The console of station 0 (R171 to R176, Table 10-1): keys, the sequences they complete, and the pending
commands' replies and limits. Each row for a completed sequence is that sequence, its last key included (log entry 17). -/
namespace Sys2Proof.Machine
open Sys2Proof

/-! ### What a completed sequence does -/

/-- A sequence ends: the key state is idle, and neither a message of an earlier key nor the service page stands
(R171, R177). -/
def Console.ended (c : Console) : Console :=
  { c with keys := .idle, keyTimer := none, message := none, page := false }

def State.endKeys (s : State) : State := s.onConsole Console.ended

/-- Show a message until the next key (R177). -/
def State.say (s : State) (m : Message) : State := s.onConsole fun c => { c with message := some m }

/-- A command for the selected target is formed, or refused with WAIT (R173). -/
def State.formSelected (s : State) (cmd : Cmd) : State :=
  if s.console.ready s.console.selected then s.formCommand s.console.selected cmd
  else s.say (.wait s.console.selected)

def State.selectStation (s : State) (a : Addr) : State := s.onConsole fun c => { c with selected := a }

/-- FUNCTION 1 (R150); the shift state is tested before the driver number (log entry 43). -/
def State.takeOpenKeyed (s : State) (driver : Nat) : State :=
  if s.shift.state ≠ .offShift then s.say .shiftIsOpen
  else if driver < 1 ∨ 9999 < driver then s.say .entryInvalid
  else s.openShift driver

/-- FUNCTION 2 (R60); the shift state is tested before the fields (log entry 43). -/
def State.takeClockSetting (s : State) (year month day hour minute : Nat) : State :=
  if s.shift.state ≠ .offShift then s.say .clockOffShiftOnly
  else if clockEntryOk year month day hour minute then
    (s.onClock fun _ => { seconds := secondsOf year month day hour minute, phase := 0, isSet := true }).say .clockShown
  else s.say .entryInvalid

/-- FUNCTION 3 (R99). -/
def State.takeLampTest (s : State) : State := if s.mayTest then s.startTest else s.say .lampTestUnavailable

/-- FUNCTION 4 (R177). -/
def State.takeServicePage (s : State) : State := s.onConsole fun c => { c with page := true }

/-- A print job from a key, refused with PRINT_FULL (R180). -/
def State.keyJob (s : State) (j : Job) : State := if s.print.full then s.say .printFull else s.addJob j

/-- FUNCTION 5 (R180). -/
def State.takeLastReport (s : State) : State := if s.close.state = .done then s.keyJob .lastReport else s.say .noReport

/-- FUNCTION 8 (R166). -/
def State.takeForcedClose (s : State) : State :=
  if s.mayForce then s.startCollect s.close.forcedRows true else s.say .forcedUnavailable

/-- CLOSE (R158). -/
def State.takeClose (s : State) : State :=
  match s.closeRefusal with
  | some c => s.say (.closeRefused c)
  | none => s.startCollect s.expectedRows false

/-- PRINT (R180). -/
def State.takePrint (s : State) (hireNo : Nat) : State := s.keyJob (.receipt s.console.selected hireNo)

/-! ### Key by key (R171) -/

/-- The time an open sequence waits for its next key (R171). -/
def keyTime : Nat := sec 10

/-- A key opens a sequence, or extends it. -/
def State.collect (s : State) (k : KeySeq) : State :=
  s.onConsole fun c => { c with keys := k, keyTimer := startTimer keyTime, message := none }

/-- A key that opens a sequence closes the service page (R177). -/
def State.openSeq (s : State) (k : KeySeq) : State := (s.collect k).onConsole fun c => { c with page := false }

/-- A key that the sequence does not allow is ignored; the 10 s count from it again (R171). -/
def State.ignoreKey (s : State) : State := s.collect s.console.keys

/-- The sequence ends as invalid (R171). -/
def State.invalid (s : State) : State := s.endKeys.say .entryInvalid

/-- CLEAR abandons an open sequence and closes the service page (R171, R177). -/
def State.takeClear (s : State) : State := s.endKeys

/-- A key in the idle state: a sequence of its own, the beginning of a longer one, or nothing (R171). -/
def State.idleKey (s : State) : Key → State
  | .select => s.openSeq .select
  | .hireS => s.openSeq (.hire .shared none)
  | .hireX => s.openSeq (.hire .exclusive none)
  | .extra => s.openSeq (.extra none [])
  | .pay => s.openSeq .pay
  | .cash => s.openSeq (.cash [])
  | .account => s.openSeq (.account [])
  | .print => s.openSeq (.print [])
  | .function => s.openSeq (.function none [])
  | .stop => s.endKeys.formSelected .stop
  | .resume => s.endKeys.formSelected .resume
  | .cancel => s.endKeys.formSelected .cancel
  | .unpaid => s.endKeys.formSelected .unpaid
  | .card => s.endKeys.formSelected .payCard
  | .talk => s.endKeys.takeTalk
  | .announce => s.endKeys.takeAnnounce
  | .close => s.endKeys.takeClose
  | .clear => s.takeClear
  | .digit _ => s.onConsole fun c => { c with message := none }
  | .enter => s.onConsole fun c => { c with message := none }

/-- SELECT, then a digit 0 to 3 (R172). -/
def State.selectDigit (s : State) (d : Fin 10) : State :=
  match addrOf d.val with
  | some a => s.endKeys.selectStation a
  | none => s.collect .select

def State.hireKey (s : State) (kind : Kind) (party : Option Nat) : Key → State
  | .digit d => if party.isNone then s.collect (.hire kind (some d.val)) else s.ignoreKey
  | .enter =>
    match party with
    | some p => s.endKeys.formSelected (.hire kind p)
    | none => s.invalid
  | _ => s.ignoreKey

/-- A digit after EXTRA: the code where it comes first and is 1 to 8; any other digit is one of at most six amount
digits, with no code before them where none was keyed (R171, log entry 49). -/
def extraDigit (code : Option Nat) (amount : List Nat) (d : Nat) : Option Nat × List Nat :=
  if code.isNone && amount.isEmpty && 1 ≤ d && d ≤ 8 then (some d, [])
  else if amount.length < 6 then (code, amount ++ [d])
  else (code, amount)

/-- Keys after EXTRA: ENTER forms EXTRA or EXTRA_REMOVE, and ends amount digits without a code as invalid (R171). -/
def State.extraKey (s : State) (code : Option Nat) (amount : List Nat) : Key → State
  | .digit d => s.collect (.extra (extraDigit code amount d.val).1 (extraDigit code amount d.val).2)
  | .enter =>
    match code with
    | none => if amount.isEmpty then s.endKeys.formSelected .extraRemove else s.invalid
    | some c => s.endKeys.formSelected (.extra c (digitsValue amount))
  | _ => s.ignoreKey

def State.payKey (s : State) : Key → State
  | .cancel => s.endKeys.formSelected .cardCancel
  | _ => s.ignoreKey

def State.cashKey (s : State) (ds : List Nat) : Key → State
  | .digit d => if ds.length < 6 then s.collect (.cash (ds ++ [d.val])) else s.ignoreKey
  | .enter => if ds.isEmpty then s.invalid else s.endKeys.formSelected (.payCash (digitsValue ds))
  | _ => s.ignoreKey

def State.accountKey (s : State) (ds : List Nat) : Key → State
  | .digit d => if ds.length < 8 then s.collect (.account (ds ++ [d.val])) else s.ignoreKey
  | .enter => if ds.isEmpty then s.invalid else s.endKeys.formSelected (.payAccount ds.length (digitsValue ds))
  | _ => s.ignoreKey

def State.printKey (s : State) (ds : List Nat) : Key → State
  | .digit d => if ds.length < 4 then s.collect (.print (ds ++ [d.val])) else s.ignoreKey
  | .enter => s.endKeys.takePrint (digitsValue ds)
  | _ => s.ignoreKey

/-- Digits a function takes at most (Table 10-1). -/
def functionDigits : Nat → Nat
  | 1 => 4
  | 2 => 12
  | 9 => 4
  | _ => 0

/-- The digits that name a function (Table 10-1). -/
def isFunction (n : Nat) : Bool := [1, 2, 3, 4, 5, 8, 9].contains n

/-- ENTER after FUNCTION n and its digits. FUNCTION 9 returns to the normal display whatever was entered (R106). -/
def State.enterFunction (s : State) (n : Nat) (ds : List Nat) : State :=
  match n with
  | 1 => if ds.isEmpty then s.invalid else s.endKeys.takeOpenKeyed (digitsValue ds)
  | 2 =>
    if ds.length < 12 then s.invalid
    else
      let field (i k : Nat) : Nat := digitsValue ((ds.drop i).take k)
      s.endKeys.takeClockSetting (field 0 4) (field 4 2) (field 6 2) (field 8 2) (field 10 2)
  | 3 => s.endKeys.takeLampTest
  | 4 => s.endKeys.takeServicePage
  | 5 => s.endKeys.takeLastReport
  | 8 => s.endKeys.takeForcedClose
  | 9 => if ds.length < 4 then s.endKeys else s.endKeys.clearLatch ds
  | _ => s.ignoreKey

/-- Keys after FUNCTION; ENTER before its digit is ignored (R171, log entry 49). -/
def State.functionKey (s : State) (n : Option Nat) (ds : List Nat) : Key → State
  | .digit d =>
    match n with
    | none => if isFunction d.val then s.collect (.function (some d.val) []) else s.ignoreKey
    | some f => if ds.length < functionDigits f then s.collect (.function (some f) (ds ++ [d.val])) else s.ignoreKey
  | .enter =>
    match n with
    | none => s.ignoreKey
    | some f => s.enterFunction f ds
  | _ => s.ignoreKey

/-- A key of an open sequence other than CLEAR (R171). -/
def State.seqKey (s : State) (k : Key) : State :=
  match s.console.keys with
  | .idle => s.idleKey k
  | .select =>
    match k with
    | .digit d => s.selectDigit d
    | _ => s.ignoreKey
  | .hire kind party => s.hireKey kind party k
  | .extra code amount => s.extraKey code amount k
  | .pay => s.payKey k
  | .cash ds => s.cashKey ds k
  | .account ds => s.accountKey ds k
  | .print ds => s.printKey ds k
  | .function n ds => s.functionKey n ds k

def State.pressKey (s : State) (k : Key) : State := if k = .clear then s.takeClear else s.seqKey k

/-! ### The commands for keys and completed sequences -/

/-- A key event: keys are taken at station 0 and not in LOW (R171, R179). -/
def keyEvent (f : State → State) (s : State) : Host.Outcome State Fault Refusal :=
  event (fun s => if s.keysTaken then f s else s) s

/-- A completed sequence as one event, from the idle state or from its own open sequence (log entry 17). -/
def sequenceEvent (own : KeySeq → Bool) (f : State → State) (s : State) : Host.Outcome State Fault Refusal :=
  keyEvent (fun s => if s.console.keys = .idle ∨ own s.console.keys then f s.endKeys else s) s

/-- No longer sequence leads to a single key. -/
def alone (_ : KeySeq) : Bool := false

/-- The open sequence is FUNCTION with this number. -/
def isFunctionSeq (n : Nat) : KeySeq → Bool
  | .function m _ => m == some n
  | _ => false

/-- The open sequence that a command sequence completes (Table 10-1). -/
def cmdSeq (cmd : Cmd) (k : KeySeq) : Bool :=
  match cmd, k with
  | .hire kind _, .hire k _ => kind == k
  | .extra _ _, .extra _ _ => true
  | .extraRemove, .extra _ _ => true
  | .cardCancel, .pay => true
  | .payCash _, .cash _ => true
  | .payAccount _ _, .account _ => true
  | _, _ => false

/-- The commands that a key sequence forms; the intercom's are formed by TALK and ANNOUNCE (R176). -/
def cmdKeyed : Cmd → Bool
  | .connect => false
  | .disconnect => false
  | .listen => false
  | .listenEnd => false
  | _ => true

/-- KEY_PRESS (R171). -/
def execKeyPress (key : Key) (s : State) : Host.Outcome State Fault Refusal := keyEvent (fun s => s.pressKey key) s

/-- CLEAR (R171, R177). -/
def execClear (s : State) : Host.Outcome State Fault Refusal := keyEvent State.takeClear s

/-- KEY_SEQUENCE_TIMEOUT (R171). -/
def execKeySequenceTimeout (s : State) : Host.Outcome State Fault Refusal :=
  event (fun s =>
    if s.console.keyTimer.isSome then s.onConsole fun c => { c with keys := .idle, keyTimer := none } else s) s

/-- SELECT with a digit (R172). -/
def execSelect (d : Fin 10) (s : State) : Host.Outcome State Fault Refusal :=
  sequenceEvent (fun k => k == .select) (fun s => s.selectDigit d) s

/-- COMMAND_SEQUENCE (R173). -/
def execCommandSequence (cmd : Cmd) (s : State) : Host.Outcome State Fault Refusal :=
  sequenceEvent (cmdSeq cmd) (fun s => if cmdKeyed cmd then s.formSelected cmd else s) s

/-- TALK_KEY (R113). -/
def execTalkKey (s : State) : Host.Outcome State Fault Refusal := sequenceEvent alone State.takeTalk s

/-- ANNOUNCE_PRESS (R117). -/
def execAnnouncePress (s : State) : Host.Outcome State Fault Refusal := sequenceEvent alone State.takeAnnounce s

/-- CLOSE_KEY (R158). -/
def execCloseKey (s : State) : Host.Outcome State Fault Refusal := sequenceEvent alone State.takeClose s

/-- SHIFT_OPEN_KEYED (R150). -/
def execShiftOpenKeyed (driver : Nat) (s : State) : Host.Outcome State Fault Refusal :=
  sequenceEvent (isFunctionSeq 1) (fun s => s.takeOpenKeyed driver) s

/-- CLOCK_SETTING (R60). -/
def execClockSetting (year month day hour minute : Nat) (s : State) : Host.Outcome State Fault Refusal :=
  sequenceEvent (isFunctionSeq 2) (fun s => s.takeClockSetting year month day hour minute) s

/-- LAMP_TEST (R99). -/
def execLampTest (s : State) : Host.Outcome State Fault Refusal :=
  sequenceEvent (isFunctionSeq 3) State.takeLampTest s

/-- SERVICE_PAGE (R177). -/
def execServicePage (s : State) : Host.Outcome State Fault Refusal :=
  sequenceEvent (isFunctionSeq 4) State.takeServicePage s

/-- LAST_REPORT (R180). -/
def execLastReport (s : State) : Host.Outcome State Fault Refusal :=
  sequenceEvent (isFunctionSeq 5) State.takeLastReport s

/-- FORCED_CLOSE (R166). -/
def execForcedClose (s : State) : Host.Outcome State Fault Refusal :=
  sequenceEvent (isFunctionSeq 8) State.takeForcedClose s

/-- DISTRESS_CLEAR (R106). -/
def execDistressClear (d0 d1 d2 d3 : Fin 10) (s : State) : Host.Outcome State Fault Refusal :=
  sequenceEvent (isFunctionSeq 9) (fun s => s.clearLatch [d0.val, d1.val, d2.val, d3.val]) s

/-- The open sequence is PRINT. -/
def isPrintSeq : KeySeq → Bool
  | .print _ => true
  | _ => false

/-- PRINT (R180). -/
def execPrint (hireNo : Nat) (s : State) : Host.Outcome State Fault Refusal :=
  sequenceEvent isPrintSeq (fun s => s.takePrint hireNo) s

/-! ### Replies, limits and deferred commands (R174, R176) -/

/-- REPLY_RECEIVED (R174, R115): station 0 takes a REPLY whose target is 0 (R6). -/
def execReplyReceived (sender target : Addr) (seq : Nat) (result : Reply) (s : State) :
    Host.Outcome State Fault Refusal :=
  frameEvent sender
    (fun s => s.atConsole fun s => if target = 0 then s.consoleReply sender seq result else s) s

/-- REPLY_LIMIT_EXPIRY (R174, R115). -/
def execReplyLimitExpiry (target : Addr) (s : State) : Host.Outcome State Fault Refusal :=
  event (fun s =>
    if ((s.console.cmds.get target).bind (·.limit)).isSome then s.noAnswer target else s) s

/-- The oldest deferred command of a target with nothing pending is formed (R176); a LISTEN so offered counts as
offered (R117). -/
def State.offerDeferred (s : State) (t : Addr) : State :=
  match s.console.cmds.get t, s.console.deferred.get t with
  | none, cmd :: rest =>
    let s := (s.onConsole fun c => { c with deferred := c.deferred.set t rest }).giveCommand t cmd
    if cmd = .listen then s.onIntercom fun i => { i with announced := i.announced ++ [t] } else s
  | _, _ => s

/-- DEFERRED_COMMAND_OFFER (R176). -/
def execDeferredCommandOffer (target : Addr) (s : State) : Host.Outcome State Fault Refusal :=
  event (fun s => s.offerDeferred target) s

end Sys2Proof.Machine
end

