-- ==== Sys2Proof/Machine/Hire.lean ====
section
/-! DEFINITION. The commands and events of the hire controller (chapter 1): HIRE to UNPAID, CLAIM and OBJECT frames, the
end of the claim window, the resume timer and the deferred late close. -/
namespace Sys2Proof.Machine
open Sys2Proof

/-! ### HIRE (R7, R8) -/

/-- The first check of R7 that fails. -/
def State.hireRefusal (s : State) (kind : Kind) (party : Nat) : Option Reason :=
  if s.shift.state = .offShift then some .offShift
  else if s.shift.state = .closing then some .closing
  else if s.image.isNone then some .noTariff
  else if !s.identityOk then some .tariffMismatch
  else if !s.clock.isSet then some .clockUnset
  else if s.straps.capacity = 0 then some .noCapacity
  else if party < 1 ∨ s.straps.capacity < party then some .partyRange
  else if !s.hire.slot.isFree then some .wrongState
  else if s.silent then some .linkSilent
  else if s.interlocked kind then some .vehicleEngaged
  else none

def State.takeHire (s : State) (src : Source) (seq : Nat) (kind : Kind) (party : Nat) : State :=
  match s.hireRefusal kind party with
  | some r => s.refuse src seq r
  | none => s.openClaim kind party seq src

/-- HIRE (R7, R8): refused with the first failing check, or a claim opened with its CLAIM offered and no reply yet. -/
def execHire (src : Source) (seq : Nat) (kind : Kind) (party : Nat) (s : State) : Host.Outcome State Fault Refusal :=
  commandEvent src seq (fun s => s.takeHire src seq kind party) s

/-! ### STOP and RESUME (R15, R16) -/

def State.takeStop (s : State) (src : Source) (seq : Nat) : State :=
  match s.hire.slot with
  | .hired h =>
    let h' := h.mapRec fun r => { r.fixDue h.snap.band.fmin with stop := some s.clock.seconds }
    let s := (s.onHire fun c => { c with slot := .stopped h', resume := startTimer (sec 60), tally := 0 }).hireChanged
    (s.sayHireEvent (.stop h.rc.no (h'.rc.due.getD 0))).replyTo src seq .done
  | .free => s.refuse src seq .wrongState
  | .claiming _ => s.refuse src seq .wrongState
  | .stopped _ => s.refuse src seq .wrongState
  | .paying _ => s.refuse src seq .wrongState

/-- STOP (R15, R39). -/
def execStop (src : Source) (seq : Nat) (s : State) : Host.Outcome State Fault Refusal :=
  commandEvent src seq (fun s => s.takeStop src seq) s

def State.takeResume (s : State) (src : Source) (seq : Nat) : State :=
  match s.hire.slot with
  | .stopped h =>
    if s.hire.resume.isNone then s.refuse src seq .resumeTooLate
    else
      let h' := h.mapRec HireRecord.unfixDue
      let s := (s.onHire fun c => { c with slot := .hired h', resume := none, tally := 0 }).hireChanged
      (s.sayHireEvent (.start h.rc.no h.rc.kind)).replyTo src seq .done
  | .free => s.refuse src seq .wrongState
  | .claiming _ => s.refuse src seq .wrongState
  | .hired _ => s.refuse src seq .wrongState
  | .paying _ => s.refuse src seq .wrongState

/-- RESUME (R16). -/
def execResume (src : Source) (seq : Nat) (s : State) : Host.Outcome State Fault Refusal :=
  commandEvent src seq (fun s => s.takeResume src seq) s

/-! ### CANCEL and UNPAID (R17, R20) -/

def State.takeCancel (s : State) (src : Source) (seq : Nat) : State :=
  match s.hire.slot with
  | .hired h =>
    if h.inGrace then (s.closeHire h .cancelled).replyTo src seq .done else s.refuse src seq .cancelTooLate
  | .free => s.refuse src seq .wrongState
  | .claiming _ => s.refuse src seq .wrongState
  | .stopped _ => s.refuse src seq .wrongState
  | .paying _ => s.refuse src seq .wrongState

/-- CANCEL (R17). -/
def execCancel (src : Source) (seq : Nat) (s : State) : Host.Outcome State Fault Refusal :=
  commandEvent src seq (fun s => s.takeCancel src seq) s

/-- The record of an UNPAID hire before its close: the tip lowered, the unpaid amount set (R20). -/
def HireRecord.leaveUnpaid (r : HireRecord) : HireRecord :=
  let tip := r.tip.map fun t => min t (r.appliedSum - r.due.getD 0)
  { r with tip := tip, unpaid := some (r.due.getD 0 + tip.getD 0 - r.appliedSum) }

def State.closeUnpaid (s : State) (h : Hire) (src : Source) (seq : Nat) : State :=
  if s.pay.session.active then s.refuse src seq .paymentActive
  else (s.closeHire (h.mapRec HireRecord.leaveUnpaid) .unpaid).replyTo src seq .done

def State.takeUnpaid (s : State) (src : Source) (seq : Nat) : State :=
  match s.hire.slot with
  | .stopped h => s.closeUnpaid h src seq
  | .paying h => s.closeUnpaid h src seq
  | .free => s.refuse src seq .wrongState
  | .claiming _ => s.refuse src seq .wrongState
  | .hired _ => s.refuse src seq .wrongState

/-- UNPAID (R20). -/
def execUnpaid (src : Source) (seq : Nat) (s : State) : Host.Outcome State Fault Refusal :=
  commandEvent src seq (fun s => s.takeUnpaid src seq) s

/-! ### EXTRA and EXTRA_REMOVE (R18, R41, R42) -/

/-- New extras in HIRED: the running amount follows from them (R38). -/
def State.extrasHired (s : State) (h : Hire) (extras : List (Nat × Nat)) : State :=
  (s.onHire fun c => { c with slot := .hired (h.mapRec fun r => { r with extras := extras }) }).hireChanged

/-- New extras in STOPPED: the due again, and HIRE_STOP with it (R15, R40). -/
def State.extrasStopped (s : State) (h : Hire) (extras : List (Nat × Nat)) : State :=
  let h' := h.mapRec fun r => ({ r with extras := extras }).refixDue
  ((s.onHire fun c => { c with slot := .stopped h' }).hireChanged).sayHireEvent
    (.stop h.rc.no (h'.rc.due.getD 0))

def State.takeExtra (s : State) (src : Source) (seq code amount : Nat) : State :=
  match s.hire.slot with
  | .hired h =>
    match checkExtra s.image h.rc false code amount with
    | .error r => s.refuse src seq r
    | .ok a => (s.extrasHired h (h.rc.extras ++ [(code, a)])).replyTo src seq .done
  | .stopped h =>
    match checkExtra s.image h.rc true code amount with
    | .error r => s.refuse src seq r
    | .ok a => (s.extrasStopped h (h.rc.extras ++ [(code, a)])).replyTo src seq .done
  | .free => s.refuse src seq .wrongState
  | .claiming _ => s.refuse src seq .wrongState
  | .paying _ => s.refuse src seq .wrongState

/-- EXTRA (R41, R42). -/
def execExtra (src : Source) (seq code amount : Nat) (s : State) : Host.Outcome State Fault Refusal :=
  commandEvent src seq (fun s => s.takeExtra src seq code amount) s

def State.takeExtraRemove (s : State) (src : Source) (seq : Nat) : State :=
  match s.hire.slot with
  | .hired h =>
    if h.rc.extras.isEmpty then s.refuse src seq .wrongState
    else (s.extrasHired h h.rc.extras.dropLast).replyTo src seq .done
  | .stopped h =>
    if h.rc.extras.isEmpty then s.refuse src seq .wrongState
    else (s.extrasStopped h h.rc.extras.dropLast).replyTo src seq .done
  | .free => s.refuse src seq .wrongState
  | .claiming _ => s.refuse src seq .wrongState
  | .paying _ => s.refuse src seq .wrongState

/-- EXTRA_REMOVE (R18). -/
def execExtraRemove (src : Source) (seq : Nat) (s : State) : Host.Outcome State Fault Refusal :=
  commandEvent src seq (fun s => s.takeExtraRemove src seq) s

/-! ### CLAIM and OBJECT frames (R9 to R12, R175) -/

def State.takeClaim (s : State) (sender : Addr) (kind : Kind) (seq : Nat) : State :=
  let s := if s.isConsole then s.markClaiming sender seq else s
  match s.hire.slot with
  | .free => s
  | .claiming c =>
    if kind = .exclusive ∨ c.kind = .exclusive then
      if s.addr < sender then s.sendObject sender else s.endClaim c .claimLost
    else s
  | .hired h => if kind = .exclusive ∨ h.rc.kind = .exclusive then s.sendObject sender else s
  | .stopped h => if kind = .exclusive ∨ h.rc.kind = .exclusive then s.sendObject sender else s
  | .paying h => if kind = .exclusive ∨ h.rc.kind = .exclusive then s.sendObject sender else s

/-- CLAIM_RECEIVED (R10 to R12, R175); the party of a claim concerns no receiver. -/
def execClaimReceived (sender : Addr) (kind : Kind) (_party seq : Nat) (s : State) :
    Host.Outcome State Fault Refusal :=
  frameEvent sender (fun s => s.takeClaim sender kind seq) s

def State.takeObject (s : State) (target : Addr) : State :=
  match s.hire.slot with
  | .claiming c => if target = s.addr ∧ c.window.isSome then s.endClaim c .claimLost else s
  | .free => s
  | .hired _ => s
  | .stopped _ => s
  | .paying _ => s

/-- OBJECT_RECEIVED (R9). -/
def execObjectReceived (sender target : Addr) (s : State) : Host.Outcome State Fault Refusal :=
  frameEvent sender (fun s => s.takeObject target) s

/-! ### Timers of the hire controller -/

def State.takeWindowEnd (s : State) : State :=
  match s.hire.slot with
  | .claiming c => if c.window.isSome then s.endWindow c else s
  | .free => s
  | .hired _ => s
  | .stopped _ => s
  | .paying _ => s

/-- CLAIM_WINDOW_END (R13). -/
def execClaimWindowEnd (s : State) : Host.Outcome State Fault Refusal := event State.takeWindowEnd s

/-- LATE_CLOSE (R153); every event also carries a pending late close out as soon as it may (log entry 21). -/
def execLateClose (s : State) : Host.Outcome State Fault Refusal := event State.lateCloseIfDue s

/-- RESUME_TIMER_EXPIRY (R16): the resume window closes. -/
def execResumeTimerExpiry (s : State) : Host.Outcome State Fault Refusal :=
  event (fun s => s.onHire fun h => { h with resume := none }) s

end Sys2Proof.Machine
end

