-- ==== Sys2Proof/Machine/Link.lean ====
section
/-! DEFINITION. The line events of the link controller (R73 to R82, R90) and what its sent reports start (R79). -/
namespace Sys2Proof.Machine
open Sys2Proof

/-! ### Beginning a frame (R77, R80) -/

/-- The head of the queue begins. -/
def Link.beginHead (l : Link) : Link :=
  match l.queue with
  | [] => l
  | e :: es => { l with queue := { e with begun := true } :: es }

/-- The idle line: the head begins, but a frame other than DISTRESS waits out the fairness pause at a count of 6. The
pause begins at the LINE_IDLE that finds the frame queued (log entry 44). -/
def Link.idle (l : Link) : Link :=
  let l := { l with synced := true, pause := none }
  if l.queue.any (·.begun) then l
  else match l.queue with
    | [] => l
    | e :: _ => if 6 ≤ l.fairness ∧ e.cls ≠ 0 then { l with pause := startTimer (ms 2) } else l.beginHead

/-- LINE_IDLE (R73, R77, R80). -/
def execLineIdle (s : State) : Host.Outcome State Fault Refusal := event (fun s => s.onLink Link.idle) s

/-- The fairness pause is over: the line reports that it has stayed idle through the 2 ms, which no frame of another station
under way lets it report (log entry 44). The next frame begins and the count returns to 0; a DISTRESS frame passes the
pause over and leaves the count (R77, R80). -/
def Link.endPause (l : Link) : Link :=
  if l.pause.isSome then
    let l := { l with pause := none }
    if l.synced then
      match l.queue with
      | [] => l
      | e :: _ => if e.cls = 0 then l.beginHead else { l.beginHead with fairness := 0 }
    else l
  else l

/-- FAIRNESS_PAUSE_END (R80). -/
def execFairnessPauseEnd (s : State) : Host.Outcome State Fault Refusal := event (fun s => s.onLink Link.endPause) s

/-! ### Attempts that end unsent (R77, R78, R82) -/

/-- The entry in flight, if any. -/
def Link.flying (l : Link) : Option Entry := l.queue.find? (·.begun)

/-- The attempt ends: the entry stays queued, and a pending payload takes its place (R82). -/
def Link.attemptEnds (l : Link) : Link :=
  let back (e : Entry) : Entry :=
    if e.begun then
      { e with begun := false, payload := match l.repl with
          | some r => r.payload
          | none => e.payload }
    else e
  { l with queue := l.queue.map back, repl := none }

/-- ARBITRATION_LOST (R77). -/
def execArbitrationLost (s : State) : Host.Outcome State Fault Refusal :=
  event (fun s => s.onLink Link.attemptEnds) s

/-- TRANSMIT_ABORT (R78). -/
def execTransmitAbort (s : State) : Host.Outcome State Fault Refusal :=
  event (fun s => s.onLink Link.attemptEnds) s

/-! ### The sent report (R79) -/

/-- The CLAIM has been sent: the claim window starts, and a local HIRE is marked as claiming (R8, R175). -/
def State.claimSent (s : State) (id : Nat) : State :=
  match s.hire.slot with
  | .claiming c =>
    if c.id = id ∧ !c.sent then
      let s' := s.onHire fun h => { h with slot := .claiming { c with sent := true, window := startTimer (ms 300) } }
      if s.isConsole then s'.markClaiming 0 c.seq else s'
    else s
  | .free => s
  | .hired _ => s
  | .stopped _ => s
  | .paying _ => s

/-- The COMMAND has been sent: its reply limit starts (R173), unless a CLAIM has marked the entry already, whose 500 ms run on
(R175, log entry 62). -/
def State.commandSent (s : State) (t : Addr) (seq : Nat) : State :=
  match s.console.cmds.get t with
  | some p =>
    if p.seq = seq ∧ !p.claiming then
      s.onConsole fun c => { c with cmds := c.cmds.set t (some { p with limit := startTimer (ms 200) }) }
    else s
  | none => s

/-- The RECORD_QUERY has been sent: the part limit starts (R185). -/
def State.querySent (s : State) (gen : Nat) : State :=
  match s.print.transfer with
  | some t =>
    if t.gen = gen ∧ t.st = .opened then
      s.onPrint fun p => { p with transfer := some { t with limit := startTimer (ms 200) } }
    else s
  | none => s

/-- A RECORD_PART has been sent: the next one is offered, or the transfer is over (R186). -/
def State.partSent (s : State) (gen k : Nat) : State :=
  match s.print.serve with
  | some t =>
    if t.gen = gen ∧ t.k = k then
      if k + 1 < t.parts.length then
        (s.onPrint fun p => { p with serve := some { t with k := k + 1 } }).offer .recordPart
      else s.onPrint fun p => { p with serve := none }
    else s
  | none => s

/-- The report "sent" to the block that offered the frame (R79). -/
def State.sentReport (s : State) : Tag → State
  | .claim id => s.claimSent id
  | .command t seq => s.commandSent t seq
  | .shiftCall => s.callSent
  | .summary gen k => s.summarySent gen k
  | .lateSummary gen k => s.lateSummarySent gen k
  | .recordQuery gen => s.querySent gen
  | .recordPart gen k => s.partSent gen k
  | .distress => s
  | .object _ => s
  | .reply => s
  | .hireEvent => s
  | .intercomEvent => s
  | .shiftFrame => s
  | .beacon => s

/-- The entry in flight leaves the queue; all but DISTRESS count toward the fairness pause (R79, R80). -/
def Link.dropFlying (l : Link) (e : Entry) : Link :=
  { l with queue := l.queue.filter fun x => !x.begun, repl := none
           fairness := if e.cls = 0 then l.fairness else min 6 (l.fairness + 1) }

/-- A pending replacement is a new offer once its frame has been sent; a pending refresh is discarded (R82). -/
def State.offerRepl (s : State) (e : Entry) : Option Repl → State
  | some r =>
    if r.refresh then s
    else match s.link.offer s.now e.cls r.payload e.tag with
      | some l => s.onLink fun _ => l
      | none => s
  | none => s

def State.takeSent (s : State) : State :=
  match s.link.flying with
  | some e =>
    let repl := s.link.repl
    (((s.onLines fun l => { l with cab := cabFrame e.cls s.addr e.payload }).onLink fun l => l.dropFlying e).offerRepl
      e repl).sentReport e.tag
  | none => s

/-- FRAME_SENT (R79). -/
def execFrameSent (s : State) : Host.Outcome State Fault Refusal := event State.takeSent s

/-! ### Frames that do not complete, and the clash -/

/-- TRUNCATED_FRAME (R75): the frame is dropped, and a fairness pause is cut by it. After 11 recessive bit times the line
is idle; after a dominant stop bit or a length above 12 the station waits to see the line idle. -/
def execTruncatedFrame (cause : Truncation) (s : State) : Host.Outcome State Fault Refusal :=
  event (fun s => s.cutPause.onLink fun l => { l with synced := l.synced && cause == .recessive }) s

/-- ADDRESS_CLASH (R80, R90, R91): a good frame with the own address that the station did not send. -/
def execAddressClash (s : State) : Host.Outcome State Fault Refusal :=
  event (fun s => s.hear s.addr fun t => t) s

end Sys2Proof.Machine
end

