-- ==== Sys2Proof/Machine/Payment.lean ====
section
/-! DEFINITION. The commands and events of the payment controller (chapter 8): PAY_CASH, PAY_ACCOUNT, PAY_CARD,
CARD_CANCEL, the tip step with the passenger buttons (R121, R133, R134), and its timers. -/
namespace Sys2Proof.Machine
open Sys2Proof

/-! ### Cash and account (R144, R145) -/

/-- The checks that PAY_CASH, PAY_ACCOUNT and PAY_CARD share (R131, R144). -/
def State.payRefusal (s : State) (h : Hire) : Option Reason :=
  if s.pay.session.active then some .paymentActive
  else if 3 ≤ h.rc.tenders.length then some .wrongState
  else none

/-- A payment command by the state gate of Table 1-3: STOPPED and PAYING go on to its checks. -/
def State.payGate (s : State) (src : Source) (seq : Nat) (f : Hire → State) : State :=
  match s.hire.slot with
  | .stopped h => f h
  | .paying h => f h
  | .free => s.refuse src seq .wrongState
  | .claiming _ => s.refuse src seq .wrongState
  | .hired _ => s.refuse src seq .wrongState

/-- A payment command for an engaged hire: the shared checks, settlement of a hire with nothing remaining, then `f`
(R131, R144 to R146). -/
def State.takePayment (s : State) (src : Source) (seq : Nat) (f : Hire → State) : State :=
  s.payGate src seq fun h =>
    match s.payRefusal h with
    | some r => s.refuse src seq r
    | none => if h.rc.remaining = 0 then s.settleNow.replyTo src seq .done else f h

/-- A tender is asked for: the slot moves to PAYING and the tender is applied (R19, R144, R145). -/
def State.tender (s : State) (t : Tender) : State := (s.toPaying.hireChanged).applyTender t

def State.takeCash (s : State) (src : Source) (seq tendered : Nat) : State :=
  s.takePayment src seq fun h =>
    if tendered < 1 ∨ 999999 < tendered then s.refuse src seq .amountRange
    else
      let applied := min tendered h.rc.remaining
      let change := tendered - applied
      ((s.tender (.cash applied tendered change)).showChange change).replyTo src seq .done

/-- PAY_CASH (R144). -/
def execPayCash (src : Source) (seq tendered : Nat) (s : State) : Host.Outcome State Fault Refusal :=
  commandEvent src seq (fun s => s.takeCash src seq tendered) s

def State.takeAccount (s : State) (src : Source) (seq digits number : Nat) : State :=
  s.takePayment src seq fun h =>
    if digits < 1 ∨ 8 < digits then s.refuse src seq .amountRange
    else (s.tender (.account h.rc.remaining digits number)).replyTo src seq .done

/-- PAY_ACCOUNT (R145). -/
def execPayAccount (src : Source) (seq digits number : Nat) (s : State) : Host.Outcome State Fault Refusal :=
  commandEvent src seq (fun s => s.takeAccount src seq digits number) s

/-! ### Card (R131, R140) -/

/-- The module state lets a card session begin, and a currency code is held (R131). -/
def Card.available (c : Card) : Bool :=
  c.currency.isSome && match c.moduleState with
    | .ready => true
    | .cardWait => true
    | .processing => true
    | .notFitted => false
    | .unknown => false
    | .outOfService => false
    | .absent => false

/-- A PAY_CARD that is taken begins a session (R131, R132). It counts as a change of the hire for the passenger display, also
where the slot is PAYING already (log entry 28). -/
def State.takeCard (s : State) (src : Source) (seq : Nat) : State :=
  s.takePayment src seq fun h =>
    if !s.card.available then s.refuse src seq .cardUnavailable
    else if 4 ≤ s.pay.reversals.length then s.refuse src seq .cardBlocked
    else ((s.toPaying.hireChanged).beginSession h).replyTo src seq .done

/-- PAY_CARD (R131, R132). -/
def execPayCard (src : Source) (seq : Nat) (s : State) : Host.Outcome State Fault Refusal :=
  commandEvent src seq (fun s => s.takeCard src seq) s

/-- CARD_CANCEL of an active session (R134, R140); a PAY whose bytes are leaving counts as sent (log entry 20). -/
def State.cancelSession (s : State) : State :=
  match s.pay.session with
  | .none => s
  | .tipSelect _ => s.endQuietly
  | .cardWait q => if q.txn.isNone then s.endQuietly else s.requestCancel
  | .enquiry _ => s.requestCancel

def State.takeCardCancel (s : State) (src : Source) (seq : Nat) : State :=
  match s.hire.slot with
  | .paying _ =>
    if s.pay.session.active then s.cancelSession.replyTo src seq .done else s.refuse src seq .wrongState
  | .free => s.refuse src seq .wrongState
  | .claiming _ => s.refuse src seq .wrongState
  | .hired _ => s.refuse src seq .wrongState
  | .stopped _ => s.refuse src seq .wrongState

/-- CARD_CANCEL (R134, R140). -/
def execCardCancel (src : Source) (seq : Nat) (s : State) : Host.Outcome State Fault Refusal :=
  commandEvent src seq (fun s => s.takeCardCancel src seq) s

/-! ### Passenger buttons (R121, R133, R134) -/

/-- The volume as set, shown for 3 s where it changed (R121, R178). -/
def State.setVolume (s : State) (v : Nat) : State :=
  if v = s.intercom.volume then s
  else (s.onIntercom fun i => { i with volume := v }).onDisplay fun d => { d with volumeTimer := startTimer (sec 3) }

/-- The tip options of the held image (R72). -/
def State.tipOptions (s : State) : List Nat := (s.image.map (·.tips)).getD []

def State.pressUp (s : State) : State :=
  match s.pay.session with
  | .tipSelect c => s.onPay fun p => { p with session := .tipSelect (c - 1) }
  | .none => s.setVolume (min 7 (s.intercom.volume + 1))
  | .cardWait _ => s.setVolume (min 7 (s.intercom.volume + 1))
  | .enquiry _ => s.setVolume (min 7 (s.intercom.volume + 1))

/-- PASSENGER_UP (R121, R133). -/
def execPassengerUp (s : State) : Host.Outcome State Fault Refusal :=
  event (fun s => s.withButtons State.pressUp) s

def State.pressDown (s : State) : State :=
  match s.pay.session with
  | .tipSelect c => s.onPay fun p => { p with session := .tipSelect (min (c + 1) (s.tipOptions.length - 1)) }
  | .none => s.setVolume (s.intercom.volume - 1)
  | .cardWait _ => s.setVolume (s.intercom.volume - 1)
  | .enquiry _ => s.setVolume (s.intercom.volume - 1)

/-- PASSENGER_DOWN (R121, R133). -/
def execPassengerDown (s : State) : Host.Outcome State Fault Refusal :=
  event (fun s => s.withButtons State.pressDown) s

def State.pressOk (s : State) : State :=
  match s.pay.session with
  | .tipSelect c => s.storeTip (s.tipOptions.getD c 0)
  | .none => s
  | .cardWait _ => s
  | .enquiry _ => s

/-- PASSENGER_OK (R121, R134). -/
def execPassengerOk (s : State) : Host.Outcome State Fault Refusal :=
  event (fun s => s.withButtons State.pressOk) s

/-! ### Timers of the payment controller and the passenger display -/

def State.tipExpires (s : State) : State :=
  match s.pay.session with
  | .tipSelect _ => s.storeTip 0
  | .none => s
  | .cardWait _ => s
  | .enquiry _ => s

/-- TIP_TIMER_EXPIRY (R134): a tip of 0 percent. -/
def execTipTimerExpiry (s : State) : Host.Outcome State Fault Refusal := event State.tipExpires s

/-- OVERALL_TIMER_EXPIRY (R140). -/
def execOverallTimerExpiry (s : State) : Host.Outcome State Fault Refusal :=
  event (fun s =>
    if s.pay.overall.isSome then (s.onPay fun p => { p with overall := none }).requestCancel else s) s

/-- OUTCOME_DISPLAY_EXPIRY (R178). -/
def execOutcomeDisplayExpiry (s : State) : Host.Outcome State Fault Refusal :=
  event (fun s => if s.display.timer.isSome then s.hireChanged else s) s

/-- VOLUME_DISPLAY_EXPIRY (R178). -/
def execVolumeDisplayExpiry (s : State) : Host.Outcome State Fault Refusal :=
  event (fun s => s.onDisplay fun d => { d with volumeTimer := none }) s

end Sys2Proof.Machine
end

