-- ==== Sys2Proof/Machine/Peer.lean ====
section
/-! DEFINITION. The peer monitor's events (R84 to R89): hire events, beacons with what follows from them (R14, R58, R123,
R151, R177), the ageing of rows, the beacon period, and the DISTRESS frame (R105). -/
namespace Sys2Proof.Machine
open Sys2Proof

/-! ### Hire events (R88) -/

/-- Set the override of a present row, and test for conflict (R86, R88). -/
def State.override (s : State) (sender : Addr) (f : Option Override → Override) : State :=
  let r := s.peer.rows.get sender
  if r.present then
    (s.onPeer fun p => { p with rows := p.rows.set sender { r with ovr := some (f r.ovr) } }).conflictTest
  else s

/-- HIRE_START_RECEIVED (R88). -/
def execHireStartReceived (sender : Addr) (_hireNo : Nat) (kind : Kind) (s : State) :
    Host.Outcome State Fault Refusal :=
  frameEvent sender (fun s => s.override sender fun _ => { state := .hired, kind := some kind, due := none }) s

/-- HIRE_STOP_RECEIVED (R88): the kind stays as an earlier override gives it. -/
def execHireStopReceived (sender : Addr) (_hireNo due : Nat) (s : State) : Host.Outcome State Fault Refusal :=
  frameEvent sender
    (fun s => s.override sender fun o => { state := .stopped, kind := o.bind (·.kind), due := some due }) s

/-- HIRE_CLOSED_RECEIVED (R88). -/
def execHireClosedReceived (sender : Addr) (_hireNo : Nat) (_outcome : HireOutcome) (s : State) :
    Host.Outcome State Fault Refusal :=
  frameEvent sender (fun s => s.override sender fun _ => { state := .free, kind := none, due := some 0 }) s

/-! ### Beacons -/

/-- The beacon is stored in its row (R86). -/
def State.storeBeacon (s : State) (sender : Addr) (b : Beacon) : State :=
  let row : PeerRow := { present := true, age := 0, ever := true, beacon := some b, ovr := none }
  s.onPeer fun p => { p with rows := p.rows.set sender row }

/-- The privacy indication of a seat follows its beacons (R177). -/
def State.beaconPrivacy (s : State) (sender : Addr) (b : Beacon) : State :=
  s.onConsole fun c => { c with privacyInd := c.privacyInd.set sender b.privacy }

/-- A seat that has not joined the shift is sent a repeat of SHIFT_OPEN, at most one in 1000 ms (R151). -/
def State.repeatOpen (s : State) (b : Beacon) : State :=
  if s.shift.state = .onShift ∧ (b.shiftState = .offShift ∨ b.shiftNo ≠ s.shift.number)
      ∧ s.shift.repeatGuard.isNone ∧ !s.silent then
    (s.onShift fun sh => { sh with repeatGuard := startTimer (ms 1000) }).offer .shiftRepeat
  else s

/-- What station 0 does with a seat's beacon: the first time the row becomes present since the start a DISCONNECT falls
due (R123), the privacy indication (R177) and the repeat of SHIFT_OPEN (R151). -/
def State.consoleBeacon (s : State) (sender : Addr) (firstSeen : Bool) (b : Beacon) : State :=
  let s := s.beaconPrivacy sender b
  let s := if firstSeen then s.dueCommand sender .disconnect else s
  s.repeatOpen b

/-- The two seconds values differ by more than 2 s (R58). -/
def farApart (a b : Nat) : Bool := a + 2 < b || b + 2 < a

/-- A seat follows station 0's clock (R58). -/
def Clock.follow (c : Clock) (b : Beacon) : Clock :=
  if b.clockSet then
    if farApart c.seconds b.role.toNat then { seconds := b.role.toNat, phase := 0, isSet := true }
    else { c with isSet := true }
  else { c with isSet := false }

def State.takeBeacon (s : State) (sender : Addr) (b : Beacon) : State :=
  let firstSeen := !(s.peer.rows.get sender).ever
  let s := (s.storeBeacon sender b).conflictTest
  if s.isConsole then s.consoleBeacon sender firstSeen b
  else if sender = 0 then s.onClock fun c => c.follow b
  else s

/-- BEACON_RECEIVED (R86, R14, R58, R123, R151). -/
def execBeaconReceived (sender : Addr) (content : Beacon) (s : State) : Host.Outcome State Fault Refusal :=
  frameEvent sender (fun s => s.takeBeacon sender content) s

/-! ### Ageing and the beacon period -/

/-- The row becomes absent (R87). -/
def State.loseRow (s : State) (a : Addr) : State :=
  s.onPeer fun p => { p with rows := p.rows.set a { p.rows.get a with present := false, age := 10000, ovr := none } }

/-- What follows from a row becoming absent: at station 0 its caller and its talk go (R111, R115); at a seat that loses
station 0 the end returns to IDLE (R116). -/
def State.afterLoss (s : State) (a : Addr) : State :=
  if s.isConsole then (s.dropCaller a).endTalkWith a true
  else if a = 0 then s.disconnectEnd
  else s

/-- PEER_AGE_EXPIRY (R87). -/
def execPeerAgeExpiry (a : Addr) (s : State) : Host.Outcome State Fault Refusal :=
  event (fun s => if a ≠ s.addr ∧ (s.peer.rows.get a).present then (s.loseRow a).afterLoss a else s) s

/-- BEACON_PERIOD (R84, R85): the beacon is composed from the state as it stands and offered. -/
def execBeaconPeriod (s : State) : Host.Outcome State Fault Refusal :=
  event (fun s =>
    if s.peer.period.isSome then
      if s.silent then s.onPeer fun p => { p with period := startTimer (ms 250) }
      else
        let b := s.composeBeacon
        (s.onPeer fun p => { p with period := startTimer (ms 250), own := some b }).offer .beacon
    else s) s

/-- DISTRESS_FRAME (R105): no block acts on it, and the fairness count is reset as by any good frame; one from an address
other than 0 fails the receive checks and is dropped (R76). -/
def execDistressFrame (sender : Addr) (_setTime _shiftNo : Nat) (s : State) : Host.Outcome State Fault Refusal :=
  event (fun s => if sender = 0 then s.hear 0 fun t => t else s.cutPause) s

end Sys2Proof.Machine
end

