-- ==== Sys2Proof/Machine/Raw.lean ====
section
/-! DEFINITION. Completed characters of the cab link and bytes of the card line as they arrive (R76, R126): dropped or
discarded where they fail their checks; characters that pass them are the frame they spell (log entry 19). -/
namespace Sys2Proof.Machine
open Sys2Proof

/-- What a good cab link frame does. -/
def performFrame (i : Instr) (s : State) : Host.Outcome State Fault Refusal :=
  match i with
  | .hire src seq kind party => execHire src seq kind party s
  | .stop src seq => execStop src seq s
  | .resume src seq => execResume src seq s
  | .cancel src seq => execCancel src seq s
  | .extra src seq code amount => execExtra src seq code amount s
  | .extraRemove src seq => execExtraRemove src seq s
  | .unpaid src seq => execUnpaid src seq s
  | .payCash src seq tendered => execPayCash src seq tendered s
  | .payAccount src seq digits number => execPayAccount src seq digits number s
  | .payCard src seq => execPayCard src seq s
  | .cardCancel src seq => execCardCancel src seq s
  | .connect src seq => execConnect src seq s
  | .disconnect src seq => execDisconnect src seq s
  | .listen src seq => execListen src seq s
  | .listenEnd src seq => execListenEnd src seq s
  | .claimReceived sender kind party seq => execClaimReceived sender kind party seq s
  | .objectReceived sender target => execObjectReceived sender target s
  | .replyReceived sender target seq result => execReplyReceived sender target seq result s
  | .hireStartReceived sender no kind => execHireStartReceived sender no kind s
  | .hireStopReceived sender no due => execHireStopReceived sender no due s
  | .hireClosedReceived sender no outcome => execHireClosedReceived sender no outcome s
  | .callEvent sender => execCallEvent sender s
  | .callWithdrawEvent sender => execCallWithdrawEvent sender s
  | .speakerHeldEvent sender => execSpeakerHeldEvent sender s
  | .speakerFreeEvent sender => execSpeakerFreeEvent sender s
  | .privacyOnEvent sender => execPrivacyOnEvent sender s
  | .privacyOffEvent sender => execPrivacyOffEvent sender s
  | .beaconReceived sender content => execBeaconReceived sender content s
  | .distressFrame sender setTime shiftNo => execDistressFrame sender setTime shiftNo s
  | .shiftOpen sender rejoin shiftNo driver => execShiftOpen sender rejoin shiftNo driver s
  | .shiftCall sender shiftNo => execShiftCall sender shiftNo s
  | .shiftSummary sender part => execShiftSummary sender part s
  | .lateSummaryPart sender part => execLateSummaryPart sender part s
  | .shiftRefuse sender reason shiftNo => execShiftRefuse sender reason shiftNo s
  | .shiftDone sender forced shiftNo addrs => execShiftDone sender forced shiftNo addrs s
  | .shiftAbandon sender shiftNo => execShiftAbandon sender shiftNo s
  | .recordQuery sender hireNo target first => execRecordQuery sender hireNo target first s
  | .recordPart sender k m hireNo data => execRecordPart sender k m hireNo data s
  | _ => .next s

/-- FRAME_DROPPED (R76): no block takes a frame that fails the receive checks; it only cuts a fairness pause (R80). -/
def execFrameDropped (chars : List Byte) (s : State) : Host.Outcome State Fault Refusal :=
  match goodFrame chars with
  | some i => performFrame i s
  | none => event State.cutPause s

/-- What a valid card frame does. -/
def performCardFrame (i : Instr) (s : State) : Host.Outcome State Fault Refusal :=
  match i with
  | .status txn st => execStatus txn st s
  | .result txn outcome approved scheme lastFour auth => execResult txn outcome approved scheme lastFour auth s
  | .notFound txn => execNotFound txn s
  | .reversed txn => execReversed txn s
  | _ => .next s

/-- The bytes received with the start byte that a late 02h has been taken as (R126). -/
def State.cardBytes (s : State) (bytes : List Byte) : List Byte := if s.card.rxOpen then 2#8 :: bytes else bytes

/-- CARD_FRAME_DISCARDED (R126): the controller returns to scanning, and nothing else changes. -/
def execCardFrameDiscarded (bytes : List Byte) (s : State) : Host.Outcome State Fault Refusal :=
  match scanCard (bytes.length + 2) (s.cardBytes bytes) with
  | some i => performCardFrame i s
  | none =>
    event (fun s =>
      if s.card.moduleState = .notFitted then s else s.onCard fun c => { c with rxOpen := false }) s

end Sys2Proof.Machine
end

