-- ==== Sys2Proof/Machine/Supply.lean ====
section
/-! DEFINITION. The supply and retained domain (chapter 11): the supply monitor and its counts, stops, and the start with
its classification, cold initialisation, restoration and first slot. -/
namespace Sys2Proof.Machine
open Sys2Proof

/-! ### The supply monitor (R187, R193) -/

/-- A filter count runs on while its condition holds, begins with it, and is discarded without it. -/
def counting (t : Timer) (holds : Bool) (n : Nat) : Timer :=
  if holds then (match t with
    | some k => some k
    | none => startTimer n)
  else none

/-- The filter counts that the level, the reset line and the state call for (R187, R193). -/
def Supply.recount (p : Supply) : Supply :=
  { p with
    low := counting p.low (p.running && p.state == .normal && p.mv < 10000) (ms 20)
    normal := counting p.normal (p.running && p.state == .low && 10800 < p.mv) (ms 200)
    fail := counting p.fail (p.state != .fail && p.mv < 6000) 1
    start := counting p.start (!p.running && !p.resetLine && 7000 ≤ p.mv) (ms 50) }

/-- SUPPLY_LEVEL_CHANGE (R187): the supply crosses a threshold. -/
def execSupplyLevelChange (mv : Nat) (s : State) : Host.Outcome State Fault Refusal :=
  event (fun t => t) (s.onSupply fun p => { p with mv := mv }.recount)

/-- The sign's load is shed or resumes, at station 0 (R100). -/
def State.signOff (s : State) : State :=
  if s.isConsole then
    (s.onSign fun g => { g with control := .off, period := none, test := none }).dueSign .off
  else s

def State.signOn (s : State) : State :=
  if s.isConsole then (s.onSign fun g => { g with control := .repeating }).dueSign .repeating else s

/-- The state becomes LOW: an open key sequence is abandoned, the sign is sent OFF (R171, R179, R188). -/
def State.enterLow (s : State) : State :=
  ((s.onSupply fun p => { p with state := .low, low := none }.recount).onConsole fun c =>
    { c with keys := .idle, keyTimer := none }).signOff

/-- SUPPLY_LOW (R187, R188). -/
def execSupplyLow (s : State) : Host.Outcome State Fault Refusal :=
  event (fun s => if s.supply.state = .normal ∧ s.supply.low.isSome then s.enterLow else s) s

/-- The state returns to NORMAL: the sign resumes, and the interrupted print line is given again (R183, R188). -/
def State.enterNormal (s : State) : State :=
  ((s.onSupply fun p => { p with state := .normal, normal := none }.recount).onPrint fun p =>
    { p with given := 0 }).signOn

/-- SUPPLY_NORMAL (R187, R188). -/
def execSupplyNormal (s : State) : Host.Outcome State Fault Refusal :=
  event (fun s => if s.supply.state = .low ∧ s.supply.normal.isSome then s.enterNormal else s) s

/-! ### Stops (R189 to R191) -/

/-- The station stops with this cause; a hold that did not last leaves the update mark set (R189). -/
def State.halt (s : State) (cause : StopCause) (cut : Bool) : State :=
  s.onSupply fun p => { p with
    state := match cause with
      | .fail => .fail
      | .pin => p.state
    running := false, stopCause := cause, updateMark := cut }.recount

/-- SUPPLY_FAIL (R189). `cut` tells that the logic supply fell below its minimum before the event in progress was
complete. A FAIL of a station that the reset line has stopped leaves the stop cause PIN (R191). -/
def execSupplyFail (cut : Bool) (s : State) : Host.Outcome State Fault Refusal :=
  .next (if s.supply.fail.isSome then
      if s.supply.running then s.halt .fail cut else s.onSupply fun p => { p with state := .fail }.recount
    else s)

/-- RESET_ASSERTED (R191). -/
def execResetAsserted (s : State) : Host.Outcome State Fault Refusal :=
  let s' := s.onSupply fun p => { p with resetLine := true }.recount
  .next (if s.supply.running then s'.halt .pin false else s')

/-- RESET_RELEASED (R193): the start condition may count. -/
def execResetReleased (s : State) : Host.Outcome State Fault Refusal :=
  .next (s.onSupply fun p => { p with resetLine := false }.recount)

/-- BACKUP_LOSS (R190): the domain depends on the backup input while the station is stopped. That a fall while the station
runs is not remembered, even when the input is still low at the stop, is the model's choice (log entry 67). -/
def execBackupLoss (s : State) : Host.Outcome State Fault Refusal :=
  .next (if s.supply.running then s else s.onSupply fun p => { p with backupValid := false })

/-! ### The start (R192 to R197) -/

/-- The straps as taken (R197): a capacity reading of 5 to 7 counts as 0. -/
def strapsTaken (p : StrapPins) : Straps :=
  { addr := p.addr, capacity := if p.capacity.val ≤ 4 then p.capacity.val else 0, buttons := p.buttons
    card := p.card }

/-- The start cause (R192). -/
def Supply.classify (p : Supply) (addr : Addr) : StartCause :=
  if !p.backupValid || p.updateMark || p.retainedAddr != addr then .cold
  else match p.stopCause with
    | .fail => .supply
    | .pin => .pin

/-- The card settings taken at the start (R124). -/
def cardStart (image : Option Image) (fitted : Bool) (nextTxn : Nat) : Card :=
  { moduleState := if fitted then .unknown else .notFitted, out := none, missed := 0, poll := none, nextTxn := nextTxn
    respLimit := (image.map fun im => ms (respLimitMs im.respCode)).getD (ms 2000)
    pollInterval := (image.map fun im => ms (100 * im.pollUnits)).getD (ms 1000)
    currency := image.map (·.currency), rxOpen := false }

/-- Everything that no start retains, at its value after a start (R24, R50, R52, R83, R87, R101, R123, R169, R179,
R186); the retained items stand. -/
def State.dropVolatile (s : State) : State :=
  { s with
    hire := { s.hire with resume := none, reply := none, event := none, objects := [], claimHeld := false
                          tally := 0, speed := 0 }
    link := .cold, peer := .cold, pulse := .cold, sign := .cold
    distress := { Distress.cold with latch := s.distress.latch, active := s.distress.active }
    intercom := { Intercom.cold with volume := s.intercom.volume }
    card := cardStart s.image s.straps.card s.card.nextTxn
    pay := { s.pay with tipTimer := none, overall := none }
    shift := { s.shift with pendingLate := none, closing := none, tx := none, lateTx := none, held := []
                            repeatGuard := none }
    close := .cold, console := .cold
    print := { Print.cold with paperOut := s.print.paperOut }
    display := .cold, now := 0, offers := [] }

/-- The retained items at their cold values (R194, R25, R57, R107, R121, R148, R170). -/
def State.coldDomain (s : State) : State :=
  { s with
    hire := { HireCtl.cold with claimId := s.hire.claimId }
    clock := .cold
    distress := { s.distress with latch := none }
    intercom := { s.intercom with volume := 4 }
    card := { s.card with nextTxn := 1 }
    pay := .cold
    shift := { Shift.cold with gen := s.shift.gen }
    supply := { s.supply with retainedAddr := s.straps.addr, updateMark := false, backupValid := true } }

/-- The power gap of a HIRED hire (R24). -/
def HireRecord.gap (r : HireRecord) (seconds : Nat) : HireRecord :=
  { r with powerGap := true, gapSeconds := r.gapSeconds + (seconds - r.lastSlot) }

/-- The hire slot at a warm start (R24). -/
def Slot.restore (sl : Slot) (seconds : Nat) : Slot :=
  match sl with
  | .free => .free
  | .claiming _ => .free
  | .hired h => .hired (h.mapRec fun r => r.gap seconds)
  | .stopped h => .stopped h
  | .paying h => .paying h

/-- The payment session at a warm start (R147). -/
def Session.restore : Session → Session
  | .none => .none
  | .tipSelect _ => .none
  | .cardWait q => if q.txn.isSome then .enquiry q else .none
  | .enquiry q => .enquiry q

/-- A session that can no longer be enquired about is in doubt (R197, R139). -/
def State.restorePay (s : State) : State :=
  let s := s.onPay fun p => { p with session := p.session.restore }
  match s.pay.session with
  | .enquiry q => if s.straps.card then s else s.inDoubt q
  | .none => s
  | .tipSelect _ => s
  | .cardWait _ => s

/-- The shift at a warm start (R169, R156): CLOSING becomes ON_SHIFT, station 0 tells it, and the start is counted. -/
def State.restoreShift (s : State) : State :=
  let closing : Bool := s.shift.state == .closing
  let s := if closing then s.onShift fun sh => { sh with state := .onShift } else s
  let s := if closing ∧ s.isConsole then s.sendShift (.abandon s.shift.number) else s
  s.account fun a => { a with warmStarts := satAdd top16 a.warmStarts 1 }

/-- The restoration (R195): each owner's start handling, then the warm start counted. -/
def State.restoreDomain (s : State) : State :=
  (((s.onHire fun h => { h with slot := h.slot.restore s.clock.seconds }).restorePay).restoreShift)

/-- The domain as a start leaves it (R194, R195). -/
def State.domainAt (s : State) (cause : StartCause) : State :=
  match cause with
  | .cold => s.coldDomain
  | .supply => s.restoreDomain
  | .pin => s.restoreDomain

/-- The sign's first message (R101). -/
def State.firstSign (s : State) : State :=
  if s.supply.state = .low then (s.onSign fun g => { g with control := .off }).sendSign .off
  else s.sendSign .repeating

/-- What station 0 begins with the first slot: the start inhibit, the DISTRESS period of a set latch, the sign's first
message (Table 11-3). -/
def State.consoleFirstSlot (s : State) : State :=
  let s := s.onDistress fun d => { d with inhibit := startTimer (sec 3) }
  let s := if s.distress.latch.isSome then
      (s.onDistress fun d => { d with period := startTimer (ms 250) }).offer .distress
    else s
  s.firstSign

/-- A continuing enquiry raises the prompt again, and its overall timer restarts where no CANCEL has been sent
(R123, R147). -/
def State.payFirstSlot (s : State) : State :=
  match s.pay.session with
  | .enquiry q =>
    (s.onPay fun p => { p with overall := if q.cancelSent then none else startTimer (sec 90) }).raisePrompt
  | .none => s
  | .tipSelect _ => s
  | .cardWait _ => s

/-- The supply state at the first slot (R196). -/
def Supply.firstSlot (p : Supply) (cause : StartCause) : Supply :=
  { p with state := if 10800 < p.mv then .normal else .low
           running := true, cause := cause, low := none, normal := none, fail := none, start := none }.recount

/-- The first slot begins (R47, R193, R196, Table 11-3). -/
def State.firstSlot (s : State) (cause : StartCause) : State :=
  let s := s.onSupply fun p => p.firstSlot cause
  let s := s.onPulse fun p => { p with slot := startTimer (ms 100) }
  let s := s.onPeer fun p => { p with period := startTimer (ms (60 * s.straps.addr.val)) }
  let s := s.onCard fun c => { c with poll := if c.moduleState = .notFitted then none else startTimer c.pollInterval }
  let s := s.payFirstSlot
  if s.isConsole then s.consoleFirstSlot else s.onIntercom fun i => { i with withdrawDue := true }

/-- The straps and the image are read (R193, R197, R62). -/
def State.readStart (s : State) (pins : StrapPins) (image : Option (List Byte)) : State :=
  ({ s with straps := strapsTaken pins, image := validateImage image } : State).dropVolatile

/-- A start that gets to its first slot (R193). -/
def State.startWhole (s : State) (pins : StrapPins) (image : Option (List Byte)) : State :=
  let cause := s.supply.classify pins.addr
  ((((s.readStart pins image).domainAt cause)).firstSlot cause).settleEvent

/-- A start cut by a FAIL leaves the supply below 6.0 V, and one cut by the reset line leaves it asserted; the next start
waits for the start condition again (R193, log entry 13). -/
def Supply.cutStart (p : Supply) (c : StopCause) : Supply :=
  match c with
  | .fail => { p with stopCause := .fail, state := .fail, mv := min p.mv 5999, start := none }.recount
  | .pin => { p with stopCause := .pin, resetLine := true, start := none }.recount

/-- A restoration cut by a stop: the hold lets it complete, and nothing it offered is sent (R195); where the hold does not
last, the update mark stays set over it (R189, R190, log entry 14). -/
def State.restoreCut (s : State) (short : Bool) : State :=
  if short then s.onSupply fun p => { p with updateMark := true } else { s.restoreDomain with offers := [] }

/-- A start cut during its work on the domain: a cold initialisation leaves the flag clear (R194); a restoration is held
off the stop (R195). -/
def State.startCut (s : State) (pins : StrapPins) (image : Option (List Byte)) (c : StopCause) (short : Bool) : State :=
  match s.supply.classify pins.addr with
  | .cold => s.onSupply fun p => { p with backupValid := false }.cutStart c
  | .supply => ((s.readStart pins image).restoreCut short).onSupply fun p => p.cutStart c
  | .pin => ((s.readStart pins image).restoreCut short).onSupply fun p => p.cutStart c

/-- START (R192 to R197), once the start condition has stood for its 50 ms (R193). The straps, what was read of the image,
and how far the start gets come from outside. -/
def execStart (pins : StrapPins) (image : Option (List Byte)) (reach : StartEnd) (s : State) :
    Host.Outcome State Fault Refusal :=
  .next (if !s.supply.running ∧ s.supply.start = some 0 then
      match reach with
      | .complete => s.startWhole pins image
      | .cutEarly c => s.onSupply fun p => p.cutStart c
      | .cutInDomain c short => s.startCut pins image c short
    else s)

end Sys2Proof.Machine
end

