-- ==== Sys2Proof/Machine/Dispatch.lean ====
section
/-! DEFINITION. `exec`: one arm per command of spec/opcode_table.json, in the table's order, each a call of its meaning. -/
namespace Sys2Proof.Machine
open Sys2Proof

def exec (i : Instr) (s : State) : Host.Outcome State Fault Refusal :=
  match i with
  | .hire src seq kind party => Sys2Proof.Machine.execHire src seq kind party s
  | .stop src seq => Sys2Proof.Machine.execStop src seq s
  | .resume src seq => Sys2Proof.Machine.execResume src seq s
  | .cancel src seq => Sys2Proof.Machine.execCancel src seq s
  | .extra src seq code amount => Sys2Proof.Machine.execExtra src seq code amount s
  | .extraRemove src seq => Sys2Proof.Machine.execExtraRemove src seq s
  | .unpaid src seq => Sys2Proof.Machine.execUnpaid src seq s
  | .payCash src seq tendered => Sys2Proof.Machine.execPayCash src seq tendered s
  | .payAccount src seq digits number => Sys2Proof.Machine.execPayAccount src seq digits number s
  | .payCard src seq => Sys2Proof.Machine.execPayCard src seq s
  | .cardCancel src seq => Sys2Proof.Machine.execCardCancel src seq s
  | .connect src seq => Sys2Proof.Machine.execConnect src seq s
  | .disconnect src seq => Sys2Proof.Machine.execDisconnect src seq s
  | .listen src seq => Sys2Proof.Machine.execListen src seq s
  | .listenEnd src seq => Sys2Proof.Machine.execListenEnd src seq s
  | .claimReceived sender kind party seq => Sys2Proof.Machine.execClaimReceived sender kind party seq s
  | .objectReceived sender target => Sys2Proof.Machine.execObjectReceived sender target s
  | .replyReceived sender target seq result => Sys2Proof.Machine.execReplyReceived sender target seq result s
  | .hireStartReceived sender hireNo kind => Sys2Proof.Machine.execHireStartReceived sender hireNo kind s
  | .hireStopReceived sender hireNo due => Sys2Proof.Machine.execHireStopReceived sender hireNo due s
  | .hireClosedReceived sender hireNo outcome => Sys2Proof.Machine.execHireClosedReceived sender hireNo outcome s
  | .callEvent sender => Sys2Proof.Machine.execCallEvent sender s
  | .callWithdrawEvent sender => Sys2Proof.Machine.execCallWithdrawEvent sender s
  | .speakerHeldEvent sender => Sys2Proof.Machine.execSpeakerHeldEvent sender s
  | .speakerFreeEvent sender => Sys2Proof.Machine.execSpeakerFreeEvent sender s
  | .privacyOnEvent sender => Sys2Proof.Machine.execPrivacyOnEvent sender s
  | .privacyOffEvent sender => Sys2Proof.Machine.execPrivacyOffEvent sender s
  | .beaconReceived sender content => Sys2Proof.Machine.execBeaconReceived sender content s
  | .distressFrame sender setTime shiftNo => Sys2Proof.Machine.execDistressFrame sender setTime shiftNo s
  | .shiftOpen sender rejoin shiftNo driver => Sys2Proof.Machine.execShiftOpen sender rejoin shiftNo driver s
  | .shiftCall sender shiftNo => Sys2Proof.Machine.execShiftCall sender shiftNo s
  | .shiftSummary sender part => Sys2Proof.Machine.execShiftSummary sender part s
  | .lateSummaryPart sender part => Sys2Proof.Machine.execLateSummaryPart sender part s
  | .shiftRefuse sender reason shiftNo => Sys2Proof.Machine.execShiftRefuse sender reason shiftNo s
  | .shiftDone sender forced shiftNo addrs => Sys2Proof.Machine.execShiftDone sender forced shiftNo addrs s
  | .shiftAbandon sender shiftNo => Sys2Proof.Machine.execShiftAbandon sender shiftNo s
  | .recordQuery sender hireNo target first => Sys2Proof.Machine.execRecordQuery sender hireNo target first s
  | .recordPart sender k m hireNo data => Sys2Proof.Machine.execRecordPart sender k m hireNo data s
  | .frameDropped chars => Sys2Proof.Machine.execFrameDropped chars s
  | .truncatedFrame cause => Sys2Proof.Machine.execTruncatedFrame cause s
  | .addressClash => Sys2Proof.Machine.execAddressClash s
  | .lineIdle => Sys2Proof.Machine.execLineIdle s
  | .arbitrationLost => Sys2Proof.Machine.execArbitrationLost s
  | .transmitAbort => Sys2Proof.Machine.execTransmitAbort s
  | .fairnessPauseEnd => Sys2Proof.Machine.execFairnessPauseEnd s
  | .frameSent => Sys2Proof.Machine.execFrameSent s
  | .slotEnd => Sys2Proof.Machine.execSlotEnd s
  | .pulseFaultRaised => Sys2Proof.Machine.execPulseFaultRaised s
  | .pulseFaultCleared => Sys2Proof.Machine.execPulseFaultCleared s
  | .faultSecond => Sys2Proof.Machine.execFaultSecond s
  | .odometerPulse => Sys2Proof.Machine.execOdometerPulse s
  | .claimWindowEnd => Sys2Proof.Machine.execClaimWindowEnd s
  | .lateClose => Sys2Proof.Machine.execLateClose s
  | .resumeTimerExpiry => Sys2Proof.Machine.execResumeTimerExpiry s
  | .replyLimitExpiry target => Sys2Proof.Machine.execReplyLimitExpiry target s
  | .deferredCommandOffer target => Sys2Proof.Machine.execDeferredCommandOffer target s
  | .peerAgeExpiry addr => Sys2Proof.Machine.execPeerAgeExpiry addr s
  | .beaconPeriod => Sys2Proof.Machine.execBeaconPeriod s
  | .signRepeatPeriod => Sys2Proof.Machine.execSignRepeatPeriod s
  | .signReply b0 b1 b2 => Sys2Proof.Machine.execSignReply b0 b1 b2 s
  | .signReplyTimeout => Sys2Proof.Machine.execSignReplyTimeout s
  | .signSilent => Sys2Proof.Machine.execSignSilent s
  | .lampTestEnd => Sys2Proof.Machine.execLampTestEnd s
  | .distressInputActive => Sys2Proof.Machine.execDistressInputActive s
  | .distressInputInactive => Sys2Proof.Machine.execDistressInputInactive s
  | .distressHoldExpiry => Sys2Proof.Machine.execDistressHoldExpiry s
  | .startInhibitEnd => Sys2Proof.Machine.execStartInhibitEnd s
  | .distressPeriod => Sys2Proof.Machine.execDistressPeriod s
  | .callShortPress => Sys2Proof.Machine.execCallShortPress s
  | .callLongPress => Sys2Proof.Machine.execCallLongPress s
  | .callTimerExpiry => Sys2Proof.Machine.execCallTimerExpiry s
  | .queueEntryExpiry addr => Sys2Proof.Machine.execQueueEntryExpiry addr s
  | .talkKey => Sys2Proof.Machine.execTalkKey s
  | .talkTimerExpiry => Sys2Proof.Machine.execTalkTimerExpiry s
  | .endTalkTimerExpiry => Sys2Proof.Machine.execEndTalkTimerExpiry s
  | .announcePress => Sys2Proof.Machine.execAnnouncePress s
  | .announceRelease => Sys2Proof.Machine.execAnnounceRelease s
  | .announceTimerExpiry => Sys2Proof.Machine.execAnnounceTimerExpiry s
  | .startupCallWithdraw => Sys2Proof.Machine.execStartupCallWithdraw s
  | .promptRelease => Sys2Proof.Machine.execPromptRelease s
  | .passengerUp => Sys2Proof.Machine.execPassengerUp s
  | .passengerDown => Sys2Proof.Machine.execPassengerDown s
  | .passengerOk => Sys2Proof.Machine.execPassengerOk s
  | .tipTimerExpiry => Sys2Proof.Machine.execTipTimerExpiry s
  | .cardPaySend => Sys2Proof.Machine.execCardPaySend s
  | .cardCancelSend => Sys2Proof.Machine.execCardCancelSend s
  | .pollTick => Sys2Proof.Machine.execPollTick s
  | .cardRequestSent => Sys2Proof.Machine.execCardRequestSent s
  | .cardResponseExpiry => Sys2Proof.Machine.execCardResponseExpiry s
  | .moduleAbsent => Sys2Proof.Machine.execModuleAbsent s
  | .transactionInDoubt => Sys2Proof.Machine.execTransactionInDoubt s
  | .overallTimerExpiry => Sys2Proof.Machine.execOverallTimerExpiry s
  | .status txn st => Sys2Proof.Machine.execStatus txn st s
  | .result txn outcome approved scheme lastFour auth => Sys2Proof.Machine.execResult txn outcome approved scheme lastFour auth s
  | .notFound txn => Sys2Proof.Machine.execNotFound txn s
  | .reversed txn => Sys2Proof.Machine.execReversed txn s
  | .cardFrameDiscarded bytes => Sys2Proof.Machine.execCardFrameDiscarded bytes s
  | .cardFrameTruncated late => Sys2Proof.Machine.execCardFrameTruncated late s
  | .select d => Sys2Proof.Machine.execSelect d s
  | .keyPress key => Sys2Proof.Machine.execKeyPress key s
  | .clear => Sys2Proof.Machine.execClear s
  | .keySequenceTimeout => Sys2Proof.Machine.execKeySequenceTimeout s
  | .commandSequence cmd => Sys2Proof.Machine.execCommandSequence cmd s
  | .closeKey => Sys2Proof.Machine.execCloseKey s
  | .shiftOpenKeyed driver => Sys2Proof.Machine.execShiftOpenKeyed driver s
  | .clockSetting year month day hour minute => Sys2Proof.Machine.execClockSetting year month day hour minute s
  | .lampTest => Sys2Proof.Machine.execLampTest s
  | .servicePage => Sys2Proof.Machine.execServicePage s
  | .lastReport => Sys2Proof.Machine.execLastReport s
  | .forcedClose => Sys2Proof.Machine.execForcedClose s
  | .distressClear d0 d1 d2 d3 => Sys2Proof.Machine.execDistressClear d0 d1 d2 d3 s
  | .print hireNo => Sys2Proof.Machine.execPrint hireNo s
  | .collectTimeExpiry => Sys2Proof.Machine.execCollectTimeExpiry s
  | .seatClosingLimitExpiry => Sys2Proof.Machine.execSeatClosingLimitExpiry s
  | .printJobActive => Sys2Proof.Machine.execPrintJobActive s
  | .printBuild => Sys2Proof.Machine.execPrintBuild s
  | .partLimitExpiry => Sys2Proof.Machine.execPartLimitExpiry s
  | .printLineFlush => Sys2Proof.Machine.execPrintLineFlush s
  | .printerReady => Sys2Proof.Machine.execPrinterReady s
  | .paperOut => Sys2Proof.Machine.execPaperOut s
  | .paperReturn => Sys2Proof.Machine.execPaperReturn s
  | .outcomeDisplayExpiry => Sys2Proof.Machine.execOutcomeDisplayExpiry s
  | .volumeDisplayExpiry => Sys2Proof.Machine.execVolumeDisplayExpiry s
  | .supplyLow => Sys2Proof.Machine.execSupplyLow s
  | .supplyNormal => Sys2Proof.Machine.execSupplyNormal s
  | .supplyFail cut => Sys2Proof.Machine.execSupplyFail cut s
  | .resetAsserted => Sys2Proof.Machine.execResetAsserted s
  | .backupLoss => Sys2Proof.Machine.execBackupLoss s
  | .start pins image reach => Sys2Proof.Machine.execStart pins image reach s
  | .clockSecond => Sys2Proof.Machine.execClockSecond s
  | .callPressed => Sys2Proof.Machine.execCallPressed s
  | .supplyLevelChange mv => Sys2Proof.Machine.execSupplyLevelChange mv s
  | .resetReleased => Sys2Proof.Machine.execResetReleased s

end Sys2Proof.Machine
end

