-- ==== Sys2Proof/Machine/Step.lean ====
section
/-! DEFINITION. A step: the command at the front of the queue, or, with nothing pending, the station's own timebase
(log entries 1, 2). -/
namespace Sys2Proof.Machine
open Sys2Proof

/-! ### Events that fall due by themselves -/

def whenDue (t : Timer) (i : Instr) : List Instr := if t.isDue then [i] else []

def when (b : Bool) (i : Instr) : List Instr := if b then [i] else []

/-- Timers of the hire controller and the peer monitor. The end of a fairness pause is not among them: the line must have
stayed idle through it, so its row is a report of the line, as LINE_IDLE is (R77, R80, log entry 44). -/
def State.dueLink (s : State) : List Instr :=
  (match s.hire.slot with
    | .claiming c => whenDue c.window .claimWindowEnd
    | _ => [])
    ++ whenDue s.hire.resume .resumeTimerExpiry
    ++ whenDue s.peer.period .beaconPeriod
    ++ (allAddrs.filter fun a => a != s.addr && (s.peer.rows.get a).present && 10000 ≤ (s.peer.rows.get a).age).map
        .peerAgeExpiry

/-- Timers of the sign, the distress latch and the intercom; a timer that is paused is not due (R112, R116). -/
def State.dueVehicle (s : State) : List Instr :=
  whenDue s.sign.period .signRepeatPeriod ++ whenDue s.sign.wait .signReplyTimeout ++ whenDue s.sign.test .lampTestEnd
    ++ whenDue s.distress.hold .distressHoldExpiry ++ whenDue s.distress.inhibit .startInhibitEnd
    ++ whenDue s.distress.period .distressPeriod
    ++ whenDue s.intercom.callTimer .callTimerExpiry ++ whenDue s.intercom.announceTimer .announceTimerExpiry
    ++ whenDue s.intercom.promptTimer .promptRelease ++ whenDue s.intercom.press .callLongPress
    ++ (match s.intercom.endState with
      | .held _ => []
      | _ => whenDue s.intercom.endTimer .endTalkTimerExpiry)
    ++ (match s.intercom.talk with
      | .held _ => []
      | _ => whenDue s.intercom.talkTimer .talkTimerExpiry)
    ++ (s.intercom.queue.filter fun e => e.left == 0).map fun e => .queueEntryExpiry e.addr

/-- Timers of the card line, the payment controller, the shift accountant and the console and print unit. -/
def State.dueMoney (s : State) : List Instr :=
  (match s.card.out with
    | some o => whenDue o.timer (if o.sent then .cardResponseExpiry else .cardRequestSent)
    | none => [])
    ++ whenDue s.card.poll .pollTick ++ whenDue s.pay.tipTimer .tipTimerExpiry
    ++ whenDue s.pay.overall .overallTimerExpiry ++ whenDue s.shift.closing .seatClosingLimitExpiry
    ++ whenDue s.close.collect .collectTimeExpiry ++ whenDue s.console.keyTimer .keySequenceTimeout
    ++ (allAddrs.flatMap fun a => whenDue ((s.console.cmds.get a).bind (·.limit)) (.replyLimitExpiry a))
    ++ whenDue (s.print.transfer.bind (·.limit)) .partLimitExpiry ++ whenDue s.print.flush .printLineFlush
    ++ whenDue s.display.timer .outcomeDisplayExpiry ++ whenDue s.display.volumeTimer .volumeDisplayExpiry

/-- Timers of the supply monitor and the slot. -/
def State.dueSupply (s : State) : List Instr :=
  whenDue s.pulse.slot .slotEnd ++ whenDue s.supply.low .supplyLow ++ whenDue s.supply.normal .supplyNormal

/-- The command that station 0's own blocks are handed (R5, R173, log entry 15). -/
def Cmd.localInstr (c : Cmd) (seq : Nat) : Instr :=
  match c with
  | .hire kind party => .hire .localKey seq kind party
  | .stop => .stop .localKey seq
  | .resume => .resume .localKey seq
  | .cancel => .cancel .localKey seq
  | .extra code amount => .extra .localKey seq code amount
  | .extraRemove => .extraRemove .localKey seq
  | .unpaid => .unpaid .localKey seq
  | .payCash tendered => .payCash .localKey seq tendered
  | .payAccount digits number => .payAccount .localKey seq digits number
  | .payCard => .payCard .localKey seq
  | .cardCancel => .cardCancel .localKey seq
  | .connect => .connect .localKey seq
  | .disconnect => .disconnect .localKey seq
  | .listen => .listen .localKey seq
  | .listenEnd => .listenEnd .localKey seq

/-- What the station does next by itself without a timer (log entry 20). -/
def State.dueConditions (s : State) : List Instr :=
  (match s.console.cmds.get 0 with
    | some p => if p.handed then [] else [Cmd.localInstr p.cmd p.seq]
    | none => [])
    ++ when (s.payWaiting && s.cardIdle) .cardPaySend
    ++ when (s.cancelWaiting && s.cardIdle) .cardCancelSend
    ++ (allAddrs.filter fun a => (s.console.cmds.get a).isNone && !(s.console.deferred.get a).isEmpty).map
        .deferredCommandOffer
    ++ when (s.intercom.withdrawDue && s.link.synced) .startupCallWithdraw
    ++ when (s.isConsole && !s.print.jobs.isEmpty && s.print.builder.isNone) .printJobActive
    ++ when (s.isConsole && s.build.print != s.print) .printBuild

/-- Everything that is due now. -/
def State.dueEvents (s : State) : List Instr :=
  when (10000 ≤ s.clock.phase) .clockSecond ++ whenDue s.supply.fail (.supplyFail false) ++
    (if s.supply.running then s.dueSupply ++ s.dueLink ++ s.dueVehicle ++ s.dueMoney ++ s.dueConditions else [])

/-! ### One unit of the timebase (R55) -/

def Slot.tick : Slot → Slot
  | .claiming c => .claiming { c with window := c.window.dec }
  | .free => .free
  | .hired h => .hired h
  | .stopped h => .stopped h
  | .paying h => .paying h

def PeerRow.tick (r : PeerRow) : PeerRow := { r with age := min 10000 (r.age + 1) }

/-- A repeat guard that has run out has ended (R151). -/
def guardTick (t : Timer) : Timer :=
  match t with
  | some (n + 1) => if n = 0 then none else some n
  | _ => none

/-- The intercom's timers; those of a HELD end and a HELD talk stand still (R112, R116). -/
def Intercom.tick (i : Intercom) : Intercom :=
  { i with
    callTimer := i.callTimer.dec
    endTimer := match i.endState with
      | .held _ => i.endTimer
      | _ => i.endTimer.dec
    promptTimer := i.promptTimer.dec, press := i.press.dec
    queue := i.queue.map fun e => { e with left := e.left - 1 }
    talkTimer := match i.talk with
      | .held _ => i.talkTimer
      | _ => i.talkTimer.dec
    announceTimer := i.announceTimer.dec }

def PendCmd.tick (p : PendCmd) : PendCmd := { p with limit := p.limit.dec }

/-- The timers of a running station, one unit on. -/
def State.tickRunning (s : State) : State :=
  { s with
    hire := { s.hire with slot := s.hire.slot.tick, resume := s.hire.resume.dec }
    link := { s.link with pause := s.link.pause.dec }
    peer := { s.peer with rows := s.peer.rows.map PeerRow.tick, period := s.peer.period.dec }
    pulse := { s.pulse with slot := s.pulse.slot.dec }
    sign := { s.sign with wait := s.sign.wait.dec, period := s.sign.period.dec, test := s.sign.test.dec }
    distress := { s.distress with hold := s.distress.hold.dec, inhibit := s.distress.inhibit.dec
                                  period := s.distress.period.dec }
    intercom := s.intercom.tick
    card := { s.card with out := s.card.out.map fun o => { o with timer := o.timer.dec }, poll := s.card.poll.dec }
    pay := { s.pay with tipTimer := s.pay.tipTimer.dec, overall := s.pay.overall.dec }
    shift := { s.shift with closing := s.shift.closing.dec, repeatGuard := guardTick s.shift.repeatGuard }
    close := { s.close with collect := s.close.collect.dec }
    console := { s.console with keyTimer := s.console.keyTimer.dec
                                cmds := s.console.cmds.map fun p => p.map PendCmd.tick }
    print := { s.print with flush := s.print.flush.dec
                            transfer := s.print.transfer.map fun t => { t with limit := t.limit.dec } }
    display := { s.display with timer := s.display.timer.dec, volumeTimer := s.display.volumeTimer.dec }
    supply := { s.supply with low := s.supply.low.dec, normal := s.supply.normal.dec, fail := s.supply.fail.dec }
    now := s.now + 1 }

/-- One unit of time: the clock's phase in every state of the station (R56), the timebase while it runs (R55, R189), the
start condition and the FAIL filter while it is stopped (R191, R193). -/
def State.tick (s : State) : State :=
  let s := s.onClock fun c => { c with phase := c.phase + 1 }
  if s.supply.running then s.tickRunning else s.onSupply fun p => { p with start := p.start.dec, fail := p.fail.dec }

/-- With nothing pending: the one event that is due, one of several in an order that is not fixed, or the next unit of
time (log entry 2). -/
def State.idle (s : State) : State :=
  match s.dueEvents with
  | [] => s.tick
  | [i] => { s with pending := [i] }
  | is => { s with pending := [is.getD (Config.tieOrder s.free % is.length) .slotEnd], free := s.free + 1 }

/-- One step of the station. -/
def step (s : State) : Host.Outcome State Fault Refusal :=
  match s.pending with
  | [] => .next s.idle
  | c :: rest => exec c { s with pending := rest }

/-- The state with the command that a word spells put at the front of its queue: no word spells one. -/
def State.withFetchWord (s : State) (nbits w : Nat) : State :=
  match decodeTableWord nbits w with
  | some c => { s with pending := c :: s.pending }
  | none => s

end Sys2Proof.Machine
end

