-- ==== Sys2Proof/Machine/Display.lean ====
section
/-! DEFINITION. What the displays show and how the audio ends are routed, as functions of the state (R108, R122, R177,
R178, R179). -/
namespace Sys2Proof.Machine
open Sys2Proof

/-! ### Audio (R108, R120, R122, R143) -/

/-- Where station 0's driver end is connected. -/
inductive DriverRoute | nothing | pair | ownEnd | announce
  deriving DecidableEq, Repr

/-- The driver end's routing: the pair in a talk with a seat, the own end in a local talk, and in an announce the
microphone alone to both (R108). -/
def Intercom.driverRoute (i : Intercom) : DriverRoute :=
  match i.talk with
  | .none => .nothing
  | .talk t => if t = 0 then .ownEnd else .pair
  | .held t => if t = 0 then .ownEnd else .pair
  | .announce => .announce

/-- The routing of a running station 0; elsewhere, and in a stopped station, the driver end is connected to nothing
(R108, R189). -/
def State.driverRoute (s : State) : DriverRoute :=
  if s.supply.running ∧ s.isConsole then s.intercom.driverRoute else .nothing

/-- What an audio output is fed from, or a microphone is fed to. -/
inductive AudioNode | nothing | pair | driverEnd | driverMicrophone | ownEnd | prompt | tone
  deriving DecidableEq, Repr

/-- What the driver's speaker is fed from: in an announce it receives nothing (R108). -/
def State.driverSource (s : State) : AudioNode :=
  match s.driverRoute with
  | .nothing => .nothing
  | .pair => .pair
  | .ownEnd => .ownEnd
  | .announce => .nothing

/-- What the driver's speaker plays, muted in LOW (R122). -/
def State.driverHears (s : State) : AudioNode := if s.driverMuted then .nothing else s.driverSource

/-- What the compartment microphone is fed to: in CONNECTED the pair, or the driver end in station 0's local talk (R108). -/
def State.microphone (s : State) : AudioNode :=
  if s.supply.running ∧ s.intercom.endState = .connected then
    if s.driverRoute = .ownEnd then .driverEnd else .pair
  else .nothing

/-- What a speaker that VOICE owns is fed from: the pair, or in station 0 the driver end of its local talk and the driver
microphone of its announce (R108). -/
def State.voiceSource (s : State) : AudioNode :=
  match s.driverRoute, s.intercom.endState with
  | .ownEnd, .connected => .driverEnd
  | .announce, .listen => .driverMicrophone
  | _, _ => .pair

/-- What the compartment speaker is fed from, by its owner; the prompt is a tone for the 0.3 s after an outcome is shown
(R108, R120, R143). -/
def State.speakerSource (s : State) : AudioNode :=
  if s.supply.running then
    match s.intercom.speakerOwner with
    | .prompt => if s.intercom.promptTimer.isSome then .tone else .prompt
    | .voice => s.voiceSource
    | .none => .nothing
  else .nothing

/-- What the compartment speaker plays, muted in LOW and at volume 0 (R122). -/
def State.speakerPlays (s : State) : AudioNode := if s.speakerMuted then .nothing else s.speakerSource

/-! ### Passenger display (R178, R179) -/

/-- The part of the passenger display that follows the slot; an engaged hire shows its current level (R33, R178). -/
inductive HireShow
  | vacant
  | running (amount : Nat) (extras : List (Nat × Nat)) (extrasSum level : Nat)
  | owed (due : Nat) (tip : Option Nat) (remaining : Option Nat) (level : Nat) (figures : Figures)
  deriving DecidableEq, Repr

/-- A stopped hire: what is owed (R178), the level of its last slot end (R33), and the values that the fare engine supplies
at STOP (R43). -/
def owedShow (h : Hire) : HireShow :=
  .owed (h.rc.due.getD 0) h.rc.tip (if h.rc.tenders.isEmpty then none else some h.rc.remaining) h.rc.level h.figures

def Slot.shownHire (sl : Slot) : HireShow :=
  match sl with
  | .free => .vacant
  | .claiming _ => .vacant
  | .hired h => .running h.rc.running h.rc.extras h.rc.extrasSum h.rc.level
  | .stopped h => owedShow h
  | .paying h => owedShow h

structure PassengerDisplay where
  hire    : HireShow
  tips    : Option (Nat × List (Nat × Nat))
  outcome : Option ShownOutcome
  change  : Option Nat
  privacy : Bool
  endShown : EndState
  volume  : Option Nat
  deriving DecidableEq, Repr

/-- The tip options with their amounts and the cursor, in TIP_SELECT (R133). -/
def State.tipShow (s : State) : Option (Nat × List (Nat × Nat)) :=
  match s.pay.session with
  | .tipSelect c =>
    let due := (s.hire.slot.hire?.bind (·.rc.due)).getD 0
    some (c, s.tipOptions.map fun pct => (pct, tipAmount due pct))
  | .none => none
  | .cardWait _ => none
  | .enquiry _ => none

/-- The passenger display; blank while the supply state is LOW or the station is stopped (R178, R179, R189). -/
def State.passengerDisplay (s : State) : Option PassengerDisplay :=
  if s.supply.running ∧ s.supply.state ≠ .low then
    some { hire := s.hire.slot.shownHire, tips := s.tipShow, outcome := s.display.outcome, change := s.display.change
           privacy := s.hire.slot.privacy, endShown := s.intercom.endState
           volume := s.display.volumeTimer.map fun _ => s.intercom.volume }
  else none

/-! ### Driver display (R177, R179) -/

structure SelectedShow where
  addr       : Addr
  absent     : Bool
  shiftState : ShiftState
  hireState  : HireState
  kind       : Kind
  claiming   : Bool
  due        : Nat
  level      : Nat
  charging   : Option Charging
  privacy    : Bool
  pulseFault : Bool
  clockSet   : Bool
  matching   : Bool
  last       : Option Shown
  figures    : Option Figures
  deriving DecidableEq, Repr

/-- A pending command of the target is marked as claiming (R175). -/
def State.showsClaiming (s : State) (a : Addr) : Bool := ((s.console.cmds.get a).map (·.claiming)).getD false

/-- The hire of a slot that has been stopped (R43). -/
def Slot.stopped? : Slot → Option Hire
  | .free => none
  | .claiming _ => none
  | .hired _ => none
  | .stopped h => some h
  | .paying h => some h

/-- Station 0 itself as the selected station, with the values of its stopped hire (R43). -/
def State.ownShow (s : State) : SelectedShow :=
  { addr := 0, absent := false, shiftState := s.shift.state, hireState := s.hire.slot.shown
    kind := s.hire.slot.kind, claiming := s.showsClaiming 0, due := s.hire.slot.runningAmount
    level := s.hire.slot.level, charging := s.hire.slot.charging, privacy := s.hire.slot.privacy
    pulseFault := s.pulse.fault.isRaised, clockSet := s.clock.isSet, matching := s.tariffMatching 0
    last := s.console.lastReply.get 0, figures := s.hire.slot.stopped?.map Hire.figures }

/-- A seat as the selected station, from its row: the last known content while it is absent. The due is read as R89 reads
it (log entry 45), level and charging state from the role word (R177). -/
def State.seatShow (s : State) (a : Addr) : SelectedShow :=
  let r := s.peer.rows.get a
  { addr := a, absent := !r.present, shiftState := (r.beacon.map (·.shiftState)).getD .offShift
    hireState := r.hireState, kind := r.kind, claiming := s.showsClaiming a
    due := r.due, level := (r.beacon.map fun b => roleLevel b.role).getD 0
    charging := r.beacon.bind fun b => roleCharging b.role, privacy := s.console.privacyInd.get a
    pulseFault := (r.beacon.map (·.pulseFault)).getD false, clockSet := (r.beacon.map (·.clockSet)).getD false
    matching := s.tariffMatching a, last := s.console.lastReply.get a, figures := none }

/-- The service page (R177). -/
structure ServicePage where
  identity  : Option (Nat × Nat)
  cause     : StartCause
  supply    : SupplyState
  module    : ModuleState
  reversals : List Reversal
  last      : Option LastShift
  seats     : List (Addr × Nat × Nat × Bool)
  deriving DecidableEq, Repr

def State.servicePage (s : State) : ServicePage :=
  { identity := s.image.map fun im => (im.number, im.edition), cause := s.supply.cause, supply := s.supply.state
    module := s.card.moduleState, reversals := s.pay.reversals, last := s.shift.last
    seats := seatAddrs.filterMap fun a =>
      (s.peer.rows.get a).beacon.map fun b => (a, b.tariffNo, b.edition, b.clockSet) }

/-- The prompt of an open key sequence; all function sequences show the same one (R171). -/
inductive EntryPrompt | select | hire (kind : Kind) | extra | pay | cash | account | print | function
  deriving DecidableEq, Repr

/-- An open key sequence on the display: its prompt and the digits entered, `none` for a masked one (R171). -/
structure EntryShow where
  prompt : EntryPrompt
  digits : List (Option Nat)
  deriving DecidableEq, Repr

/-- What an open sequence shows; the digits after FUNCTION 9 are masked, as in no other sequence (R171, log entry 49). -/
def KeySeq.shown : KeySeq → Option EntryShow
  | .idle => none
  | .select => some { prompt := .select, digits := [] }
  | .hire kind party => some { prompt := .hire kind, digits := party.toList.map some }
  | .extra code amount => some { prompt := .extra, digits := (code.toList ++ amount).map some }
  | .pay => some { prompt := .pay, digits := [] }
  | .cash ds => some { prompt := .cash, digits := ds.map some }
  | .account ds => some { prompt := .account, digits := ds.map some }
  | .print ds => some { prompt := .print, digits := ds.map some }
  | .function n ds =>
    some { prompt := .function, digits := if n = some 9 then ds.map fun _ => none else ds.map some }

/-- Date, minute of day and second of the minute of the clock (R56, R60). -/
structure ClockShow where
  date   : Date
  minute : Nat
  second : Nat
  deriving DecidableEq, Repr

def Clock.shown (c : Clock) : ClockShow :=
  { date := dateOf c.seconds, minute := minuteOfDay c.seconds, second := secondOfMinute c.seconds }

/-- What stands on the driver display besides the selected station (R60, R171, R177). -/
structure DriverDisplay where
  selected   : SelectedShow
  message    : Option Message
  clock      : Option ClockShow
  entry      : Option EntryShow
  talk       : Talk
  callers    : List Addr
  lamps      : Option Lamps
  signSilent : Bool
  dot        : Bool
  rows       : List RowState
  outcome    : Option ShownOutcome
  change     : Option Nat
  deriving DecidableEq, Repr

inductive DriverShow
  | blank
  | page (p : ServicePage)
  | normal (d : DriverDisplay)
  deriving DecidableEq, Repr

/-- The driver display of station 0 (R177); blank in LOW and while stopped (R179, R189). The date and time of a clock setting
stand until the next key and run on (log entry 52). -/
def State.driverDisplay (s : State) : DriverShow :=
  if s.supply.running ∧ s.supply.state ≠ .low ∧ s.isConsole then
    if s.console.page then .page s.servicePage
    else .normal
      { selected := if s.console.selected = 0 then s.ownShow else s.seatShow s.console.selected
        message := s.console.message
        clock := if s.console.message = some .clockShown then some s.clock.shown else none
        entry := s.console.keys.shown, talk := s.intercom.talk, callers := s.intercom.queue.map (·.addr)
        lamps := if s.sign.signSilent then none else s.sign.lamps, signSilent := s.sign.signSilent
        dot := s.distress.latch.isSome, rows := s.close.rows.toList.map (·.st)
        outcome := s.display.outcome, change := s.display.change }
  else .blank

end Sys2Proof.Machine
end

