-- ==== Sys2Proof/WellFormed.lean ====
section
/-! DEFINITION. Well-formed commands: every operand fits the field that carries it (Tables 5-5, 12-1, 12-2, 12-4, 12-6) or the
keys that enter it (Table 10-1). An ill-formed command still runs (log entry 34). -/
namespace Sys2Proof
open Sys2Proof.Machine

def fits8 (n : Nat) : Bool := n < 256
def fits16 (n : Nat) : Bool := n < 65536
def fits24 (n : Nat) : Bool := n < 16777216
def fits32 (n : Nat) : Bool := n < 4294967296

/-- A 4-bit sequence number (R173). -/
def seqOk (n : Nat) : Bool := n < 16

/-- A hire number (R3). -/
def hireNoOk (n : Nat) : Bool := 1 ≤ n && n ≤ 9999

/-- An account number of at most 8 decimal digits in BCD (Table 12-2). -/
def accountOk (digits number : Nat) : Bool := fits8 digits && number < 100000000

/-- A beacon's fields (Table 5-5, Table 12-1). -/
def Beacon.wf (b : Beacon) : Bool := fits16 b.shiftNo && b.capacity < 8 && fits16 b.tariffNo && fits8 b.edition

def distanceOk (d : Option Nat) : Bool := (d.map fun n => decide (n < 16777215)).getD true

/-- A summary part's fields (Table 12-4). -/
def SummaryPart.wf : SummaryPart → Bool
  | .part0 no s c u w _ _ _ rev m => fits16 no && fits8 s && fits8 c && fits8 u && fits8 w && rev < 8 && fits32 m
  | .part1 d e t => distanceOk d && fits32 e && fits32 t
  | .part2 d c k => distanceOk d && fits32 c && fits32 k
  | .part3 h a u => fits24 h && fits32 a && fits32 u

/-- The operands of a command as keys enter them (Table 10-1). -/
def Cmd.wf : Cmd → Bool
  | .hire _ party => party ≤ 9
  | .extra code amount => 1 ≤ code && code ≤ 8 && amount ≤ 999999
  | .payCash tendered => tendered ≤ 999999
  | .payAccount digits number => 1 ≤ digits && digits ≤ 8 && number < 10 ^ digits
  | .stop => true
  | .resume => true
  | .cancel => true
  | .extraRemove => true
  | .unpaid => true
  | .payCard => true
  | .cardCancel => true
  | .connect => false
  | .disconnect => false
  | .listen => false
  | .listenEnd => false


/-- A part of a record: m = 0 carries no data, and no part carries more than 9 bytes (Table 12-1). -/
def recordPartOk (k m hireNo : Nat) (data : List Byte) : Bool :=
  k < 8 && m < 8 && fits16 hireNo && data.length ≤ 9 && (m != 0 || data.isEmpty)

/-- A RESULT's fields (Table 12-6). -/
def resultOk (txn approved scheme lastFour : Nat) (auth : List Nat) : Bool :=
  fits16 txn && fits24 approved && scheme < 16 && lastFour ≤ 9999 && auth.length == 6
    && auth.all fun c => (48 ≤ c && c ≤ 57) || (65 ≤ c && c ≤ 90) || c == 32

/-- The well-formedness check of a command. -/
def Instr.wf : Instr → Bool
  | .hire _ seq _ party => seqOk seq && fits8 party
  | .stop _ seq => seqOk seq
  | .resume _ seq => seqOk seq
  | .cancel _ seq => seqOk seq
  | .extra _ seq code amount => seqOk seq && fits8 code && fits24 amount
  | .extraRemove _ seq => seqOk seq
  | .unpaid _ seq => seqOk seq
  | .payCash _ seq tendered => seqOk seq && fits24 tendered
  | .payAccount _ seq digits number => seqOk seq && accountOk digits number
  | .payCard _ seq => seqOk seq
  | .cardCancel _ seq => seqOk seq
  | .connect _ seq => seqOk seq
  | .disconnect _ seq => seqOk seq
  | .listen _ seq => seqOk seq
  | .listenEnd _ seq => seqOk seq
  | .claimReceived _ _ party seq => fits8 party && seqOk seq
  | .replyReceived _ _ seq _ => seqOk seq
  | .hireStartReceived _ no _ => hireNoOk no
  | .hireStopReceived _ no due => hireNoOk no && due ≤ 999999
  | .hireClosedReceived _ no _ => hireNoOk no
  | .beaconReceived _ b => b.wf
  | .distressFrame sender t no => sender == 0 && fits32 t && fits16 no
  | .shiftOpen _ _ no driver => fits16 no && fits16 driver
  | .shiftCall _ no => fits16 no
  | .shiftSummary _ p => p.wf
  | .lateSummaryPart _ p => p.wf
  | .shiftRefuse _ _ no => fits16 no
  | .shiftDone _ _ no addrs => fits16 no && addrs.length ≤ 4
  | .shiftAbandon _ no => fits16 no
  | .recordQuery _ no _ first => no ≤ 9999 && fits8 first
  | .recordPart _ k m no data => recordPartOk k m no data
  | .frameDropped chars => chars.length ≤ 16
  | .status txn _ => fits16 txn
  | .result txn _ a scheme four auth => resultOk txn a scheme four auth
  | .notFound txn => fits16 txn
  | .reversed txn => fits16 txn
  | .commandSequence cmd => cmd.wf
  | .shiftOpenKeyed driver => driver ≤ 9999
  | .clockSetting y mo d h mi => y ≤ 9999 && mo ≤ 99 && d ≤ 99 && h ≤ 99 && mi ≤ 99
  | .print no => no ≤ 9999
  | .start _ image _ => (image.map fun bs => decide (bs.length ≤ 320)).getD true
  | _ => true

end Sys2Proof
end

