-- ==== Sys2Proof/Safety.lean ====
section
/-! DEFINITION. What every step of the station keeps (the bounds the rules give its amounts, queues, lists and counts), and
the terms the statements about single commands are written in. -/
namespace Sys2Proof.Machine
open Sys2Proof

/-- Every defined band of a held image is in its ranges (R64). -/
def ImageOk (image : Option Image) : Prop := ∀ im, image = some im → ∀ b, some b ∈ im.bands → bandOk b = true

/-- A hire in HIRED: its running amount is within the cap (R35, R42), the carry below 1000 (R34), at most 6 extras (R41),
no tender yet (R19). -/
def HireRecord.RunningOk (r : HireRecord) : Prop :=
  r.running ≤ fareCap ∧ r.carry ≤ 999 ∧ r.extras.length ≤ 6 ∧ r.tenders = []

/-- Flag-fall, charges, extras, rounding and top-up together (R39). -/
def HireRecord.total (r : HireRecord) : Nat := r.running + r.rounding.getD 0 + r.topUp.getD 0

/-- A hire in PAYING: the due is its amounts' sum and within the cap (R39, R40, R42); at most 3 tenders (R19). -/
def HireRecord.DueOk (r : HireRecord) : Prop :=
  r.due = some r.total ∧ r.total ≤ fareCap ∧ r.carry ≤ 999 ∧ r.extras.length ≤ 6 ∧ r.tenders.length ≤ 3

/-- A hire in STOPPED: its due stands, and no tender does (R19). -/
def HireRecord.StoppedOk (r : HireRecord) : Prop := r.DueOk ∧ r.tenders = []

def Slot.Ok : Slot → Prop
  | .free => True
  | .claiming _ => True
  | .hired h => h.rc.RunningOk
  | .stopped h => h.rc.StoppedOk
  | .paying h => h.rc.DueOk

/-- The slot's amounts within the cap, at most 32 records in the log (R21), each with its due within the cap, and the next
hire number in its range (R3). -/
def HireCtl.Ok (h : HireCtl) : Prop :=
  h.slot.Ok ∧ h.log.length ≤ 32 ∧ (∀ r ∈ h.log, r.due.getD 0 ≤ fareCap) ∧ 1 ≤ h.nextNo ∧ h.nextNo ≤ 9999

/-- Entries in flight. -/
def Link.flights (l : Link) : List Entry := l.queue.filter (·.begun)

/-- The transmit queue in the order of keys, at most 16 entries, one DISTRESS and one BEACON (R81, R82), one in flight and
none during the fairness pause (R80), nothing queued after a clash (R91), the fairness count at most 6 (R80). -/
def Link.Ok (l : Link) : Prop :=
  l.queue.length ≤ queueSize ∧ l.queue.Pairwise (fun a b => a.cls ≤ b.cls)
    ∧ (l.queue.filter (·.cls == 0)).length ≤ 1 ∧ (l.queue.filter (·.cls == 6)).length ≤ 1
    ∧ l.flights.length ≤ 1 ∧ (l.pause.isSome = true → l.flights = [])
    ∧ (l.clash = true → l.queue = []) ∧ l.fairness ≤ 6

def PulseFault.Ok : PulseFault → Prop
  | .clear run => run ≤ 19
  | .raised clean tenths => clean ≤ 19 ∧ tenths ≤ 9

/-- Raw count at most 4095 (R46), a ring of 20 (R50), the fault counts in their ranges (R51 to R53). -/
def Pulse.Ok (p : Pulse) : Prop := p.raw ≤ 4095 ∧ p.ring.length = 20 ∧ p.fault.Ok

/-- The silent count at most 3, and SIGN_SILENT exactly at 3 (R98). -/
def Sign.Ok (g : Sign) : Prop := g.silent ≤ 3 ∧ (g.signSilent = true ↔ g.silent = 3)

/-- Volume at most 7 (R121); at most 4 callers, each once (R111); the listen set of an announce holds seats, in their order
(R117). -/
def Intercom.Ok (i : Intercom) : Prop :=
  i.volume ≤ 7 ∧ i.queue.length ≤ callSize ∧ (i.queue.map (·.addr)).Nodup ∧ i.listenSet.Sublist seatAddrs

/-- The next transaction number in its range (R130). -/
def Card.Ok (c : Card) : Prop := 1 ≤ c.nextTxn ∧ c.nextTxn ≤ 65535

/-- At most 4 reversals (R141), and room for one more while a session is active (R131). -/
def Pay.Ok (p : Pay) : Prop := p.reversals.length ≤ 4 ∧ (p.session.active = true → p.reversals.length ≤ 3)

/-- A 4-bit sequence number (R173), at most two deferred commands a target (R176). -/
def Console.Ok (c : Console) : Prop := c.nextSeq < 16 ∧ ∀ t : Addr, (c.deferred.get t).length ≤ 2

/-- Entries that an open heading still asks for (R184). -/
def Builder.reserve (b : Option Builder) : Nat := if (b.map (·.headOpen)).getD false then 25 else 0

/-- At most 4 jobs (R180), and the print queue with what an open heading still asks for within 512 (R181). -/
def Print.Ok (p : Print) : Prop := p.jobs.length ≤ jobSize ∧ p.queue.length + Builder.reserve p.builder ≤ printSize

/-- What every step keeps. -/
structure State.Ok (s : State) : Prop where
  image    : ImageOk s.image
  hire     : s.hire.Ok
  link     : s.link.Ok
  pulse    : s.pulse.Ok
  sign     : s.sign.Ok
  intercom : s.intercom.Ok
  card     : s.card.Ok
  pay      : s.pay.Ok
  console  : s.console.Ok
  print    : s.print.Ok

/-! ### Terms of the statements -/

/-- A command of this source is for this station (R5): a local key at station 0, or a COMMAND frame from address 0 for this
seat on a line that has been seen idle (R73). -/
def State.Hears (s : State) : Source → Prop
  | .localKey => s.addr = 0
  | .frame sender target => s.link.synced = true ∧ sender = 0 ∧ s.addr ≠ 0 ∧ target = s.addr

/-- A good frame from this sender is taken (R76): another station's, on a line that has been seen idle (R73). -/
def State.HearsFrom (s : State) (sender : Addr) : Prop := s.link.synced = true ∧ sender ≠ s.addr

/-- No late close is pending that could be made now (R153), as after every event. -/
def State.NoLateClose (s : State) : Prop :=
  s.shift.pendingLate = none ∨ s.hire.slot ≠ .free ∨ s.pay.session ≠ .none

/-- Nothing is left of an earlier event, as after every event: none of its offers (R81), no late close that could be made (R153). -/
def State.Quiet (s : State) : Prop := s.offers = [] ∧ s.NoLateClose

/-- The station after an event that did nothing but hear a good frame: the fairness count 0 and no pause (R80), and the sign
recomputed (R94). -/
def State.onlyHeard (s : State) : State :=
  ({ s with link := { s.link with fairness := 0, pause := none } } : State).signUpdate

/-- At station 0 a HIRE with this sequence number is pending for the sender of a CLAIM (R175). -/
def State.Awaits (s : State) (sender : Addr) (seq : Nat) : Prop :=
  s.isConsole = true
    ∧ ∃ p kind party, s.console.cmds.get sender = some p ∧ p.seq = seq ∧ p.cmd = .hire kind party

/-- The pending HIRE of `sender` marked as claiming, its reply limit 500 ms (R175). -/
def State.claimSeen (s : State) (sender : Addr) (p : PendCmd) : State :=
  { s with console := { s.console with
      cmds := s.console.cmds.set sender (some { p with claiming := true, limit := some (ms 500) }) } }

/-- A frame of this class with this payload stands in the transmit queue. -/
def Link.Carries (l : Link) (cls : Nat) (payload : List Byte) : Prop := ∃ e ∈ l.queue, e.cls = cls ∧ e.payload = payload

/-- The reply to a command, as it stands after the command (R6, R174): shown for a local command that is pending, otherwise held or
queued as a REPLY frame unless the station is LINK_SILENT. -/
def State.Replied (s t : State) (src : Source) (seq : Nat) (r : Reply) : Prop :=
  match src with
  | .localKey => ∀ p, s.console.cmds.get 0 = some p → p.seq = seq →
      t.console.cmds.get 0 = none ∧ t.console.lastReply.get 0 = some (.reply r)
  | .frame _ _ => s.silent = false → t.hire.reply = some (seq, r) ∨ t.link.Carries 3 (encReply seq r)

/-- A hire event as it stands after a command (R22): held or queued, unless the station is LINK_SILENT. -/
def State.Announced (s t : State) (e : HireEvent) : Prop :=
  s.silent = false → t.hire.event = some e ∨ t.link.Carries 4 (encHireEvent e)

/-- A frame of this class with this payload stands in the queue, or the block that offered it still holds it for the next slot end
(Table 5-4). -/
def State.Offered (t : State) (held : Prop) (cls : Nat) (payload : List Byte) : Prop := held ∨ t.link.Carries cls payload

/-- No command is pending for a target at station 0 and none is deferred for it, so that the next one is formed at once
(R173, R176). -/
def State.nonePending (s : State) (a : Addr) : Bool := (s.console.cmds.get a).isNone && (s.console.deferred.get a).isEmpty

/-- A command that station 0 has formed for a seat, as it stands after the event (R173): its entry is pending with this sequence
number and its COMMAND is queued, or, with the COMMAND refused, the entry is gone and LINK BUSY is shown. With room for the three
that one event can form it is queued, and a full queue or a LINK_SILENT station refuses it (R81, R91). -/
def State.Commanded (s t : State) (a : Addr) (cmd : Cmd) (seq : Nat) : Prop :=
  ∀ queued refused : Prop,
    queued = (t.console.cmds.get a = some { cmd := cmd, seq := seq, formed := s.now, claiming := false, handed := false
                                            limit := none }
      ∧ t.link.Carries 2 (encCommand a seq cmd)) →
    refused = (t.console.cmds.get a = none ∧ ∃ b, t.console.message = some (.linkBusy b)) →
    (queued ∨ refused)
      ∧ (s.silent = false → s.link.queue.length ≤ 13 → queued)
      ∧ (s.silent = true ∨ 16 ≤ s.link.queue.length → refused)

/-- The passenger display with nothing left of an earlier outcome or change (R178, log entry 28). -/
def Display.cleared (d : Display) : Display := { d with outcome := none, change := none, timer := none }

/-- The accumulators after an addition: made while ON_SHIFT or CLOSING, not while OFF_SHIFT (R154). -/
def Shift.added (sh : Shift) (f : Accum → Accum) : Shift :=
  if sh.state = .offShift then sh else { sh with acc := f sh.acc }

/-- The compartment end while the prompt owns the speaker: a connected or listening end is HELD (R120). -/
def Intercom.prompted (i : Intercom) : Intercom :=
  { i with
    prompt := true, promptTimer := none
    endState := match i.endState with
      | .connected => .held .connected
      | .listen => .held .listen
      | e => e }

/-- The compartment end once the prompt has let the speaker go: a HELD end is what it was (R120). -/
def Intercom.unprompted (i : Intercom) : Intercom :=
  { i with
    prompt := false, promptTimer := none
    endState := match i.endState with
      | .held .connected => .connected
      | .held .listen => .listen
      | e => e }

/-- The station with a session that has ended and its outcome shown: for 10 s on the display, the prompt for 0.3 s more (R136, R143,
R178). -/
def State.sessionEnded (s : State) (o : ShownOutcome) : State :=
  { s with
    pay := { s.pay with session := .none, tipTimer := none, overall := none }
    display := { s.display with outcome := some o, timer := some 100000 }
    intercom := { s.intercom with promptTimer := if s.intercom.prompt then some 3000 else none } }

/-- The station after the close of its hire (R21): the slot FREE, the record at the end of the log, which keeps the newest 32, and
added to the accumulators (R155). -/
def State.hireClosed (s : State) (h : Hire) (o : HireOutcome) : State :=
  { s with
    hire := { s.hire with slot := .free, resume := none
                          log := (s.hire.log ++ [h.closed o s.clock.seconds]).drop (s.hire.log.length + 1 - 32) }
    shift := s.shift.added fun a => a.addHire (h.closed o s.clock.seconds) o }

/-- The vehicle close that collects at `s` has ended in DONE at `t` with these rows (R162, R157): row 0's copy of station 0's totals, the
last-shift record, zeroed accumulators, OFF_SHIFT, SHIFT_DONE offered, and the report a job or held for one. -/
def State.ClosedInDone (s t : State) (rows : Quad CloseRow) : Prop :=
  t.close.state = .done ∧ t.close.rows = rows ∧ t.close.collect = none
    ∧ t.close.rowZero = some { acc := s.shift.acc, lost := s.shift.lost, openTime := s.shift.openTime
                               closeTime := s.clock.seconds, reversals := s.pay.reversals }
    ∧ t.shift.state = .offShift ∧ t.shift.acc = .zero ∧ t.shift.closing = none
    ∧ t.shift.last = some { number := s.shift.number, driver := s.shift.driver, openTime := s.shift.openTime
                            lost := s.shift.lost, closeTime := s.clock.seconds
                            mark := if s.close.forced then .forced else .normal, acc := s.shift.acc }
    ∧ (∀ f, f = ShiftFrame.done s.close.forced s.close.number (allAddrs.filter fun a => (rows.get a).st == .complete) →
        s.silent = false → t.Offered (f ∈ t.shift.held) 5 (encShiftFrame f))
    ∧ (s.print.jobs.length < 4 → t.print.jobs = s.print.jobs ++ [.vehicleReport] ∧ t.close.reportHeld = false)
    ∧ (4 ≤ s.print.jobs.length → t.print.jobs = s.print.jobs ∧ t.close.reportHeld = true)

/-- The vehicle close that collects at `s` has been abandoned at `t` with these rows (R164): station 0 is ON_SHIFT again with its
accumulators unchanged, and SHIFT_ABANDON is offered. -/
def State.ClosedInAbandon (s t : State) (rows : Quad CloseRow) : Prop :=
  t.close = { s.close with state := .abandoned, rows := rows, collect := none }
    ∧ t.shift.state = .onShift ∧ t.shift.number = s.shift.number ∧ t.shift.acc = s.shift.acc ∧ t.shift.last = s.shift.last
    ∧ t.print.jobs = s.print.jobs
    ∧ (s.silent = false → t.Offered (.abandon s.close.number ∈ t.shift.held) 5 (encShiftFrame (.abandon s.close.number)))

/-- `t` is `s` but for what frames, replies and the sign touch: the transmit queue, which loses no frame, and the items that wait
for it, the own beacon, the pending commands with their replies and messages, station 0's talk, and the sign. The shift and the next
hire number stand as they were unless a late close was pending (R153). -/
structure State.Kept (s t : State) : Prop where
  straps       : t.straps = s.straps
  image        : t.image = s.image
  rows         : t.peer.rows = s.peer.rows
  period       : t.peer.period = s.peer.period
  pulse        : t.pulse = s.pulse
  clock        : t.clock = s.clock
  distress     : t.distress = s.distress
  slot         : t.hire.slot = s.hire.slot
  log          : t.hire.log = s.hire.log
  resume       : t.hire.resume = s.hire.resume
  tally        : t.hire.tally = s.hire.tally
  speed        : t.hire.speed = s.hire.speed
  claimId      : t.hire.claimId = s.hire.claimId
  endState     : t.intercom.endState = s.intercom.endState
  callTimer    : t.intercom.callTimer = s.intercom.callTimer
  endTimer     : t.intercom.endTimer = s.intercom.endTimer
  volume       : t.intercom.volume = s.intercom.volume
  prompt       : t.intercom.prompt = s.intercom.prompt
  promptTimer  : t.intercom.promptTimer = s.intercom.promptTimer
  press        : t.intercom.press = s.intercom.press
  callers      : t.intercom.queue = s.intercom.queue
  announceTimer : t.intercom.announceTimer = s.intercom.announceTimer
  listenSet    : t.intercom.listenSet = s.intercom.listenSet
  announced    : t.intercom.announced = s.intercom.announced
  withdrawDue  : t.intercom.withdrawDue = s.intercom.withdrawDue
  card         : t.card = s.card
  pay          : t.pay = s.pay
  close        : t.close = s.close
  keys         : t.console.keys = s.console.keys
  keyTimer     : t.console.keyTimer = s.console.keyTimer
  selected     : t.console.selected = s.console.selected
  deferred     : t.console.deferred = s.console.deferred
  nextSeq      : t.console.nextSeq = s.console.nextSeq
  page         : t.console.page = s.console.page
  privacyInd   : t.console.privacyInd = s.console.privacyInd
  jobs         : t.print.jobs = s.print.jobs
  builder      : t.print.builder = s.print.builder
  printQueue   : t.print.queue = s.print.queue
  given        : t.print.given = s.print.given
  released     : t.print.released = s.print.released
  flush        : t.print.flush = s.print.flush
  paperOut     : t.print.paperOut = s.print.paperOut
  display      : t.display = s.display
  supply       : t.supply = s.supply
  cabLine      : t.lines.cab = s.lines.cab
  cardLine     : t.lines.card = s.lines.card
  printerLine  : t.lines.printer = s.lines.printer
  now          : t.now = s.now
  clash        : t.link.clash = s.link.clash
  synced       : t.link.synced = s.link.synced
  pending      : t.pending = s.pending
  queued       : ∀ cls payload, cls ≠ 0 → cls ≠ 6 → s.link.Carries cls payload → t.link.Carries cls payload
  shift        : s.shift.pendingLate = none →
      t.shift.state = s.shift.state ∧ t.shift.number = s.shift.number ∧ t.shift.driver = s.shift.driver
        ∧ t.shift.openTime = s.shift.openTime ∧ t.shift.acc = s.shift.acc ∧ t.shift.lost = s.shift.lost
        ∧ t.shift.coldMark = s.shift.coldMark ∧ t.shift.last = s.shift.last ∧ t.shift.pendingLate = none
        ∧ t.shift.closing = s.shift.closing ∧ t.shift.repeatGuard = s.shift.repeatGuard
        ∧ t.hire.nextNo = s.hire.nextNo

/-! ### Frames as their receivers take them -/

/-- The command that an intercom event's frame is (Table 12-1). -/
def IntercomEvent.received (e : IntercomEvent) (sender : Addr) : Instr :=
  match e with
  | .call => .callEvent sender
  | .callWithdraw => .callWithdrawEvent sender
  | .speakerHeld => .speakerHeldEvent sender
  | .speakerFree => .speakerFreeEvent sender
  | .privacyOn => .privacyOnEvent sender
  | .privacyOff => .privacyOffEvent sender

/-- The fields of a SHIFT frame fit their bytes (Table 12-1). -/
def ShiftFrame.wf : ShiftFrame → Bool
  | .opened number driver _ => fits16 number && fits16 driver
  | .call number => fits16 number
  | .refuse _ number => fits16 number
  | .done _ number _ => fits16 number
  | .abandon number => fits16 number

/-- The command that a SHIFT frame is (Table 12-1). -/
def ShiftFrame.received (f : ShiftFrame) (sender : Addr) : Instr :=
  match f with
  | .opened number driver rejoin => .shiftOpen sender rejoin number driver
  | .call number => .shiftCall sender number
  | .refuse reason number => .shiftRefuse sender reason number
  | .done forced number addrs => .shiftDone sender forced number (allAddrs.filter fun a => addrs.contains a)
  | .abandon number => .shiftAbandon sender number

end Sys2Proof.Machine

namespace Sys2Proof

/-- The command that a COMMAND frame carries (Table 12-2). -/
def Cmd.fromFrame (c : Cmd) (sender target : Addr) (seq : Nat) : Instr :=
  match c with
  | .hire kind party => .hire (.frame sender target) seq kind party
  | .stop => .stop (.frame sender target) seq
  | .resume => .resume (.frame sender target) seq
  | .cancel => .cancel (.frame sender target) seq
  | .extra code amount => .extra (.frame sender target) seq code amount
  | .extraRemove => .extraRemove (.frame sender target) seq
  | .unpaid => .unpaid (.frame sender target) seq
  | .payCash tendered => .payCash (.frame sender target) seq tendered
  | .payAccount digits number => .payAccount (.frame sender target) seq digits number
  | .payCard => .payCard (.frame sender target) seq
  | .cardCancel => .cardCancel (.frame sender target) seq
  | .connect => .connect (.frame sender target) seq
  | .disconnect => .disconnect (.frame sender target) seq
  | .listen => .listen (.frame sender target) seq
  | .listenEnd => .listenEnd (.frame sender target) seq

/-- What a stopped station takes: a start, the reset line, the supply and the backup input (R190 to R193), the clock's
second (R56), and the levels of the printer's and the distress input's lines (log entry 35). -/
def Instr.takenStopped : Instr → Bool
  | .start _ _ _ => true
  | .resetAsserted => true
  | .resetReleased => true
  | .backupLoss => true
  | .supplyFail _ => true
  | .supplyLevelChange _ => true
  | .clockSecond => true
  | .paperOut => true
  | .paperReturn => true
  | .distressInputActive => true
  | .distressInputInactive => true
  | _ => false

/-- The sender of the good frame that a row stands for, in the order of the table: COMMAND frames, then the frames of Table 5-1
(R76); a DISTRESS frame is good only from address 0. -/
def Instr.frameSender : Instr → Option Addr
  | .hire (.frame a _) _ _ _ => some a
  | .stop (.frame a _) _ => some a
  | .resume (.frame a _) _ => some a
  | .cancel (.frame a _) _ => some a
  | .extra (.frame a _) _ _ _ => some a
  | .extraRemove (.frame a _) _ => some a
  | .unpaid (.frame a _) _ => some a
  | .payCash (.frame a _) _ _ => some a
  | .payAccount (.frame a _) _ _ _ => some a
  | .payCard (.frame a _) _ => some a
  | .cardCancel (.frame a _) _ => some a
  | .connect (.frame a _) _ => some a
  | .disconnect (.frame a _) _ => some a
  | .listen (.frame a _) _ => some a
  | .listenEnd (.frame a _) _ => some a
  | .claimReceived a _ _ _ => some a
  | .objectReceived a _ => some a
  | .replyReceived a _ _ _ => some a
  | .hireStartReceived a _ _ => some a
  | .hireStopReceived a _ _ => some a
  | .hireClosedReceived a _ _ => some a
  | .callEvent a => some a
  | .callWithdrawEvent a => some a
  | .speakerHeldEvent a => some a
  | .speakerFreeEvent a => some a
  | .privacyOnEvent a => some a
  | .privacyOffEvent a => some a
  | .beaconReceived a _ => some a
  | .distressFrame a _ _ => if a = 0 then some 0 else none
  | .shiftOpen a _ _ _ => some a
  | .shiftCall a _ => some a
  | .shiftSummary a _ => some a
  | .lateSummaryPart a _ => some a
  | .shiftRefuse a _ _ => some a
  | .shiftDone a _ _ _ => some a
  | .shiftAbandon a _ => some a
  | .recordQuery a _ _ _ => some a
  | .recordPart a _ _ _ _ => some a
  | _ => none

end Sys2Proof
end

