-- ==== Sys2Proof/Certificates/Slice0/Obligations.lean ====
section
/-! DEFINITION. The statements for the provers, from the rules of spec/. -/
open Sys2Proof Sys2Proof.Machine

/-! ### The machine -/

/-- A step runs the command at the front of the queue on the state with the queue's rest. -/
def Obligations.StepRunsTheFrontCommand : Prop :=
  ∀ (c : Instr) (rest : List Instr) (s : State), s.pending = c :: rest → step s = exec c { s with pending := rest }

/-- With an empty queue a step lets one unit of the timebase pass when nothing is due, and otherwise puts one event that is due into the
queue and changes nothing else but the count of free values. That this is what an empty queue does is the model's choice (log entries 1
and 2). One unit of time moves every timer that runs by one unit and nothing else (R55): the clock's phase always (R56); in a running
station the timers of each block, the ages of the peer rows up to 10000 (R87) and the timebase; the timers of a HELD end and a HELD talk
stand still (R112, R116); in a stopped station only the start condition and the FAIL filter (R191, R193). That a unit is 100
microseconds is the model's choice (log entry 1); that the clock's phase advances by the same unit, in a stopped station too, is
inferred (log entry 29). -/
def Obligations.EmptyQueueLetsTimePassOrTakesOneDueEvent : Prop :=
  (∀ s : State, s.pending = [] →
     (s.dueEvents = [] → step s = .next s.tick)
       ∧ (s.dueEvents ≠ [] → ∃ e ∈ s.dueEvents, ∃ n, step s = .next { s with pending := [e], free := n }))
  ∧ (∀ s : State,
       (s.supply.running = false → s.tick =
         { s with clock := { s.clock with phase := s.clock.phase + 1 }
                  supply := { s.supply with start := s.supply.start.map (· - 1), fail := s.supply.fail.map (· - 1) } })
       ∧ (s.supply.running = true →
         (s.tick.clock = { s.clock with phase := s.clock.phase + 1 } ∧ s.tick.now = s.now + 1)
         ∧ (s.tick.hire = { s.hire with slot := s.tick.hire.slot, resume := s.hire.resume.map (· - 1) }
           ∧ (∀ c, s.hire.slot = .claiming c → s.tick.hire.slot = .claiming { c with window := c.window.map (· - 1) })
           ∧ ((∀ c, s.hire.slot ≠ .claiming c) → s.tick.hire.slot = s.hire.slot))
         ∧ (s.tick.link = { s.link with pause := s.link.pause.map (· - 1) }
           ∧ s.tick.peer.own = s.peer.own ∧ s.tick.peer.period = s.peer.period.map (· - 1)
           ∧ (∀ a, s.tick.peer.rows.get a =
               { s.peer.rows.get a with age := min 10000 ((s.peer.rows.get a).age + 1) })
           ∧ s.tick.pulse = { s.pulse with slot := s.pulse.slot.map (· - 1) })
         ∧ (s.tick.sign = { s.sign with wait := s.sign.wait.map (· - 1), period := s.sign.period.map (· - 1)
                                        test := s.sign.test.map (· - 1) }
           ∧ s.tick.distress = { s.distress with hold := s.distress.hold.map (· - 1)
                                                 inhibit := s.distress.inhibit.map (· - 1)
                                                 period := s.distress.period.map (· - 1) })
         ∧ (s.tick.intercom = { s.intercom with
               callTimer := s.intercom.callTimer.map (· - 1), endTimer := s.tick.intercom.endTimer
               promptTimer := s.intercom.promptTimer.map (· - 1), press := s.intercom.press.map (· - 1)
               queue := s.intercom.queue.map fun e => { e with left := e.left - 1 }
               talkTimer := s.tick.intercom.talkTimer, announceTimer := s.intercom.announceTimer.map (· - 1) }
           ∧ (∀ was, s.intercom.endState = .held was → s.tick.intercom.endTimer = s.intercom.endTimer)
           ∧ ((∀ was, s.intercom.endState ≠ .held was) → s.tick.intercom.endTimer = s.intercom.endTimer.map (· - 1))
           ∧ (∀ a, s.intercom.talk = .held a → s.tick.intercom.talkTimer = s.intercom.talkTimer)
           ∧ ((∀ a, s.intercom.talk ≠ .held a) → s.tick.intercom.talkTimer = s.intercom.talkTimer.map (· - 1)))
         ∧ (s.tick.card = { s.card with out := s.card.out.map fun o => { o with timer := o.timer.map (· - 1) }
                                        poll := s.card.poll.map (· - 1) }
           ∧ s.tick.pay = { s.pay with tipTimer := s.pay.tipTimer.map (· - 1), overall := s.pay.overall.map (· - 1) }
           ∧ s.tick.shift = { s.shift with closing := s.shift.closing.map (· - 1), repeatGuard := s.tick.shift.repeatGuard }
           ∧ (∀ n, s.shift.repeatGuard = some n → s.tick.shift.repeatGuard = if 1 < n then some (n - 1) else none)
           ∧ s.tick.close = { s.close with collect := s.close.collect.map (· - 1) })
         ∧ (s.tick.console = { s.console with keyTimer := s.console.keyTimer.map (· - 1), cmds := s.tick.console.cmds }
           ∧ (∀ a, s.tick.console.cmds.get a =
               (s.console.cmds.get a).map fun p => { p with limit := p.limit.map (· - 1) })
           ∧ s.tick.print = { s.print with flush := s.print.flush.map (· - 1)
                                           transfer := s.print.transfer.map fun t => { t with limit := t.limit.map (· - 1) } }
           ∧ s.tick.display = { s.display with timer := s.display.timer.map (· - 1)
                                               volumeTimer := s.display.volumeTimer.map (· - 1) }
           ∧ s.tick.supply = { s.supply with low := s.supply.low.map (· - 1), normal := s.supply.normal.map (· - 1)
                                             fail := s.supply.fail.map (· - 1) })
         ∧ (s.tick.straps = s.straps ∧ s.tick.image = s.image ∧ s.tick.lines = s.lines ∧ s.tick.offers = s.offers
           ∧ s.tick.free = s.free ∧ s.tick.pending = s.pending)))

/-- Within the bounds, every command is taken whole: it ends in a next state, takes nothing from the queue and puts nothing into it, and
leaves nothing still to be offered (R5, R81). That no command ends in a fault or a refusal is inferred: the rules tell what each one
does in every state (log entry 36). A stopped station takes no event (R189, R191), but a start, the reset line, the supply and the
backup input (R190 to R193), the clock that runs on (R56), and the levels of two lines (log entry 35). -/
def Obligations.CommandsAreTakenWholeByARunningStation : Prop :=
  (∀ (c : Instr) (s : State), s.Ok → ∃ t, exec c s = .next t ∧ t.pending = s.pending ∧ (s.offers = [] → t.offers = []))
  ∧ (∀ (c : Instr) (s : State), s.supply.running = false → c.takenStopped = false → exec c s = .next s)

/-- Every step keeps the bounds that the rules give the station's amounts, queues, lists and counts. -/
def Obligations.EveryStepKeepsTheBounds : Prop := ∀ s t : State, s.Ok → step s = .next t → t.Ok

/-- The station at reset is within the bounds. What the rules give a station after a cold start, as reset holds it: the hire slot FREE,
an empty log and hire number 1 (R25), an empty transmit queue, no clash and the line not yet seen idle (R83), the clock unset at 0
(R57), 20 zeros in the ring and no pulse fault (Table 3-5), the latch clear (R107), volume 4 (R121), no session, no reversal and
transaction number 1 (R148), OFF_SHIFT with shift number 0, zeroed accumulators and the cold-start mark (R170), an idle console with
station 0 selected (R179), no print job and an empty print queue (R186). That the station stands stopped with nothing pending is the
model's choice (log entry 9). -/
def Obligations.ResetStandsWithinTheBoundsAtItsValues : Prop :=
  (State.reset.Ok)
  ∧ (State.reset.hire.slot = .free ∧ State.reset.hire.log = [] ∧ State.reset.hire.nextNo = 1 ∧ State.reset.hire.resume = none
       ∧ State.reset.hire.reply = none ∧ State.reset.hire.event = none
       ∧ State.reset.link.queue = [] ∧ State.reset.link.fairness = 0 ∧ State.reset.link.clash = false
       ∧ State.reset.link.synced = false ∧ State.reset.link.repl = none
       ∧ State.reset.clock.seconds = 0 ∧ State.reset.clock.isSet = false
       ∧ State.reset.pulse.raw = 0 ∧ State.reset.pulse.ring = List.replicate 20 0 ∧ State.reset.pulse.fault = .clear 0
       ∧ State.reset.pulse.seen = false
       ∧ State.reset.distress.latch = none
       ∧ State.reset.intercom.endState = .idle ∧ State.reset.intercom.volume = 4 ∧ State.reset.intercom.queue = []
       ∧ State.reset.pay.session = .none ∧ State.reset.pay.reversals = [] ∧ State.reset.card.nextTxn = 1
       ∧ State.reset.shift.state = .offShift ∧ State.reset.shift.number = 0 ∧ State.reset.shift.acc = .zero
       ∧ State.reset.shift.coldMark = true
       ∧ State.reset.console.keys = .idle ∧ State.reset.console.selected = 0 ∧ State.reset.console.nextSeq = 0
       ∧ State.reset.print.jobs = [] ∧ State.reset.print.queue = []
       ∧ State.reset.supply.running = false ∧ State.reset.pending = [])

/-! ### The tariff image (chapter 4) -/

/-- The held image and the band it selects (R62 to R66, R69, R70, R198, Table 12-7). The memory's bytes are held, each item read at its
place with the most significant byte first, exactly where the frame of 320 bytes with its check is right (R63), the numbers and every
defined band lie in their ranges (R64) and the tables are as R65 asks; a read that was not completed, and any other bytes, are no image.
For a clock value the entries of its day type count, HOLIDAY alone on a date of the list: the greatest start minute up to the
minute of day decides, otherwise the greatest of all, and band 0 without an entry; the band so selected is defined. -/
def Obligations.TariffImageIsHeldAndSelectsItsBand : Prop :=
  validateImage none = none
  ∧ (∀ (bs : List Byte) (n : Nat → Nat → Nat), n = (fun i k => beNat ((bs.drop i).take k)) →
      ∀ band : Nat → Option Band, band = (fun o => if n o 1 = 0 then none else some {
          mode := if n (o + 1) 1 = 0 then .switched else .combined, fb := n (o + 2) 3, fmin := n (o + 5) 3, d0 := n (o + 8) 2
          t0 := n (o + 10) 2, ld := n (o + 12) 2, sd := n (o + 14) 3, lt := n (o + 17) 2, st := n (o + 19) 3, vs := n (o + 22) 2
          vh := n (o + 24) 1, f1 := n (o + 25) 2, f2 := n (o + 27) 2, f3 := n (o + 29) 2, f4 := n (o + 31) 2 }) →
      ∀ entry : Nat → CalEntry, entry = (fun o => {
          weekday := n o 1 % 2 == 1, saturday := n o 1 / 2 % 2 == 1, sunday := n o 1 / 4 % 2 == 1, holiday := n o 1 / 8 % 2 == 1
          start := n (o + 1) 2, band := n (o + 3) 1 }) →
      ∀ extra : Nat → Option ExtraDef, extra = (fun o => if n o 1 = 0 then none else some {
          kind := if n (o + 1) 1 = 1 then .fixed else if n (o + 1) 1 = 2 then .entered else .perPassenger
          amount := n (o + 2) 3, limit := n (o + 5) 1 }) →
      ∀ im : Image, im = {
          number := n 2 2, edition := n 4 1, k := n 5 2, vmax := n 7 2, respCode := n 9 1 / 64, bright := n 9 1 % 4
          pollUnits := n 10 1, currency := n 11 2, clearCode := [n 13 1, n 14 1, n 15 1, n 16 1]
          bands := [band 19, band 52, band 85, band 118], calendar := (List.range (n 17 1)).map fun i => entry (151 + 4 * i)
          holidays := (List.range (n 18 1)).map fun i => ⟨n (199 + 4 * i) 2, n (201 + 4 * i) 1, n (202 + 4 * i) 1⟩
          extras := (List.range 8).map fun i => extra (263 + 6 * i), tips := (List.range (n 311 1)).map fun i => n (312 + i) 1 } →
      ∀ frame numbers bands tables : Prop,
        frame = (bs.length = 320 ∧ n 0 2 = 320 ∧ (crc32 (bs.take 316)).toNat = n 316 4) →
        numbers = (1 ≤ im.number ∧ 1000 ≤ im.k ∧ im.k ≤ 60000 ∧ 100 ≤ im.vmax ∧ im.vmax ≤ 300 ∧ band 19 ≠ none
          ∧ 2 ≤ im.pollUnits ∧ im.pollUnits ≤ 50 ∧ 1 ≤ im.currency ∧ im.currency ≤ 999 ∧ (∀ d ∈ im.clearCode, d ≤ 9)
          ∧ ∀ p ∈ im.tips, p ≤ 30) →
        bands = (∀ i < 4, ∀ b, band (19 + 33 * i) = some b → n (20 + 33 * i) 1 ≤ 1
          ∧ b.fb ≤ 50000 ∧ b.fmin ≤ 50000 ∧ b.d0 ≤ 5000 ∧ b.t0 ≤ 1800 ∧ 1 ≤ b.ld ∧ b.ld ≤ 2000 ∧ 1 ≤ b.sd ∧ b.sd ≤ 5000
          ∧ 10 ≤ b.lt ∧ b.lt ≤ 6000 ∧ 1 ≤ b.st ∧ b.st ≤ 5000 ∧ 50 ≤ b.vs ∧ b.vs ≤ 600 ∧ b.vh ≤ 50 ∧ b.vh + 10 ≤ b.vs
          ∧ b.f1 = 1000 ∧ b.f2 ≤ b.f1 ∧ b.f3 ≤ b.f2 ∧ b.f4 ≤ b.f3 ∧ 100 ≤ b.f4) →
        tables = (n 17 1 ≤ 12 ∧ n 18 1 ≤ 16 ∧ n 311 1 ≤ 4
          ∧ (∀ e ∈ im.calendar, (e.weekday = true ∨ e.saturday = true ∨ e.sunday = true ∨ e.holiday = true) ∧ e.start ≤ 1439
              ∧ ∃ b, im.bands[e.band]? = some (some b))
          ∧ im.calendar.Pairwise (fun e f => e.start = f.start → ¬ ((e.weekday = true ∧ f.weekday = true)
              ∨ (e.saturday = true ∧ f.saturday = true) ∨ (e.sunday = true ∧ f.sunday = true) ∨ (e.holiday = true ∧ f.holiday = true)))
          ∧ (∀ d ∈ im.holidays, 2000 ≤ d.year ∧ d.year ≤ 2099 ∧ 1 ≤ d.month ∧ d.month ≤ 12 ∧ 1 ≤ d.day
              ∧ d.day ≤ daysInMonth d.year d.month)
          ∧ ∀ i < 8, ∀ x, extra (263 + 6 * i) = some x → 1 ≤ n (264 + 6 * i) 1 ∧ n (264 + 6 * i) 1 ≤ 3 ∧ 1 ≤ x.limit ∧ x.limit ≤ 6
              ∧ (x.kind = .entered → x.amount = 0) ∧ (x.kind ≠ .entered → 1 ≤ x.amount ∧ x.amount ≤ 50000)) →
      (frame ∧ numbers ∧ bands ∧ tables → validateImage (some bs) = some im)
      ∧ (¬ (frame ∧ numbers ∧ bands ∧ tables) → validateImage (some bs) = none))
  ∧ (∀ (read : Option (List Byte)) (im : Image) (seconds m : Nat), validateImage read = some im → m = seconds / 60 % 1440 →
      ∀ counted : List CalEntry, counted = im.calendar.filter (fun e =>
          if dateOf seconds ∈ im.holidays then e.holiday else if seconds / 86400 % 7 = 0 then e.saturday
          else if seconds / 86400 % 7 = 1 then e.sunday else e.weekday) →
      (∀ e ∈ counted, e.start ≤ m → (∀ f ∈ counted, f.start ≤ m → f.start ≤ e.start) → selectBand im seconds = e.band)
      ∧ (∀ e ∈ counted, (∀ f ∈ counted, m < f.start ∧ f.start ≤ e.start) → selectBand im seconds = e.band)
      ∧ (counted = [] → selectBand im seconds = 0)
      ∧ ∃ b, im.bands[selectBand im seconds]? = some (some b))

/-! ### Frame layouts (chapter 12) -/

/-- Every frame a station sends is read back by the receive checks as the frame that was sent, with every field at every value it can
carry (R74, R76, R198, Table 12-1). -/
def Obligations.FramesAreReadBackAsSent : Prop :=
  (∀ (a : Addr) kind party seq, party < 256 → seq < 256 →
      goodFrame (cabFrame 1 a (encClaim kind party seq)) = some (.claimReceived a kind party seq))
    ∧ (∀ a target : Addr, goodFrame (cabFrame 1 a (encObject target)) = some (.objectReceived a target))
    ∧ (∀ (a target : Addr) (cmd : Cmd) seq, seq < 256 → cmd.wf = true ∨ cmd.code ≥ 16 →
        goodFrame (cabFrame 2 a (encCommand target seq cmd)) = some (cmd.fromFrame a target seq))
    ∧ (∀ (a : Addr) seq r, seq < 256 → goodFrame (cabFrame 3 a (encReply seq r)) = some (.replyReceived a 0 seq r))
    ∧ (∀ (a : Addr) no kind, no < 65536 →
        goodFrame (cabFrame 4 a (encHireEvent (.start no kind))) = some (.hireStartReceived a no kind))
    ∧ (∀ (a : Addr) no due, no < 65536 → due < 16777216 →
        goodFrame (cabFrame 4 a (encHireEvent (.stop no due))) = some (.hireStopReceived a no due))
    ∧ (∀ (a : Addr) no o, no < 65536 →
        goodFrame (cabFrame 4 a (encHireEvent (.closed no o))) = some (.hireClosedReceived a no o))
    ∧ (∀ (a : Addr) e, goodFrame (cabFrame 4 a (encIntercomEvent e)) = some (e.received a))
    ∧ (∀ (a : Addr) f, f.wf = true → goodFrame (cabFrame 5 a (encShiftFrame f)) = some (f.received a))
    ∧ (∀ (a : Addr) (p : SummaryPart), p.wf = true →
        goodFrame (cabFrame 5 a (encSummary false p)) = some (.shiftSummary a p)
          ∧ goodFrame (cabFrame 5 a (encSummary true p)) = some (.lateSummaryPart a p))
    ∧ (∀ (a : Addr) (b : Beacon), b.wf = true → a = 0 ∨ b.role.toNat / 16 % 4 ≠ 3 →
        goodFrame (cabFrame 6 a (encBeacon b)) = some (.beaconReceived a b))
    ∧ (∀ (a target : Addr) no first, no < 65536 → first < 256 →
        goodFrame (cabFrame 7 a (encRecordQuery no target first)) = some (.recordQuery a no target first))
    ∧ (∀ (a : Addr) k m no data, recordPartOk k m no data = true →
        goodFrame (cabFrame 7 a (encRecordPart k m no data)) = some (.recordPart a k m no data))
    ∧ (∀ time no, time < 4294967296 → no < 65536 →
        goodFrame (cabFrame 0 0 (encDistress time no)) = some (.distressFrame 0 time no))

/-- The V form carries a value in the fewest groups of 7 bits and is read back, a value above 268 435 455 as that value (R199). A
receiver that takes the check's own bytes in ends with a register of 0, for every content, on the cab link and the card line and in the
tariff image, and so does the exclusive-or of the sign line (R198). -/
def Obligations.NumberFormsReadBackAndChecksClose : Prop :=
  (∀ (n : Nat) (rest : List Byte),
     vRead 0 (vBytes n ++ rest) = some (min n 268435455, rest)
       ∧ (vBytes n).length = (if n < 128 then 1 else if n < 16384 then 2 else if n < 2097152 then 3 else 4))
  ∧ ((∀ bs : List Byte, crc16 (withCrc16 bs) = 0)
       ∧ (∀ bs : List Byte, crc32 (bs ++ be32 (crc32 bs).toNat) = 0)
       ∧ (∀ bs : List Byte, xorSum (bs ++ [xorSum bs]) = 0))

/-! ### Hires and claims (chapter 1) -/

/-- A HIRE that passes the checks of R7 moves the slot to CLAIMING with the sent flag clear, and its CLAIM is queued or held for the
next slot end (R8). It gives no reply yet: the last reply shown for station 0 stands. A HIRE is refused with the reason of the first
check that fails, in the order of the rule, and a refused HIRE changes nothing but the reply (R7). -/
def Obligations.HireOpensAClaimOrIsRefused : Prop :=
  (∀ (src : Source) (seq : Nat) (kind : Kind) (party : Nat) (s : State),
     s.supply.running = true → s.Hears src →
     s.shift.state = .onShift → s.image ≠ none → s.identityOk = true → s.clock.isSet = true → s.straps.capacity ≠ 0 →
     1 ≤ party → party ≤ s.straps.capacity → s.hire.slot = .free → s.silent = false → s.interlocked kind = false →
     ∃ t, exec (.hire src seq kind party) s = .next t
       ∧ ({ s with hire := { s.hire with
             slot := .claiming { kind := kind, party := party, seq := seq, src := src, id := s.hire.claimId
                                 sent := false, window := none }
             claimId := s.hire.claimId + 1 } } : State).Kept t
       ∧ t.Offered (t.hire.claimHeld = true) 1 (encClaim kind party seq)
       ∧ t.console.lastReply = s.console.lastReply)
  ∧ (∀ (src : Source) (seq : Nat) (kind : Kind) (party : Nat) (s : State) (r : Reason),
       s.supply.running = true → s.Hears src →
       ([ (s.shift.state == .offShift, Reason.offShift), (s.shift.state == .closing, .closing),
          (s.image.isNone, .noTariff), (!s.identityOk, .tariffMismatch), (!s.clock.isSet, .clockUnset),
          (s.straps.capacity == 0, .noCapacity), (decide (party < 1 ∨ s.straps.capacity < party), .partyRange),
          (s.hire.slot != .free, .wrongState), (s.silent, .linkSilent),
          (s.peers.any fun p => p.present && p.hireState != .free && (kind == .exclusive || p.kind == .exclusive),
           .vehicleEngaged) ].find? fun c => c.1).map (fun c => c.2) = some r →
       ∃ t, exec (.hire src seq kind party) s = .next t ∧ s.Kept t ∧ s.Replied t src seq (.refused r))

/-- An OBJECT for this station ends its claim while the claim window runs: the slot returns to FREE and the HIRE is answered with
CLAIM_LOST; in every other case an OBJECT changes nothing, and a station with nothing left of an earlier event then does nothing but set the
fairness count to 0, end a pause and recompute the sign (R9, R80, R94). A station's own claim window runs only once the sent flag is set. -/
def Obligations.ObjectEndsTheClaimInItsWindow : Prop :=
  ∀ (sender target : Addr) (s : State), s.supply.running = true → s.HearsFrom sender →
    (∀ c : Claim, s.hire.slot = .claiming c → c.window.isSome = true → target = s.addr →
      ∃ t, exec (.objectReceived sender target) s = .next t
        ∧ ({ s with hire := { s.hire with slot := .free, resume := none } } : State).Kept t
        ∧ s.Replied t c.src c.seq (.refused .claimLost))
    ∧ ((∀ c : Claim, s.hire.slot = .claiming c → c.window = none ∨ target ≠ s.addr) →
      (∃ t, exec (.objectReceived sender target) s = .next t ∧ s.Kept t ∧ t.console.lastReply = s.console.lastReply)
        ∧ (s.Quiet → exec (.objectReceived sender target) s = .next s.onlyHeard))

/-- A station whose slot is FREE takes no action on a CLAIM, and the interlock stands as it stood (R10): with nothing left of an earlier
event it only sets the fairness count to 0, ends a pause and recomputes the sign (R80, R94), and at station 0 a HIRE pending for the
sender with the same sequence number is marked as claiming, with a reply limit of 500 ms (R175). -/
def Obligations.FreeStationTakesNoActionOnAClaim : Prop :=
  ∀ (sender : Addr) (kind : Kind) (party seq : Nat) (s : State), s.supply.running = true → s.HearsFrom sender →
    s.hire.slot = .free →
    (∃ t, exec (.claimReceived sender kind party seq) s = .next t ∧ s.Kept t
      ∧ ∀ k : Kind, t.interlocked k = s.interlocked k)
    ∧ (s.Quiet → ¬ s.Awaits sender seq → exec (.claimReceived sender kind party seq) s = .next s.onlyHeard)
    ∧ (∀ p, s.Quiet → s.Awaits sender seq → s.console.cmds.get sender = some p →
        exec (.claimReceived sender kind party seq) s = .next (s.claimSeen sender p).onlyHeard)

/-- Crossing claims and engaged hires (R11, R12): where one of the two is EXCLUSIVE, a claimer with the lower address and an engaged
station object and keep what they have, a claimer with the higher address abandons its claim with CLAIM_LOST; where both are SHARED
nothing is done. At station 0 a CLAIM that carries the sequence number of the HIRE pending for its sender marks that HIRE as claiming
and restarts its reply limit at 500 ms (R175). -/
def Obligations.ClaimsCrossByAddress : Prop :=
  ∀ (sender : Addr) (kind : Kind) (party seq : Nat) (s : State), s.supply.running = true → s.HearsFrom sender →
    (∀ c : Claim, s.hire.slot = .claiming c → kind = .exclusive ∨ c.kind = .exclusive → s.addr < sender →
      ∃ t, exec (.claimReceived sender kind party seq) s = .next t ∧ s.Kept t
        ∧ (s.silent = false → t.Offered (sender ∈ t.hire.objects) 1 (encObject sender))
        ∧ (s.Quiet → s.silent = false → t.hire.objects.count sender = s.hire.objects.count sender
            + (if (s.link.offer s.now 1 (encObject sender) (.object sender)).isSome then 0 else 1)))
    ∧ (∀ c : Claim, s.hire.slot = .claiming c → kind = .exclusive ∨ c.kind = .exclusive → sender < s.addr →
      ∃ t, exec (.claimReceived sender kind party seq) s = .next t
        ∧ ({ s with hire := { s.hire with slot := .free, resume := none } } : State).Kept t
        ∧ s.Replied t c.src c.seq (.refused .claimLost))
    ∧ (∀ h : Hire, s.hire.slot.hire? = some h → kind = .exclusive ∨ h.rc.kind = .exclusive →
      ∃ t, exec (.claimReceived sender kind party seq) s = .next t ∧ s.Kept t
        ∧ (s.silent = false → t.Offered (sender ∈ t.hire.objects) 1 (encObject sender))
        ∧ (s.Quiet → s.silent = false → t.hire.objects.count sender = s.hire.objects.count sender
            + (if (s.link.offer s.now 1 (encObject sender) (.object sender)).isSome then 0 else 1)))
    ∧ ((∀ c : Claim, s.hire.slot = .claiming c → kind = .shared ∧ c.kind = .shared) →
      (∀ h : Hire, s.hire.slot.hire? = some h → kind = .shared ∧ h.rc.kind = .shared) →
      (∃ t, exec (.claimReceived sender kind party seq) s = .next t ∧ s.Kept t)
        ∧ (s.Quiet → ¬ s.Awaits sender seq → exec (.claimReceived sender kind party seq) s = .next s.onlyHeard)
        ∧ (∀ p, s.Quiet → s.Awaits sender seq → s.console.cmds.get sender = some p →
            exec (.claimReceived sender kind party seq) s = .next (s.claimSeen sender p).onlyHeard))
    ∧ (∀ p, s.offers = [] → s.Awaits sender seq → s.console.cmds.get sender = some p →
      ∃ t, exec (.claimReceived sender kind party seq) s = .next t
        ∧ t.console.cmds.get sender = some { p with claiming := true, limit := some (ms 500) })

/-- At the end of the claim window the interlock is checked again: where it fails the slot returns to FREE with CLAIM_LOST; where it
passes and a band is in force, a record is formed, the slot is HIRED, HIRE_START is said and the HIRE answered DONE (R2, R3, R13,
R27). What the passenger display showed of the last outcome goes with the change of the hire (log entry 28). -/
def Obligations.ClaimWindowEndFormsTheHire : Prop :=
  ∀ (c : Claim) (s : State), s.supply.running = true → s.hire.slot = .claiming c → c.window.isSome = true →
    (s.interlocked c.kind = true →
      ∃ t, exec .claimWindowEnd s = .next t
        ∧ ({ s with hire := { s.hire with slot := .free, resume := none } } : State).Kept t
        ∧ s.Replied t c.src c.seq (.refused .claimLost))
    ∧ (∀ (im : Image) (b : Band), s.interlocked c.kind = false → s.image = some im →
        (im.bands[selectBand im s.clock.seconds]?).join = some b →
      ∃ t no rc, exec .claimWindowEnd s = .next t
        ∧ ({ s with
              hire := { s.hire with slot := .hired { rc := rc, snap := snapshotOf im b }
                                    nextNo := if 9999 ≤ no then 1 else no + 1, tally := 0 }
              display := s.display.cleared } : State).Kept t
        ∧ no = freeHireNo s.hire.log s.shift.number 33 s.hire.nextNo
        ∧ rc.no = no ∧ rc.shiftNo = s.shift.number ∧ rc.kind = c.kind ∧ rc.party = c.party
        ∧ rc.bandIdx = selectBand im s.clock.seconds ∧ rc.start = s.clock.seconds ∧ rc.lastSlot = s.clock.seconds
        ∧ rc.allowD = b.d0 * im.k ∧ rc.allowT = b.t0 * 10 ∧ rc.flagFall = b.fb ∧ rc.accD = 0 ∧ rc.accT = 0 ∧ rc.carry = 0
        ∧ rc.distCharge = 0 ∧ rc.timeCharge = 0 ∧ rc.undiscounted = 0 ∧ rc.paidPulses = 0 ∧ rc.hiredTenths = 0
        ∧ rc.charging = (if b.mode = .switched then some .time else none) ∧ rc.level = s.sharingLevel c.kind
        ∧ rc.extras = [] ∧ rc.tenders = [] ∧ rc.stop = none ∧ rc.close = none ∧ rc.rounding = none ∧ rc.topUp = none
        ∧ rc.due = none ∧ rc.tip = none ∧ rc.unpaid = none ∧ rc.outcome = none ∧ rc.gapSeconds = 0
        ∧ rc.privacy = false ∧ rc.conflict = false ∧ rc.powerGap = false ∧ rc.pulseFault = false ∧ rc.capped = false
        ∧ s.Announced t (.start no c.kind)
        ∧ s.Replied t c.src c.seq .done)

/-- A new record takes the next hire number, passing over those that the log holds with the current shift number: with a log of at most
32 records and a number n in its range, the number taken is in the range, the log does not hold it with this shift number, and the log
holds every number from n up to it with this shift number, counting from 9999 on to 1 (R3). A transaction number is one that neither the
reversal list nor a card tender of the slot or the log holds (R130): with at most 4 reversals, 32 records and 3 tenders each, the number
taken is in 1 to 65 535 and not in use, it is the next one where that is free, and every number from the next one up to it is in use,
counting from 65 535 on to 1. -/
def Obligations.HireAndTransactionNumbersAreNew : Prop :=
  (∀ (log : List HireRecord) (shiftNo n : Nat), log.length ≤ 32 → 1 ≤ n → n ≤ 9999 →
     1 ≤ freeHireNo log shiftNo 33 n ∧ freeHireNo log shiftNo 33 n ≤ 9999
       ∧ (∀ r ∈ log, r.shiftNo = shiftNo → r.no ≠ freeHireNo log shiftNo 33 n)
       ∧ ((∀ r ∈ log, r.shiftNo = shiftNo → r.no ≠ n) → freeHireNo log shiftNo 33 n = n)
       ∧ ∃ passed, passed ≤ 32 ∧ freeHireNo log shiftNo 33 n = (n - 1 + passed) % 9999 + 1
         ∧ ∀ j, j < passed → ∃ r ∈ log, r.shiftNo = shiftNo ∧ r.no = (n - 1 + j) % 9999 + 1)
  ∧ (∀ (s : State) (n : Nat), s.pay.reversals.length ≤ 4 → s.hire.log.length ≤ 32 → (∀ r ∈ s.hire.log, r.tenders.length ≤ 3) →
       (∀ h, s.hire.slot.hire? = some h → h.rc.tenders.length ≤ 3) → 1 ≤ n → n ≤ 65535 →
       ∀ k, k = s.freeTxn 104 n →
       1 ≤ k ∧ k ≤ 65535 ∧ (∀ r ∈ s.pay.reversals, r.txn ≠ k)
         ∧ (∀ rc : HireRecord, rc ∈ s.hire.log ∨ (∃ h, s.hire.slot.hire? = some h ∧ h.rc = rc) →
             ∀ a scheme four auth, Tender.card a k scheme four auth ∉ rc.tenders)
         ∧ (s.txnTaken n = false → k = n)
         ∧ ∃ passed, passed ≤ 103 ∧ k = (n - 1 + passed) % 65535 + 1
           ∧ ∀ j, j < passed → (∃ r ∈ s.pay.reversals, r.txn = (n - 1 + j) % 65535 + 1)
             ∨ ∃ rc : HireRecord, (rc ∈ s.hire.log ∨ (∃ h, s.hire.slot.hire? = some h ∧ h.rc = rc))
               ∧ ∃ a scheme four auth, Tender.card a ((n - 1 + j) % 65535 + 1) scheme four auth ∈ rc.tenders)

/-- STOP in HIRED fixes rounding, top-up and due, sets the stop time, moves the slot to STOPPED, opens the resume window for 60 s,
discards the slot tally, says HIRE_STOP with the due, and is answered DONE (R15, R28, R39). RESUME in STOPPED: with the resume window
open the hire runs on, without rounding, top-up, due and stop time and with all else of its record as it stood, the window closes,
HIRE_START is said, and it is answered DONE; with the window closed it is refused with RESUME_TOO_LATE. The resume timer's expiry closes
the window (R16, R40). -/
def Obligations.StopFixesTheDueAndResumeRunsOn : Prop :=
  (∀ (src : Source) (seq : Nat) (h : Hire) (s : State), s.supply.running = true → s.Hears src → s.hire.slot = .hired h →
     ∃ t due, exec (.stop src seq) s = .next t
       ∧ (h.rc.fixDue h.snap.band.fmin).due = some due
       ∧ ({ s with
             hire := { s.hire with
               slot := .stopped { h with rc := { h.rc.fixDue h.snap.band.fmin with stop := some s.clock.seconds } }
               resume := some (sec 60), tally := 0 }
             display := s.display.cleared } : State).Kept t
       ∧ s.Announced t (.stop h.rc.no due) ∧ s.Replied t src seq .done)
  ∧ ((∀ (src : Source) (seq : Nat) (h : Hire) (s : State), s.supply.running = true → s.Hears src → s.hire.slot = .stopped h →
       (s.hire.resume ≠ none →
         ∃ t, exec (.resume src seq) s = .next t
           ∧ ({ s with
                 hire := { s.hire with
                   slot := .hired { h with rc := { h.rc with rounding := none, topUp := none, due := none, stop := none } }
                   resume := none, tally := 0 }
                 display := s.display.cleared } : State).Kept t
           ∧ s.Announced t (.start h.rc.no h.rc.kind) ∧ s.Replied t src seq .done)
       ∧ (s.hire.resume = none →
         ∃ t, exec (.resume src seq) s = .next t ∧ s.Kept t ∧ s.Replied t src seq (.refused .resumeTooLate)))
     ∧ (∀ s : State, s.supply.running = true →
         ∃ t, exec .resumeTimerExpiry s = .next t ∧ ({ s with hire := { s.hire with resume := none } } : State).Kept t))

/-- CANCEL in HIRED: while the hired tenths are below 600 and the paid pulses below 200 × K / 1000 the hire closes as CANCELLED with a
due of 0, its record filled by the close and appended to the log, HIRE_CLOSED is said, and it is answered DONE; otherwise it is refused
with CANCEL_TOO_LATE (R17, R21). The comparison with 200 × K / 1000 is exact (log entry 31). UNPAID in STOPPED or PAYING: with a session
active it is refused with PAYMENT_ACTIVE; otherwise a tip is lowered to what the applied amounts exceed the due by, the unpaid amount is
due + tip − applied, the hire closes as UNPAID, HIRE_CLOSED is said, and it is answered DONE (R20, R21). -/
def Obligations.CancelAndUnpaidCloseTheHire : Prop :=
  (∀ (src : Source) (seq : Nat) (h : Hire) (s : State), s.supply.running = true → s.Hears src → s.hire.slot = .hired h →
     (h.rc.hiredTenths < 600 → h.rc.paidPulses * 1000 < 200 * h.snap.k →
       ∃ t, exec (.cancel src seq) s = .next t ∧ (s.hireClosed h .cancelled).Kept t
         ∧ t.hire.slot = .free
         ∧ t.hire.log = (s.hire.log ++ [{ h.rc with
               outcome := some .cancelled, close := some s.clock.seconds, due := some 0, privacy := false
               paidDistance := some (h.rc.paidPulses * 1000 / h.snap.k)
               hiredSeconds := some (h.rc.hiredTenths / 10) }]).drop (s.hire.log.length + 1 - 32)
         ∧ s.Announced t (.closed h.rc.no .cancelled) ∧ s.Replied t src seq .done)
     ∧ (600 ≤ h.rc.hiredTenths ∨ 200 * h.snap.k ≤ h.rc.paidPulses * 1000 →
       ∃ t, exec (.cancel src seq) s = .next t ∧ s.Kept t ∧ s.Replied t src seq (.refused .cancelTooLate)))
  ∧ (∀ (src : Source) (seq : Nat) (h : Hire) (s : State), s.supply.running = true → s.Hears src →
       s.hire.slot = .stopped h ∨ s.hire.slot = .paying h →
       (s.pay.session ≠ .none →
         ∃ t, exec (.unpaid src seq) s = .next t ∧ s.Kept t ∧ s.Replied t src seq (.refused .paymentActive))
       ∧ (∀ due, s.pay.session = .none → h.rc.due = some due →
         ∃ t tip, exec (.unpaid src seq) s = .next t
           ∧ tip = h.rc.tip.map (fun x => min x (h.rc.appliedSum - due))
           ∧ (s.hireClosed
               { h with rc := { h.rc with tip := tip, unpaid := some (due + tip.getD 0 - h.rc.appliedSum) } } .unpaid).Kept t
           ∧ s.Announced t (.closed h.rc.no .unpaid) ∧ s.Replied t src seq .done))

/-- EXTRA in HIRED or STOPPED is refused with the reason of the first check that fails, in the order of the rule (R41), and otherwise
appended to the list; in STOPPED the due is then metered amount, top-up and extras, and HIRE_STOP carries it (R15, R38, R40, R42).
EXTRA_REMOVE in HIRED or STOPPED removes the last-added entry, and is refused with WRONG_STATE when the list is empty; in STOPPED the
due is computed again (R18, R40). EXTRA appends at the end of the list and passes the same state gate: outside HIRED and STOPPED both
are refused with WRONG_STATE. -/
def Obligations.ExtrasAreAddedInOrderAndRemovedFromTheEnd : Prop :=
  (∀ (src : Source) (seq code amount : Nat) (h : Hire) (stopped : Bool) (s : State),
     s.supply.running = true → s.Hears src → s.hire.slot = (if stopped then .stopped h else .hired h) →
     (∀ r, ([ (s.image.isNone, Reason.noTariff), (((s.image.bind fun im => im.extra code)).isNone, .amountRange),
           (decide (6 ≤ h.rc.extras.length), .extrasFull),
           (((s.image.bind fun im => im.extra code).map fun d =>
             decide (d.limit ≤ (h.rc.extras.filter fun e => e.1 == code).length)).getD false, .extraLimit),
           (((s.image.bind fun im => im.extra code).bind fun d => d.form h.rc.party amount).isNone, .amountRange),
           (decide (999999 < (if stopped then h.rc.due.getD 0 else h.rc.running)
             + ((s.image.bind fun im => im.extra code).bind fun d => d.form h.rc.party amount).getD 0), .amountRange)
         ].find? fun c => c.1).map (fun c => c.2) = some r →
       ∃ t, exec (.extra src seq code amount) s = .next t ∧ s.Kept t ∧ s.Replied t src seq (.refused r))
     ∧ (∀ im d a, s.image = some im → im.extra code = some d → h.rc.extras.length < 6 →
         (h.rc.extras.filter fun e => e.1 == code).length < d.limit → d.form h.rc.party amount = some a →
         (if stopped then h.rc.due.getD 0 else h.rc.running) + a ≤ 999999 →
       ∃ t, exec (.extra src seq code amount) s = .next t
         ∧ (stopped = false →
             ({ s with hire := { s.hire with slot := .hired { h with rc := { h.rc with
                   extras := h.rc.extras ++ [(code, a)] } } }, display := s.display.cleared } : State).Kept t)
         ∧ (stopped = true →
             ({ s with hire := { s.hire with slot := .stopped { h with rc := { h.rc with
                   extras := h.rc.extras ++ [(code, a)]
                   due := some (h.rc.metered + h.rc.topUp.getD 0 + (h.rc.extrasSum + a)) } } }
                       display := s.display.cleared } : State).Kept t
             ∧ s.Announced t (.stop h.rc.no (h.rc.metered + h.rc.topUp.getD 0 + (h.rc.extrasSum + a))))
         ∧ s.Replied t src seq .done))
  ∧ ((∀ (src : Source) (seq : Nat) (h : Hire) (s : State), s.supply.running = true → s.Hears src →
       (h.rc.extras = [] → s.hire.slot = .hired h ∨ s.hire.slot = .stopped h →
         ∃ t, exec (.extraRemove src seq) s = .next t ∧ s.Kept t ∧ s.Replied t src seq (.refused .wrongState))
       ∧ (h.rc.extras ≠ [] → s.hire.slot = .hired h →
         ∃ t, exec (.extraRemove src seq) s = .next t
           ∧ ({ s with hire := { s.hire with slot := .hired { h with rc := { h.rc with
                   extras := h.rc.extras.dropLast } } }, display := s.display.cleared } : State).Kept t
           ∧ s.Replied t src seq .done)
       ∧ (h.rc.extras ≠ [] → s.hire.slot = .stopped h →
         ∃ t, exec (.extraRemove src seq) s = .next t
           ∧ ({ s with hire := { s.hire with slot := .stopped { h with rc := { h.rc with
                   extras := h.rc.extras.dropLast
                   due := some (h.rc.metered + h.rc.topUp.getD 0 + ((h.rc.extras.dropLast).map fun e => e.2).sum) } } }
                       display := s.display.cleared } : State).Kept t
           ∧ s.Announced t (.stop h.rc.no (h.rc.metered + h.rc.topUp.getD 0 + ((h.rc.extras.dropLast).map fun e => e.2).sum))
           ∧ s.Replied t src seq .done))
     ∧ (∀ (src : Source) (seq code amount : Nat) (s : State), s.supply.running = true → s.Hears src →
         (∀ h, s.hire.slot ≠ .hired h ∧ s.hire.slot ≠ .stopped h) →
         (∃ t, exec (.extraRemove src seq) s = .next t ∧ s.Kept t ∧ s.Replied t src seq (.refused .wrongState))
           ∧ (∃ t, exec (.extra src seq code amount) s = .next t ∧ s.Kept t ∧ s.Replied t src seq (.refused .wrongState))))

/-- Table 1-3: a command that the slot's state does not take is refused with WRONG_STATE and changes nothing. -/
def Obligations.WrongStateIsRefused : Prop :=
  ∀ (src : Source) (seq : Nat) (s : State), s.supply.running = true → s.Hears src →
    (∀ c : Instr,
      ((c = .stop src seq ∨ c = .cancel src seq) ∧ (∀ h, s.hire.slot ≠ .hired h))
        ∨ (c = .resume src seq ∧ (∀ h, s.hire.slot ≠ .stopped h))
        ∨ ((c = .unpaid src seq ∨ (∃ n, c = .payCash src seq n) ∨ (∃ d n, c = .payAccount src seq d n)
              ∨ c = .payCard src seq) ∧ (∀ h, s.hire.slot ≠ .stopped h ∧ s.hire.slot ≠ .paying h))
        ∨ (c = .cardCancel src seq ∧ (∀ h, s.hire.slot ≠ .paying h)) →
      ∃ t, exec c s = .next t ∧ s.Kept t ∧ s.Replied t src seq (.refused .wrongState))

/-- A pending late close is carried out as soon as the slot is FREE and the session NONE: the old shift is closed with the mark LATE
into the last-shift record, and the new one adopted with zeroed accumulators and hire number 1; while it may not be made it waits
(R153, R157, R152, R3). The LATE summary of the closed shift begins with the close: its four parts, and its part 0 queued or held for
re-offer (R161). -/
def Obligations.LateCloseIsMadeAtRest : Prop :=
  ∀ (number driver : Nat) (s : State), s.supply.running = true → s.shift.pendingLate = some (number, driver) →
    (s.hire.slot = .free → s.pay.session = .none →
      ∃ t, exec .lateClose s = .next t ∧ s.Kept t
        ∧ t.shift.state = .onShift ∧ t.shift.number = number ∧ t.shift.driver = some driver
        ∧ t.shift.openTime = some s.clock.seconds ∧ t.shift.acc = .zero ∧ t.shift.lost = false
        ∧ t.shift.coldMark = false ∧ t.shift.pendingLate = none ∧ t.hire.nextNo = 1
        ∧ t.shift.last = some { number := s.shift.number, driver := s.shift.driver, openTime := s.shift.openTime
                                lost := s.shift.lost, closeTime := s.clock.seconds, mark := .late, acc := s.shift.acc }
        ∧ ∃ tx, t.shift.lateTx = some tx ∧ tx.k = 0 ∧ tx.parts = s.summaryParts s.shift.number s.shift.lost s.shift.acc
          ∧ ∀ p, tx.parts[0]? = some p → t.Offered (tx.held = true) 5 (encSummary true p))
    ∧ (s.hire.slot ≠ .free ∨ s.pay.session ≠ .none →
      ∃ t, exec .lateClose s = .next t ∧ s.Kept t ∧ t.shift.pendingLate = some (number, driver)
        ∧ t.shift.number = s.shift.number ∧ t.shift.acc = s.shift.acc ∧ t.shift.state = s.shift.state)

/-! ### Fare arithmetic (chapter 2) -/

/-- The credit of one slot with p pulses goes to the allowance of its own kind first, and then to the accumulator (R29, R30): under
SWITCHED p × 1000 to distance in DIST and one tenth to time otherwise, under COMBINED both; nothing else of the record changes. Steps
are taken while one is due, all distance steps before any time step (R31): afterwards both accumulators are below their thresholds,
lowered by whole thresholds, the distance steps are those of the accumulator before them, then the time steps. One step of amount S at
the factor f of the record's level (R34, R35): with the cap not reached the charge is the whole part of (S × f + carry) / 1000, the
carry the rest, so that 1000 × charges + carry rises by exactly S × f; at the cap the charge is lowered so that the amount is 999 999,
CAPPED is set and the carry is 0; a CAPPED hire is charged nothing more. S is added to the undiscounted total in every case, and nothing
else changes. That every step of a CAPPED record leaves the carry 0, whichever rule capped it, is the model's choice (log entry 37). -/
def Obligations.CreditBecomesStepsChargedWithinTheCap : Prop :=
  (∀ (b : Band) (p : Nat) (r : HireRecord),
     let d := if b.mode = .combined ∨ r.charging = some .dist then p * 1000 else 0
     let t := if b.mode = .combined ∨ r.charging ≠ some .dist then 1 else 0
     r.creditSlot b p = { r with
       allowD := r.allowD - min r.allowD d, accD := r.accD + (d - min r.allowD d)
       allowT := r.allowT - min r.allowT t, accT := r.accT + (t - min r.allowT t) })
  ∧ (∀ (sn : Snapshot) (r : HireRecord), 0 < sn.threshold → 0 < sn.band.lt →
       (r.takeSteps sn).accD < sn.threshold ∧ (r.takeSteps sn).accT < sn.band.lt
         ∧ r.accD = (r.takeSteps sn).accD + sn.threshold * (r.accD / sn.threshold)
         ∧ r.accT = (r.takeSteps sn).accT + sn.band.lt * (r.accT / sn.band.lt)
         ∧ (r.takeSteps sn).undiscounted
             = r.undiscounted + sn.band.sd * (r.accD / sn.threshold) + sn.band.st * (r.accT / sn.band.lt)
         ∧ (sn.threshold ≤ r.accD →
             r.takeSteps sn = (stepCharge sn.band .distance { r with accD := r.accD - sn.threshold }).takeSteps sn)
         ∧ (r.accD < sn.threshold → sn.band.lt ≤ r.accT →
             r.takeSteps sn = (stepCharge sn.band .time { r with accT := r.accT - sn.band.lt }).takeSteps sn)
         ∧ (r.accD < sn.threshold → r.accT < sn.band.lt → r.takeSteps sn = r))
  ∧ (∀ (b : Band) (k : StepKind) (r : HireRecord) (f : Nat),
       (r.level = 1 ∧ f = b.f1) ∨ (r.level = 2 ∧ f = b.f2) ∨ (r.level = 3 ∧ f = b.f3) ∨ (r.level = 4 ∧ f = b.f4) →
       ∀ amount raw : Nat, amount = (if k = .distance then b.sd else b.st) → raw = amount * f + r.carry →
       (r.capped = false → r.running + raw / 1000 ≤ 999999 →
         stepCharge b k r = { r with
           distCharge := r.distCharge + (if k = .distance then raw / 1000 else 0)
           timeCharge := r.timeCharge + (if k = .time then raw / 1000 else 0)
           carry := raw % 1000, undiscounted := r.undiscounted + amount }
         ∧ 1000 * ((stepCharge b k r).distCharge + (stepCharge b k r).timeCharge) + (stepCharge b k r).carry
             = 1000 * (r.distCharge + r.timeCharge) + r.carry + amount * f)
       ∧ (r.capped = false → r.running ≤ 999999 → 999999 < r.running + raw / 1000 →
         stepCharge b k r = { r with
           distCharge := r.distCharge + (if k = .distance then 999999 - r.running else 0)
           timeCharge := r.timeCharge + (if k = .time then 999999 - r.running else 0)
           carry := 0, capped := true, undiscounted := r.undiscounted + amount }
         ∧ (stepCharge b k r).running = 999999)
       ∧ (r.capped = true →
         stepCharge b k r = { r with carry := 0, undiscounted := r.undiscounted + amount }))

/-- The sharing level (R32): 1 for an EXCLUSIVE hire or a LINK_SILENT station; otherwise 1 plus the present rows of other addresses that
show a SHARED hire in HIRED, at most 4. The speed is P × 18 000 / K, and under a SWITCHED band it changes TIME to DIST from Vs + Vh on
and DIST to TIME below Vs − Vh; a COMBINED band keeps no state (R36). -/
def Obligations.SpeedAndSharingLevelSetTheRate : Prop :=
  (∀ s : State,
     s.sharingLevel .exclusive = 1
       ∧ (∀ k, s.silent = true → s.sharingLevel k = 1)
       ∧ (s.silent = false → s.sharingLevel .shared
           = min 4 (1 + ((allAddrs.filter fun a => a != s.addr && (s.peer.rows.get a).present
               && (s.peer.rows.get a).hireState == .hired && (s.peer.rows.get a).kind == .shared)).length)))
  ∧ (∀ (b : Band) (k sum : Nat), b.vh ≤ b.vs →
       (b.mode = .switched →
         (nextCharging b (speedOf k sum) (some .time) = some .dist ↔ b.vs + b.vh ≤ sum * 18000 / k)
         ∧ (nextCharging b (speedOf k sum) (some .time) = some .time ↔ sum * 18000 / k < b.vs + b.vh)
         ∧ (nextCharging b (speedOf k sum) (some .dist) = some .time ↔ sum * 18000 / k + b.vh < b.vs)
         ∧ (nextCharging b (speedOf k sum) (some .dist) = some .dist ↔ b.vs ≤ sum * 18000 / k + b.vh))
       ∧ (b.mode = .combined → nextCharging b (speedOf k sum) none = none))

/-- At STOP rounding is 1 from a carry of 500 on and top-up fills the metered amount to the minimum fare, each only within the cap
999 999, where it is lowered and CAPPED set; the due is metered amount, top-up and extras, never above the cap; the carry and
everything else of the record stand (R39). -/
def Obligations.DueIsRoundedAndToppedUpWithinTheCap : Prop :=
  ∀ (r : HireRecord) (fmin base extras rounding topUp : Nat),
    base = r.flagFall + r.distCharge + r.timeCharge → extras = r.extrasSum → base + extras ≤ 999999 →
    rounding = (if 500 ≤ r.carry ∧ base + 1 + extras ≤ 999999 then 1 else 0) →
    topUp = min (fmin - (base + rounding)) (999999 - (base + rounding + extras)) →
    r.fixDue fmin = { r with
        rounding := some rounding, topUp := some topUp, due := some (base + rounding + topUp + extras)
        capped := r.capped || decide (500 ≤ r.carry ∧ 999999 < base + 1 + extras)
          || decide (0 < fmin - (base + rounding) ∧ 999999 < base + rounding + (fmin - (base + rounding)) + extras) }
      ∧ base + rounding + topUp + extras ≤ 999999
      ∧ (fmin + extras ≤ 999999 → fmin ≤ base + rounding + topUp)

/-! ### Distance, speed and the clock (chapter 3) -/

/-- A slot end (R28, R33, R37, R48 to R54): the raw count, clamped to the ring limit, enters the ring and the total pulses and starts
again at 0, the fault state takes its step, and the next slot of 100 ms begins. A HIRED hire is credited and charged with its tally at
the sharing level that its table shows, adds to its paid pulses and hired tenths, and its tally starts again at 0; in every other slot
state the hire controller keeps what it has. The fault that the hire records, and the beacon shows until the next slot end, is RAISED
from the slot end that raises it through the one that clears it. Print jobs that wait for room are offered again, and so is every frame
that a block holds for re-offer (Table 5-4), but a SHIFT_REFUSE only while the conditions that caused it stand, and one whose conditions
stand no more is dropped (R160, read as log entry 40 infers). In a station with nothing left of an earlier event and room for them
all, each that is offered stands in the queue after the slot end and is held no longer, and with the queue full each is held on (R6, R8,
R11, R22, R110, R161, R185, R186). -/
def Obligations.SlotEndCountsAndCharges : Prop :=
  ∀ (limit c : Nat) (s : State), s.supply.running = true → s.pulse.slot ≠ none →
    limit = (s.hire.slot.hire?.map fun h => h.snap.pmax).getD ((s.image.map fun im => im.vmax * im.k / 36000).getD 500) →
    c = min s.pulse.raw limit →
    ∀ pulse shift,
    pulse = ({ raw := 0, ring := s.pulse.ring.drop 1 ++ [c], fault := s.pulse.fault.next (decide (limit < s.pulse.raw))
               seen := s.pulse.fault.seenAt (decide (limit < s.pulse.raw)), slot := some 1000 } : Pulse) →
    shift = s.shift.added (fun a => { a with
      totalPulses := min 4294967295 (a.totalPulses + c)
      faultSeconds := min 4294967295 (a.faultSeconds + if s.pulse.fault.second then 1 else 0) }) →
    (∀ h : Hire, s.hire.slot = .hired h →
      ∃ t h', exec .slotEnd s = .next t
        ∧ ({ s with pulse := pulse, shift := shift
                    hire := { s.hire with slot := .hired h', tally := 0, speed := pulse.ring.sum * 18000 / h.snap.k } }
              : State).reofferJobs.Kept t
        ∧ h'.snap = h.snap ∧ h'.rc.paidPulses = h.rc.paidPulses + min s.hire.tally h.snap.pmax
        ∧ h'.rc.hiredTenths = h.rc.hiredTenths + 1 ∧ h'.rc.lastSlot = s.clock.seconds
        ∧ h'.rc.level = s.sharingLevel h.rc.kind
        ∧ h'.rc.pulseFault = (h.rc.pulseFault || s.pulse.fault.seenAt (decide (limit < s.pulse.raw)))
        ∧ ∃ stepped, stepped = ((({ h.rc with level := s.sharingLevel h.rc.kind } : HireRecord).creditSlot h.snap.band
              (min s.hire.tally h.snap.pmax)).takeSteps h.snap)
          ∧ h'.rc = { stepped with
              charging := nextCharging h.snap.band (pulse.ring.sum * 18000 / h.snap.k) stepped.charging
              paidPulses := h'.rc.paidPulses, hiredTenths := h'.rc.hiredTenths, lastSlot := s.clock.seconds
              pulseFault := h'.rc.pulseFault })
    ∧ ((∀ h : Hire, s.hire.slot ≠ .hired h) →
      ∃ t, exec .slotEnd s = .next t ∧ ({ s with pulse := pulse, shift := shift } : State).reofferJobs.Kept t)
    ∧ (s.Quiet → s.silent = false → s.link.queue.length + s.heldOffers.length ≤ 12 →
      ∃ t, exec .slotEnd s = .next t
        ∧ (∀ seq r, s.hire.reply = some (seq, r) → t.link.Carries 3 (encReply seq r)) ∧ t.hire.reply = none
        ∧ (∀ c, s.hire.slot = .claiming c → s.hire.claimHeld = true →
            t.link.Carries 1 (encClaim c.kind c.party c.seq) ∧ t.hire.claimHeld = false)
        ∧ (∀ a ∈ s.hire.objects, t.link.Carries 1 (encObject a)) ∧ t.hire.objects = []
        ∧ (∀ e, s.hire.event = some e → t.link.Carries 4 (encHireEvent e)) ∧ t.hire.event = none
        ∧ (∀ e ∈ s.intercom.events, t.link.Carries 4 (encIntercomEvent e)) ∧ t.intercom.events = []
        ∧ (∀ f ∈ s.shift.held, s.standsHeld f = true → t.link.Carries 5 (encShiftFrame f)) ∧ t.shift.held = []
        ∧ (∀ tx p, s.shift.tx = some tx → tx.held = true → tx.parts[tx.k]? = some p →
            t.link.Carries 5 (encSummary false p) ∧ t.shift.tx = some { tx with held := false })
        ∧ (∀ tx p, s.shift.lateTx = some tx → tx.held = true → tx.parts[tx.k]? = some p →
            t.link.Carries 5 (encSummary true p) ∧ t.shift.lateTx = some { tx with held := false })
        ∧ (∀ tr, s.print.transfer = some tr → tr.queryHeld = true →
            t.link.Carries 7 (encRecordQuery tr.hireNo tr.target tr.first)
              ∧ t.print.transfer = some { tr with queryHeld := false })
        ∧ (∀ sv p, s.print.serve = some sv → sv.held = true → sv.parts[sv.k]? = some p →
            t.link.Carries 7 (encRecordPart sv.k sv.parts.length sv.hireNo p)
              ∧ t.print.serve = some { sv with held := false }))
    ∧ (s.Quiet → s.silent = false → 16 ≤ s.link.queue.length →
      ∃ t, exec .slotEnd s = .next t ∧ t.link = s.link ∧ t.hire.reply = s.hire.reply ∧ t.hire.claimHeld = s.hire.claimHeld
        ∧ t.hire.objects = s.hire.objects ∧ t.hire.event = s.hire.event ∧ t.intercom.events = s.intercom.events
        ∧ t.shift.held = s.shift.held.filter (fun f => s.standsHeld f) ∧ t.shift.tx = s.shift.tx
        ∧ t.shift.lateTx = s.shift.lateTx
        ∧ t.print.transfer = s.print.transfer ∧ t.print.serve = s.print.serve)

/-- A pulse adds 1 to the raw count, which saturates at 4095, and to the tally of a HIRED hire (R46, R28). A second of the clock adds 1
to the seconds, which hold at their top, in a stopped station as in a running one (R56, R57). The pulse fault (R51 to R53): it rises at
the 20th clamped slot end in a row and clears at the 20th unclamped one, the fault tenths count every slot end from the one that raises
it through the one that clears it, and every tenth of them is a fault second. The rows of the fault are the slot end that crosses the
threshold (log entry 4): the slot end that raises the fault, the one that clears it, and the one at which the tenth fault tenth makes a
second; at any other moment the row changes nothing (R51 to R53). -/
def Obligations.PulsesSecondsAndFaultsAreCounted : Prop :=
  ((∀ s : State, s.supply.running = true →
     ∃ t, exec .odometerPulse s = .next t
       ∧ ({ s with pulse := { s.pulse with raw := min 4095 (s.pulse.raw + 1) }
                   hire := { s.hire with tally := s.hire.tally + (if s.hire.slot.shown = .hired then 1 else 0) } }
             : State).Kept t)
   ∧ (∀ s : State, exec .clockSecond s = .next { s with clock :=
       { s.clock with seconds := min 4294967295 (s.clock.seconds + 1), phase := s.clock.phase - 10000 } }))
  ∧ ((∀ run, run < 19 → (PulseFault.clear run).next true = .clear (run + 1))
       ∧ (PulseFault.clear 19).next true = .raised 0 1
       ∧ (∀ run, (PulseFault.clear run).next false = .clear 0 ∧ (PulseFault.clear run).second = false)
       ∧ (∀ clean tenths, tenths < 10 →
           (PulseFault.raised clean tenths).next true = .raised 0 ((tenths + 1) % 10)
           ∧ (clean < 19 → (PulseFault.raised clean tenths).next false = .raised (clean + 1) ((tenths + 1) % 10))
           ∧ (clean = 19 → (PulseFault.raised clean tenths).next false = .clear 0)
           ∧ ((PulseFault.raised clean tenths).second = true ↔ tenths = 9)
           ∧ ∀ clamped, (PulseFault.raised clean tenths).seenAt clamped = true)
       ∧ (∀ run clamped, run < 20 → ((PulseFault.clear run).seenAt clamped = true ↔ clamped = true ∧ run = 19)))
  ∧ (∀ s : State, s.supply.running = true → s.pulse.slot ≠ none →
       (∀ run, s.pulse.fault = .clear run →
         (s.ringLimit < s.pulse.raw → 19 ≤ run →
           ∃ t, exec .pulseFaultRaised s = .next t ∧ exec .slotEnd s = .next t ∧ t.pulse.fault = .raised 0 1)
         ∧ (s.pulse.raw ≤ s.ringLimit ∨ run < 19 → ∃ t, exec .pulseFaultRaised s = .next t ∧ s.Kept t)
         ∧ (∃ t, exec .pulseFaultCleared s = .next t ∧ s.Kept t) ∧ (∃ t, exec .faultSecond s = .next t ∧ s.Kept t))
       ∧ (∀ clean tenths, s.pulse.fault = .raised clean tenths →
         (∃ t, exec .pulseFaultRaised s = .next t ∧ s.Kept t)
         ∧ (s.pulse.raw ≤ s.ringLimit → 19 ≤ clean →
           ∃ t, exec .pulseFaultCleared s = .next t ∧ exec .slotEnd s = .next t ∧ t.pulse.fault = .clear 0)
         ∧ (s.ringLimit < s.pulse.raw ∨ clean < 19 → ∃ t, exec .pulseFaultCleared s = .next t ∧ s.Kept t)
         ∧ (9 ≤ tenths → ∃ t, exec .faultSecond s = .next t ∧ exec .slotEnd s = .next t
             ∧ (s.shift.state ≠ .offShift → s.shift.pendingLate = none →
                 t.shift.acc.faultSeconds = min 4294967295 (s.shift.acc.faultSeconds + 1)))
         ∧ (tenths < 9 → ∃ t, exec .faultSecond s = .next t ∧ s.Kept t)))

/-- Every step leaves nothing of its event behind: all that it offered has been answered, and a late close that may be made has been
made (R81, R153). -/
def Obligations.EveryStepEndsItsEvent : Prop :=
  State.reset.Quiet ∧ ∀ s t : State, s.Quiet → step s = .next t → t.Quiet

/-! ### The cab link (chapter 5) -/

/-- Admission to the transmit queue (R81, R82, R91). An offer that replaces nothing is taken with 4 or more entries free, with 1 to 3
free only in class 0 to 3, and never with none; it stands behind the older entries of its class and of lower ones. A DISTRESS or BEACON
offer replaces the payload of one that is queued, or waits beside one in flight. After an address clash every offer is refused. -/
def Obligations.OffersAreAdmittedByFreeEntries : Prop :=
  ∀ (l : Link) (now cls : Nat) (payload : List Byte) (tag : Tag),
    l.queue.Pairwise (fun a b => a.cls ≤ b.cls) → l.queue.length ≤ 16 →
    (l.clash = true → l.offer now cls payload tag = none)
    ∧ (l.clash = false → (cls ≠ 0 ∧ cls ≠ 6) ∨ (∀ e ∈ l.queue, e.cls ≠ cls) →
        (l.queue.length ≤ 12 ∨ (l.queue.length ≤ 15 ∧ cls ≤ 3) →
          ∃ older younger, l.queue = older ++ younger ∧ (∀ e ∈ older, e.cls ≤ cls) ∧ (∀ e ∈ younger, cls < e.cls)
            ∧ l.offer now cls payload tag = some { l with queue :=
                older ++ { cls := cls, payload := payload, tag := tag, offered := now, begun := false } :: younger })
        ∧ ((12 < l.queue.length ∧ 3 < cls) ∨ 15 < l.queue.length → l.offer now cls payload tag = none))
    ∧ (l.clash = false → (cls = 0 ∨ cls = 6) → (∃ e ∈ l.queue, e.cls = cls) →
        ((∀ e ∈ l.queue, e.cls = cls → e.begun = false) →
          l.offer now cls payload tag = some { l with queue :=
            (l.queue.map fun e => if e.cls = cls then { e with payload := payload } else e) })
        ∧ ((∃ e ∈ l.queue, e.cls = cls ∧ e.begun = true) →
          l.offer now cls payload tag = some { l with repl := some { payload := payload, refresh := false } }))

/-- The events of the line (R73, R75, R77, R78, R80, R82). On the idle line the head of the queue begins, but at a fairness count of 6 a
frame other than DISTRESS waits 2 ms more; when they have passed on a line that has stayed idle, which FAIRNESS_PAUSE_END as a row
reports (log entry 44), it begins with the count at 0. An attempt
that is lost or aborted leaves its entry queued, with a pending replacement in its place. A frame that does not complete cuts a pause, and
one cut by a dominant stop bit or a bad length makes the station wait for the idle line. That the 2 ms begin with the report that the line
is idle is the model's choice (log entry 44). Nothing else of the station changes, but that the sign mode is computed again, as after
every event (R94). -/
def Obligations.LineEventsMoveTheHeadOfTheQueue : Prop :=
  ∀ s : State, s.supply.running = true → s.Quiet →
    (∀ e es, s.link.queue = e :: es → (∀ x ∈ e :: es, x.begun = false) →
      (s.link.fairness < 6 ∨ e.cls = 0 →
        exec .lineIdle s = .next (State.signUpdate { s with link := { s.link with
          synced := true, pause := none, queue := { e with begun := true } :: es } }))
      ∧ (6 ≤ s.link.fairness → e.cls ≠ 0 →
        exec .lineIdle s = .next (State.signUpdate { s with link := { s.link with synced := true, pause := some 20 } })))
    ∧ (s.link.queue = [] ∨ (∃ x ∈ s.link.queue, x.begun = true) →
        exec .lineIdle s = .next (State.signUpdate { s with link := { s.link with synced := true, pause := none } }))
    ∧ (s.link.pause ≠ none → s.link.synced = false ∨ s.link.queue = [] →
        exec .fairnessPauseEnd s = .next (State.signUpdate { s with link := { s.link with pause := none } }))
    ∧ (∀ e es, s.link.queue = e :: es → s.link.pause ≠ none → s.link.synced = true →
        exec .fairnessPauseEnd s = .next (State.signUpdate { s with link := { s.link with
          pause := none, queue := { e with begun := true } :: es
          fairness := if e.cls = 0 then s.link.fairness else 0 } }))
    ∧ (s.link.pause = none → exec .fairnessPauseEnd s = .next s.signUpdate)
    ∧ (∀ c, c = .arbitrationLost ∨ c = .transmitAbort →
        exec c s = .next (State.signUpdate { s with link := { s.link with
          repl := none
          queue := s.link.queue.map fun x =>
            if x.begun then { x with begun := false, payload := (s.link.repl.map (·.payload)).getD x.payload } else x } }))
    ∧ (exec (.truncatedFrame .recessive) s = .next (State.signUpdate { s with link := { s.link with pause := none } }))
    ∧ (∀ cause, cause = .stopBit ∨ cause = .badLength →
        exec (.truncatedFrame cause) s
          = .next (State.signUpdate { s with link := { s.link with synced := false, pause := none } }))

/-- FRAME_SENT (R79, R80, R82): the frame in flight leaves the queue and stands on the line, and the fairness count rises by 1 up to 6
unless it was DISTRESS. A pending replacement is then a new offer, a pending refresh is dropped. The sent report of a CLAIM starts its
claim window of 300 ms (R8), that of a COMMAND its reply limit of 200 ms (R173), that of a RECORD_QUERY its part limit of 200 ms (R185),
that of a SHIFT_CALL the collect time with row 0 complete (R159), and where every expected row then answers for completion, as with
station 0 alone, the close is DONE at that report (R159, R162), that of a part of a summary, LATE or not, or of a record the offer of
the next (R161, R186). That a SHIFT_CALL which an earlier close left queued counts for the close that collects (log entry 26), and that
the sent report of a COMMAND whose HIRE is claiming already starts nothing (log entry 62), are the model's choices. -/
def Obligations.SentFrameLeavesTheQueueAndIsReported : Prop :=
  ∀ (s : State) (e : Entry), s.supply.running = true → s.Quiet → s.link.queue.find? (·.begun) = some e →
    ∀ u : State, u = { s with
        lines := { s.lines with cab := cabFrame e.cls s.addr e.payload }
        link := { s.link with queue := s.link.queue.filter (fun x => !x.begun), repl := none
                              fairness := if e.cls = 0 then s.link.fairness else min 6 (s.link.fairness + 1) } } →
    (∀ r : Repl, s.link.repl = some r → r.refresh = false → e.tag = .distress ∨ e.tag = .beacon →
      exec .frameSent s = .next (State.signUpdate { u with link := (u.link.offer s.now e.cls r.payload e.tag).getD u.link }))
    ∧ ((∀ r, s.link.repl = some r → r.refresh = true) →
      (e.tag = .distress ∨ (∃ a, e.tag = .object a) ∨ e.tag = .reply ∨ e.tag = .hireEvent ∨ e.tag = .intercomEvent
          ∨ e.tag = .shiftFrame ∨ e.tag = .beacon →
        exec .frameSent s = .next u.signUpdate)
      ∧ (∀ c : Claim, s.hire.slot = .claiming c → e.tag = .claim c.id → c.sent = false → s.addr ≠ 0 →
        exec .frameSent s = .next (State.signUpdate { u with hire := { u.hire with
          slot := .claiming { c with sent := true, window := some 3000 } } }))
      ∧ (∀ c : Claim, s.hire.slot = .claiming c → e.tag = .claim c.id → c.sent = false → s.addr = 0 →
        ∃ t, exec .frameSent s = .next t
          ∧ t.hire = { u.hire with slot := .claiming { c with sent := true, window := some 3000 } } ∧ t.link = u.link
          ∧ ∀ p kind party, s.console.cmds.get 0 = some p → p.cmd = .hire kind party → p.seq = c.seq →
            t.console.cmds.get 0 = some { p with claiming := true, limit := none })
      ∧ (∀ id, e.tag = .claim id → (∀ c : Claim, s.hire.slot = .claiming c → c.id ≠ id ∨ c.sent = true) →
        exec .frameSent s = .next u.signUpdate)
      ∧ (∀ a p, e.tag = .command a p.seq → s.console.cmds.get a = some p → p.claiming = false →
        exec .frameSent s = .next (State.signUpdate { u with console := { u.console with
          cmds := u.console.cmds.set a (some { p with limit := some 2000 }) } }))
      ∧ (∀ a seq, e.tag = .command a seq → (∀ p, s.console.cmds.get a = some p → p.seq ≠ seq ∨ p.claiming = true) →
        exec .frameSent s = .next u.signUpdate)
      ∧ (e.tag = .shiftCall → s.close.state ≠ .collecting ∨ s.close.collect ≠ none → exec .frameSent s = .next u.signUpdate)
      ∧ (∀ tr : Transfer, s.print.transfer = some tr → e.tag = .recordQuery tr.gen → tr.st = .opened →
        exec .frameSent s = .next (State.signUpdate { u with print := { u.print with
          transfer := some { tr with limit := some 2000 } } }))
      ∧ (e.tag = .shiftCall → s.close.state = .collecting → s.close.collect = none →
          (s.close.rows.set 0 { s.close.rows.get 0 with st := .complete }).toList.any
            (fun r => !r.settled s.close.forced) = true →
        exec .frameSent s = .next (State.signUpdate { u with close := { u.close with
          collect := some 30000, rows := s.close.rows.set 0 { s.close.rows.get 0 with st := .complete } } }))
      ∧ (∀ rows, rows = s.close.rows.set 0 { s.close.rows.get 0 with st := .complete } →
          e.tag = .shiftCall → s.close.state = .collecting → s.close.collect = none →
          (∀ a, (rows.get a).expected = true → (rows.get a).st = .complete ∨ (s.close.forced = true ∧ (rows.get a).st = .absent)) →
        ∃ t, exec .frameSent s = .next t ∧ s.ClosedInDone t rows)
      ∧ (∀ tx : SumTx, s.shift.tx = some tx → e.tag = .summary tx.gen tx.k →
          ∃ t, exec .frameSent s = .next t
            ∧ (tx.parts.length ≤ tx.k + 1 → t.shift.tx = none ∧ t.link = u.link)
            ∧ (∀ p, tx.parts[tx.k + 1]? = some p → ∃ held, t.shift.tx = some { tx with k := tx.k + 1, held := held }
              ∧ (s.silent = false → t.Offered (held = true) 5 (encSummary false p))))
      ∧ (∀ tx : SumTx, s.shift.lateTx = some tx → e.tag = .lateSummary tx.gen tx.k →
          ∃ t, exec .frameSent s = .next t
            ∧ (tx.parts.length ≤ tx.k + 1 → t.shift.lateTx = none ∧ t.link = u.link)
            ∧ (∀ p, tx.parts[tx.k + 1]? = some p → ∃ held, t.shift.lateTx = some { tx with k := tx.k + 1, held := held }
              ∧ (s.silent = false → t.Offered (held = true) 5 (encSummary true p))))
      ∧ (∀ sv : Serve, s.print.serve = some sv → e.tag = .recordPart sv.gen sv.k →
          ∃ t, exec .frameSent s = .next t
            ∧ (sv.parts.length ≤ sv.k + 1 → t.print.serve = none ∧ t.link = u.link)
            ∧ (∀ p, sv.parts[sv.k + 1]? = some p → ∃ held, t.print.serve = some { sv with k := sv.k + 1, held := held }
              ∧ (s.silent = false → t.Offered (held = true) 7 (encRecordPart (sv.k + 1) sv.parts.length sv.hireNo p)))))

/-- A frame that fails the receive checks is dropped: no block takes it, and it resets no fairness count and sets no clash (R76); it
only cuts a fairness pause, which is a wait on an idle line (R77, R80). What the receive checks refuse (R74, R76): fewer than four
characters, a wrong check, a payload that is not as long as the length character says, or a DISTRESS frame whose sender is not 0. A
DISTRESS frame from station 0 changes nothing at a seat but the fairness count and its pause; one from another address fails the receive
checks and is dropped like any frame that fails them (R105, R76, R80). -/
def Obligations.FramesThatNoBlockTakesChangeNothing : Prop :=
  (∀ (chars : List Byte) (s : State), goodFrame chars = none →
     (s.supply.running = false → exec (.frameDropped chars) s = .next s)
     ∧ (s.supply.running = true → s.Quiet →
       exec (.frameDropped chars) s = .next (State.signUpdate { s with link := { s.link with pause := none } })))
  ∧ ((∀ cs : List Byte, cs.length < 4 → goodFrame cs = none)
       ∧ (∀ cs : List Byte, crc16 cs ≠ 0 → goodFrame cs = none)
       ∧ (∀ (key len : Byte) (rest : List Byte), rest.length ≠ len.toNat + 2 → goodFrame (key :: len :: rest) = none)
       ∧ (∀ (key : Byte) (rest : List Byte), key.toNat / 4 = 0 → key.toNat % 4 ≠ 0 → goodFrame (key :: rest) = none))
  ∧ (∀ (sender : Addr) (time no : Nat) (s : State), s.supply.running = true → s.Quiet →
       (sender = 0 → s.HearsFrom sender → exec (.distressFrame sender time no) s = .next s.onlyHeard)
       ∧ (sender ≠ 0 →
         exec (.distressFrame sender time no) s = .next (State.signUpdate { s with link := { s.link with pause := none } })))

/-- A clash makes the station LINK_SILENT (R90, R91, R23): its queue is emptied, nothing is held to be offered again, an open claim
ends, the DISTRESS period stops and an open record transfer ends as unavailable. The frame was another station's, so the fairness count
is 0 (R80). A close that is COLLECTING and waits for the sent report of its call takes the clash for it: the collect time starts, row 0 is
COMPLETE and the close is tested for completion (R159, R162). A good frame with the station's own address is such a clash and goes to no
block, whatever frame it is (R76, R90). A station that is LINK_SILENT already only counts the frame as heard,
and one that has not seen the line idle changes nothing. That a summary and a record answer under way end with the clash is inferred (log
entry 42). -/
def Obligations.ClashSilencesTheStation : Prop :=
  ∀ s : State, s.supply.running = true →
    (s.link.synced = true → s.silent = false →
      ∃ t, exec .addressClash s = .next t ∧ t.silent = true
        ∧ t.link.queue = [] ∧ t.link.repl = none ∧ t.link.pause = none ∧ t.link.fairness = 0
        ∧ t.hire.reply = none ∧ t.hire.event = none ∧ t.hire.objects = [] ∧ t.hire.claimHeld = false
        ∧ t.hire.log = s.hire.log ∧ t.intercom.events = [] ∧ t.shift.held = []
        ∧ (s.offers = [] → t.shift.tx = none ∧ t.print.serve = none ∧ (s.shift.pendingLate = none → t.shift.lateTx = none))
        ∧ t.distress = { s.distress with period := none } ∧ t.peer.rows = s.peer.rows ∧ t.pay = s.pay
        ∧ (∀ c, s.hire.slot = .claiming c → t.hire.slot = .free
            ∧ (c.src = .localKey → s.Replied t .localKey c.seq (.refused .linkSilent)))
        ∧ ((∀ c, s.hire.slot ≠ .claiming c) → t.hire.slot = s.hire.slot)
        ∧ (∀ tr, s.offers = [] → s.print.transfer = some tr → tr.st = .opened →
            t.print.transfer = some { tr with st := .unavailable, limit := none, queryHeld := false })
        ∧ (∀ rows, rows = s.close.rows.set 0 { s.close.rows.get 0 with st := .complete } →
            s.close.state = .collecting → s.close.collect = none →
            (rows.toList.any (fun r => !r.settled s.close.forced) = true →
              t.close = { s.close with collect := some 30000, rows := rows })
            ∧ (rows.toList.all (fun r => r.settled s.close.forced) = true → s.shift.pendingLate = none → t.close.state = .done
                ∧ t.close.rows = rows ∧ t.close.collect = none ∧ t.shift.state = .offShift ∧ t.shift.acc = .zero
                ∧ t.close.rowZero = some { acc := s.shift.acc, lost := s.shift.lost, openTime := s.shift.openTime
                                           closeTime := s.clock.seconds, reversals := s.pay.reversals })))
    ∧ (s.silent = true → s.link.synced = true → s.Quiet → exec .addressClash s = .next s.onlyHeard)
    ∧ (s.link.synced = false → s.Quiet → exec .addressClash s = .next s.signUpdate)
    ∧ (∀ c : Instr, c.frameSender = some s.addr → exec c s = exec .addressClash s)

/-! ### The peer table (chapter 5) -/

/-- A beacon from another station (R86, R58, R80): its row is present with age 0, the content as received and no override, and the
fairness count is 0 with the pause over. An EXCLUSIVE HIRED hire that now sees another HIRED hire becomes SHARED with its conflict flag
(R14). A seat follows the clock of station 0: it takes the seconds where they differ by more than 2 s, and the set flag always. Station 0
ON_SHIFT repeats SHIFT_OPEN with its number and driver and the rejoin mark for a seat that has not joined the shift, unless it has offered
a repeat in the last 1000 ms; a repeat that the queue refuses is not held (R151). That the 1000 ms count from the offer, taken or refused,
and serve all seats together is inferred (log entry 24). A row that is present for the first time since the start is sent DISCONNECT: a
command is formed for it, or deferred where one is pending or deferred, or as a third discarded (R123, R173, R176). -/
def Obligations.BeaconFillsItsRow : Prop :=
  ∀ (sender : Addr) (b : Beacon) (s : State), s.supply.running = true → s.HearsFrom sender →
    ∀ u : State, u = State.conflictTest { s with
        link := { s.link with fairness := 0, pause := none }
        peer := { s.peer with rows :=
          (s.peer.rows.set sender { present := true, age := 0, ever := true, beacon := some b, ovr := none }) } } →
    (∃ t, exec (.beaconReceived sender b) s = .next t ∧ t.link.fairness = 0 ∧ t.link.pause = none
      ∧ t.peer.rows.get sender = { present := true, age := 0, ever := true, beacon := some b, ovr := none })
    ∧ (s.addr ≠ 0 → sender ≠ 0 → ∃ t, exec (.beaconReceived sender b) s = .next t ∧ u.Kept t)
    ∧ (s.addr ≠ 0 → sender = 0 →
      (b.clockSet = true → s.clock.seconds + 2 < b.role.toNat ∨ b.role.toNat + 2 < s.clock.seconds →
        ∃ t, exec (.beaconReceived sender b) s = .next t
          ∧ ({ u with clock := { seconds := b.role.toNat, phase := 0, isSet := true } } : State).Kept t)
      ∧ (b.clockSet = true → b.role.toNat ≤ s.clock.seconds + 2 → s.clock.seconds ≤ b.role.toNat + 2 →
        ∃ t, exec (.beaconReceived sender b) s = .next t ∧ ({ u with clock := { s.clock with isSet := true } } : State).Kept t)
      ∧ (b.clockSet = false →
        ∃ t, exec (.beaconReceived sender b) s = .next t ∧ ({ u with clock := { s.clock with isSet := false } } : State).Kept t))
    ∧ (s.addr = 0 → (s.peer.rows.get sender).ever = true →
      ∃ t, exec (.beaconReceived sender b) s = .next t ∧ t.peer.rows = u.peer.rows ∧ t.hire.slot = u.hire.slot
        ∧ t.console.privacyInd = s.console.privacyInd.set sender b.privacy ∧ t.clock = s.clock
        ∧ (s.NoLateClose → (t.shift.repeatGuard = if s.shift.state = .onShift
              ∧ (b.shiftState = .offShift ∨ b.shiftNo ≠ s.shift.number) ∧ s.shift.repeatGuard = none ∧ s.silent = false
            then some 10000 else s.shift.repeatGuard))
        ∧ (s.Quiet → t.console.cmds = s.console.cmds ∧ t.console.deferred = s.console.deferred
          ∧ t.console.nextSeq = s.console.nextSeq))
    ∧ (s.addr = 0 → s.Quiet → ∀ joined repeats : Prop,
        joined = (b.shiftState ≠ .offShift ∧ b.shiftNo = s.shift.number) →
        repeats = (s.shift.state = .onShift ∧ ¬ joined ∧ s.shift.repeatGuard = none ∧ s.silent = false) →
      ∀ driver : Nat, s.shift.driver = some driver → ∀ again, again = encShiftFrame (.opened s.shift.number driver true) →
      ∃ t, exec (.beaconReceived sender b) s = .next t ∧ t.shift.held = s.shift.held
        ∧ (repeats → t.shift.repeatGuard = some 10000 ∧ (s.link.queue.length ≤ 11 → t.link.Carries 5 again))
        ∧ (¬ repeats → t.shift.repeatGuard = s.shift.repeatGuard)
        ∧ ((s.peer.rows.get sender).ever = true →
          (repeats → t.link = (u.link.offer s.now 5 again .shiftFrame).getD u.link) ∧ (¬ repeats → t.link = u.link)))
    ∧ (s.addr = 0 → s.Quiet → (s.peer.rows.get sender).ever = false →
      (s.nonePending sender = true →
        ∃ t, exec (.beaconReceived sender b) s = .next t ∧ t.peer.rows = u.peer.rows
          ∧ t.console.nextSeq = (s.console.nextSeq + 1) % 16 ∧ s.Commanded t sender .disconnect s.console.nextSeq)
      ∧ (s.nonePending sender = false →
        ∃ t, exec (.beaconReceived sender b) s = .next t ∧ t.peer.rows = u.peer.rows ∧ t.console.cmds = s.console.cmds
          ∧ t.console.nextSeq = s.console.nextSeq
          ∧ t.console.deferred = (if (s.console.deferred.get sender).length < 2
            then s.console.deferred.set sender (s.console.deferred.get sender ++ [.disconnect]) else s.console.deferred)))
    ∧ (u.hire.slot = match s.hire.slot with
        | .hired h => if h.rc.kind = .exclusive ∧ u.peers.any (fun r => r.present && r.hireState == .hired) = true
            then .hired { h with rc := { h.rc with conflict := true, kind := .shared } } else .hired h
        | sl => sl)

/-- A hire event from an address whose row is present sets the row's override: HIRE_START to HIRED with its kind, HIRE_STOP to STOPPED
with its due and the kind of an earlier override, HIRE_CLOSED to FREE with due 0; one for an absent row changes no row (R88). A row
whose age has reached 1000 ms becomes absent and loses its override; its content stays (R87). At a seat that loses station 0 a connected
or listening end returns to IDLE (R116); at station 0 the caller leaves the queue and a talk with it ends (R111, R115). -/
def Obligations.HireEventsAndAgeSetThePeerRow : Prop :=
  (∀ (sender : Addr) (no due : Nat) (kind : Kind) (o : HireOutcome) (s : State), s.supply.running = true → s.HearsFrom sender →
     ((s.peer.rows.get sender).present = true →
       ∀ c ov, (c = .hireStartReceived sender no kind ∧ ov = ({ state := .hired, kind := some kind, due := none } : Override))
           ∨ (c = .hireStopReceived sender no due
               ∧ ov = { state := .stopped, kind := (s.peer.rows.get sender).ovr.bind (·.kind), due := some due })
           ∨ (c = .hireClosedReceived sender no o ∧ ov = { state := .free, kind := none, due := some 0 }) →
         ∃ t, exec c s = .next t
           ∧ (State.conflictTest { s with peer := { s.peer with rows :=
               (s.peer.rows.set sender { s.peer.rows.get sender with ovr := some ov }) } }).Kept t)
     ∧ ((s.peer.rows.get sender).present = false →
       ∀ c, c = .hireStartReceived sender no kind ∨ c = .hireStopReceived sender no due ∨ c = .hireClosedReceived sender no o →
         ∃ t, exec c s = .next t ∧ s.Kept t))
  ∧ (∀ (a : Addr) (s : State), s.supply.running = true →
       ∀ rows, rows = s.peer.rows.set a { s.peer.rows.get a with present := false, age := 10000, ovr := none } →
       (a ≠ s.addr → (s.peer.rows.get a).present = true →
         (s.addr ≠ 0 → a ≠ 0 →
           ∃ t, exec (.peerAgeExpiry a) s = .next t ∧ ({ s with peer := { s.peer with rows := rows } } : State).Kept t)
         ∧ (a = 0 → s.intercom.endState = .connected ∨ s.intercom.endState = .listen ∨ (∃ w, s.intercom.endState = .held w) →
           ∃ t, exec (.peerAgeExpiry a) s = .next t
             ∧ ({ s with peer := { s.peer with rows := rows },
                         intercom := { s.intercom with endState := .idle, callTimer := none, endTimer := none } } : State).Kept t)
         ∧ (a = 0 → s.intercom.endState = .idle ∨ s.intercom.endState = .calling →
           ∃ t, exec (.peerAgeExpiry a) s = .next t ∧ ({ s with peer := { s.peer with rows := rows } } : State).Kept t)
         ∧ (s.addr = 0 →
           ∃ t, exec (.peerAgeExpiry a) s = .next t ∧ t.peer.rows = rows ∧ t.hire.slot = s.hire.slot
             ∧ t.intercom.queue = s.intercom.queue.filter (fun e => e.addr != a) ∧ t.intercom.talk.partner ≠ some a))
       ∧ (a = s.addr ∨ (s.peer.rows.get a).present = false → ∃ t, exec (.peerAgeExpiry a) s = .next t ∧ s.Kept t))

/-- Every 250 ms the beacon is composed from the state as it stands and offered; a LINK_SILENT station offers none (R84, R85, R91).
The fields are those of the blocks that own them; the pulse fault is the one seen at the latest slot end (R52). A seat's role word carries
its running amount or due, its sharing level and its charging state, each 0 without a hire (R33, R38, Table 5-5). -/
def Obligations.BeaconIsComposedAndOffered : Prop :=
  ∀ s : State, s.supply.running = true → s.Quiet →
    (s.peer.period ≠ none → s.silent = false →
      exec .beaconPeriod s = .next (State.signUpdate { s with
        peer := { s.peer with period := some 2500, own := some s.composeBeacon }
        link := (s.link.offer s.now 6 (encBeacon s.composeBeacon) .beacon).getD s.link }))
    ∧ (s.peer.period ≠ none → s.silent = true →
      exec .beaconPeriod s = .next (State.signUpdate { s with peer := { s.peer with period := some 2500 } }))
    ∧ (s.peer.period = none → exec .beaconPeriod s = .next s.signUpdate)
    ∧ s.composeBeacon.shiftNo = s.shift.number ∧ s.composeBeacon.shiftState = s.shift.state
    ∧ s.composeBeacon.capacity = s.straps.capacity ∧ s.composeBeacon.clockSet = s.clock.isSet
    ∧ s.composeBeacon.pulseFault = s.pulse.seen
    ∧ (∀ im, s.image = some im → s.composeBeacon.tariffNo = im.number ∧ s.composeBeacon.edition = im.edition)
    ∧ (s.image = none → s.composeBeacon.tariffNo = 0 ∧ s.composeBeacon.edition = 0)
    ∧ (s.addr = 0 → s.composeBeacon.role = BitVec.ofNat 32 s.clock.seconds)
    ∧ (s.addr ≠ 0 →
      (s.hire.slot = .free ∨ (∃ c, s.hire.slot = .claiming c) → s.composeBeacon.role = 0)
      ∧ (∀ h amount, s.hire.slot = .hired h ∧ amount = h.rc.running
            ∨ (s.hire.slot = .stopped h ∨ s.hire.slot = .paying h) ∧ h.rc.due = some amount →
          amount ≤ 999999 → h.rc.level ≤ 4 →
        roleDue s.composeBeacon.role = amount ∧ roleLevel s.composeBeacon.role = h.rc.level
          ∧ roleCharging s.composeBeacon.role = h.rc.charging))
    ∧ (∀ h, s.hire.slot = .hired h ∨ s.hire.slot = .stopped h ∨ s.hire.slot = .paying h →
        s.composeBeacon.kind = h.rc.kind ∧ s.composeBeacon.privacy = h.rc.privacy)
    ∧ (s.hire.slot = .free ∨ (∃ c, s.hire.slot = .claiming c) → s.composeBeacon.hireState = .free
        ∧ s.composeBeacon.kind = .shared ∧ s.composeBeacon.privacy = false)
    ∧ (∀ h, (s.hire.slot = .hired h → s.composeBeacon.hireState = .hired)
        ∧ (s.hire.slot = .stopped h → s.composeBeacon.hireState = .stopped)
        ∧ (s.hire.slot = .paying h → s.composeBeacon.hireState = .paying))

/-! ### Roof sign and distress latch (chapter 6) -/

/-- The sign mode is the first that holds (R92): DISTRESS with the latch set, OFF_DUTY while not ON_SHIFT, FREE while no hire of the
vehicle is engaged and station 0's slot is FREE, SHARED with the numeral while no hire is EXCLUSIVE and the offerable stations have
room, otherwise HIRED. The numeral sums the capacities of the offerable stations: station 0 while it is ON_SHIFT with a valid image, not
LINK_SILENT and FREE, and each seat whose row is present with a beacon that shows ON_SHIFT, the same tariff identity as the image, and a
hire that reads FREE (R92, R93, R68). A hire of the vehicle is EXCLUSIVE where station 0 holds a claim or a hire of that kind, or a
present row reads an engaged hire of that kind (R93). What the sign takes as a reply (R200): 5Ah, the lamp bits in the low half of a
byte whose high half is 0, and the exclusive-or of the two; and the bytes of a message: A5h, control and mode, numeral and brightness,
and the exclusive-or of the three. -/
def Obligations.SignBytesCarryTheFirstModeThatHolds : Prop :=
  (∀ s : State,
     let free := s.hire.slot = .free ∧ ∀ r ∈ s.peers, r.present = false ∨ r.hireState = .free
     (s.distress.latch ≠ none → s.signMode = (.distress, 0))
     ∧ (s.distress.latch = none → s.shift.state ≠ .onShift → s.signMode = (.offDuty, 0))
     ∧ (s.distress.latch = none → s.shift.state = .onShift →
         (free → s.signMode = (.free, 0))
         ∧ (¬ free → s.anyExclusive = false → 0 < s.numeral → s.signMode = (.shared, s.numeral))
         ∧ (¬ free → s.anyExclusive = true ∨ s.numeral = 0 → s.signMode = (.hired, 0)))
     ∧ (s.addr = 0 →
       (∀ seat : Addr → Nat, (∀ a r, r = s.peer.rows.get a →
           (∀ b im, r.beacon = some b → s.image = some im → r.present = true → b.shiftState = .onShift → b.tariffNo = im.number →
             b.edition = im.edition → r.hireState = .free → seat a = b.capacity)
           ∧ (s.image = none ∨ r.present = false ∨ r.hireState ≠ .free ∨ r.beacon = none
               ∨ (∃ b, r.beacon = some b ∧ (b.shiftState ≠ .onShift
                 ∨ ∃ im, s.image = some im ∧ (b.tariffNo ≠ im.number ∨ b.edition ≠ im.edition))) → seat a = 0)) →
         s.numeral = (if s.shift.state = .onShift ∧ s.image ≠ none ∧ s.silent = false ∧ s.hire.slot = .free
           then s.straps.capacity else 0) + seat 1 + seat 2 + seat 3)
       ∧ (s.anyExclusive = true ↔
           (∃ c, s.hire.slot = .claiming c ∧ c.kind = .exclusive)
           ∨ (∃ h, (s.hire.slot = .hired h ∨ s.hire.slot = .stopped h ∨ s.hire.slot = .paying h) ∧ h.rc.kind = .exclusive)
           ∨ ∃ a : Addr, a ≠ 0 ∧ (s.peer.rows.get a).present = true ∧ (s.peer.rows.get a).hireState ≠ .free
             ∧ (s.peer.rows.get a).kind = .exclusive)))
  ∧ ((∀ v h n d : Bool, signReplyLamps 0x5A#8 (BitVec.ofNat 8 (v.toNat + 2 * h.toNat + 4 * n.toNat + 8 * d.toNat))
         (0x5A#8 ^^^ BitVec.ofNat 8 (v.toNat + 2 * h.toNat + 4 * n.toNat + 8 * d.toNat))
           = some { vacant := v, hired := h, numeral := n, distress := d })
       ∧ (∀ b0 b1 b2, b0 ≠ 0x5A#8 ∨ 16 ≤ b1.toNat ∨ b2 ≠ b0 ^^^ b1 → signReplyLamps b0 b1 b2 = none)
       ∧ (∀ ctl mode numeral bright, numeral < 16 → bright < 4 →
           (signMessage ctl mode numeral bright).map (·.toNat) = [0xA5, 64 * ctl.code + mode.code, 16 * numeral + bright,
             0xA5 ^^^ (64 * ctl.code + mode.code) ^^^ (16 * numeral + bright)]))

/-- The sign line at station 0 (R95 to R100). A message that falls due outside a wait goes out at once with the content of now and opens a
wait of 40 ms; a REPEAT starts the period of 500 ms, the ONCE of a lamp test its 1 s. One that falls due during a wait is held until the
wait ends, the ONCE of a lamp test too, whose 1 s then begins with its sending. That a content change is one against the last message sent
or due is the model's choice (log entry 50). A valid reply sets the lamps, the silent count to 0 and SIGN_SILENT clear, and reports a lamp
that was not shown failed before. A missed reply counts up to 3, and the third sets and reports SIGN_SILENT; in OFF the silent count and
SIGN_SILENT stay as they stood (R100). SIGN_SILENT as a row of the table is that third missed reply (log entry 4). That a valid reply to a
message sent before the control became OFF is taken there too is the model's choice (log entry 46). -/
def Obligations.SignLineSendsAndWaits : Prop :=
  ∀ s : State, s.supply.running = true → s.Quiet → s.addr = 0 →
    ∀ sent : SignMsg → Lines, sent = (fun m => { s.lines with sign := signMessage m s.signMode.1 s.signMode.2 s.brightness }) →
    (s.sign.period ≠ none → s.sign.control = .repeating →
      (s.sign.wait = none → exec .signRepeatPeriod s = .next { s with
        lines := sent .repeating
        sign := { s.sign with last := some s.signMode, held := none, wait := some 400, period := some 5000, test := none } })
      ∧ (s.sign.wait ≠ none → exec .signRepeatPeriod s = .next { s with
          sign := { s.sign with period := none, last := some s.signMode, held := some .repeating } }))
    ∧ (s.sign.control = .test → s.sign.test ≠ none → s.sign.wait = none → exec .lampTestEnd s = .next { s with
        lines := sent .repeating
        sign := { s.sign with control := .repeating, last := some s.signMode, held := none, wait := some 400
                              period := some 5000, test := none } })
    ∧ (s.sign.control ≠ .test → exec .lampTestEnd s = .next s.signUpdate)
    ∧ (s.supply.state ≠ .low → s.console.keys = .idle →
      (s.signMode.1 = .offDuty → s.sign.control = .repeating → s.sign.wait = none → exec .lampTest s = .next { s with
        console := s.console.ended, lines := sent .once
        sign := { s.sign with control := .test, last := some s.signMode, held := none, wait := some 400
                              period := none, test := some 10000 } })
      ∧ (s.signMode.1 = .offDuty → s.sign.control = .repeating → s.sign.wait ≠ none → exec .lampTest s = .next { s with
        console := s.console.ended
        sign := { s.sign with control := .test, last := some s.signMode, held := some .once, period := none } })
      ∧ (s.signMode.1 ≠ .offDuty ∨ s.sign.control ≠ .repeating → exec .lampTest s = .next (State.signUpdate { s with
          console := { s.console.ended with message := some .lampTestUnavailable } })))
    ∧ (∀ b0 b1 b2, s.sign.wait = none ∨ signReplyLamps b0 b1 b2 = none → exec (.signReply b0 b1 b2) s = .next s.signUpdate)
    ∧ (s.sign.wait = none → exec .signReplyTimeout s = .next s.signUpdate)
    ∧ (s.sign.wait ≠ none → s.sign.held = none →
      (∀ b0 b1 b2 l, signReplyLamps b0 b1 b2 = some l →
        ∀ before : (Lamps → Bool) → Bool, before = (fun f => (s.sign.lamps.map f).getD true) →
        exec (.signReply b0 b1 b2) s = .next (State.signUpdate { s with
          sign := { s.sign with lamps := some l, silent := 0, signSilent := false, wait := none }
          shift := if (!l.vacant && before (·.vacant)) || (!l.hired && before (·.hired)) || (!l.numeral && before (·.numeral))
              || (!l.distress && before (·.distress)) then s.shift.added fun a => { a with lampFault := true } else s.shift }))
      ∧ (s.sign.control ≠ .off → exec .signReplyTimeout s = .next (State.signUpdate { s with
          sign := { s.sign with wait := none, silent := min 3 (s.sign.silent + 1)
                                signSilent := s.sign.signSilent || s.sign.silent == 2 }
          shift := if s.sign.silent = 2 then s.shift.added fun a => { a with signSilent := true } else s.shift }))
      ∧ (s.sign.control = .off → exec .signReplyTimeout s = .next (State.signUpdate { s with sign := { s.sign with wait := none } })))
    ∧ (∀ m b0 b1 b2 l, s.sign.wait ≠ none → s.sign.held = some m → signReplyLamps b0 b1 b2 = some l →
        ∃ t, exec (.signReply b0 b1 b2) s = .next t ∧ t.sign.held = none ∧ t.sign.last = some s.signMode
          ∧ t.sign.lamps = some l ∧ t.sign.silent = 0 ∧ t.sign.signSilent = false ∧ t.lines = sent m
          ∧ t.sign.control = s.sign.control ∧ (m = .once → t.sign.test = some 10000))
    ∧ (∀ m, s.sign.wait ≠ none → s.sign.held = some m →
        ∃ t, exec .signReplyTimeout s = .next t ∧ t.sign.held = none ∧ t.sign.last = some s.signMode
          ∧ t.sign.silent = (if s.sign.control = .off then s.sign.silent else min 3 (s.sign.silent + 1))
          ∧ t.sign.signSilent = (if s.sign.control = .off then s.sign.signSilent else s.sign.signSilent || s.sign.silent == 2)
          ∧ t.shift = (if s.sign.control ≠ .off ∧ s.sign.silent = 2 then s.shift.added fun a => { a with signSilent := true } else s.shift)
          ∧ t.lines = sent m ∧ t.sign.control = s.sign.control
          ∧ (m = .once → t.sign.test = some 10000))
    ∧ (s.sign.silent = 2 → s.sign.control ≠ .off → exec .signSilent s = exec .signReplyTimeout s)
    ∧ (s.sign.silent ≠ 2 ∨ s.sign.control = .off → exec .signSilent s = .next s.signUpdate)

/-- The concealed input and the latch (R102 to R106). The hold timer of 1.5 s starts where the input is active, the latch clear and the
start inhibit over, at the latest of the three moments; the input becoming inactive discards it. When it ends, the latch is set with
the clock's seconds, a distress is counted, and a DISTRESS frame offered at once and then every 250 ms unless the station is
LINK_SILENT. The right four digits with the latch set and a valid image clear it; any other digits change nothing but the keys. -/
def Obligations.DistressLatchIsSetByTheHoldAndClearedByTheCode : Prop :=
  ∀ s : State, s.supply.running = true → s.Quiet → s.addr = 0 →
    (s.distress.active = false → s.distress.latch = none → s.distress.inhibit = none →
      exec .distressInputActive s = .next (State.signUpdate { s with distress := { s.distress with active := true, hold := some 15000 } }))
    ∧ (s.distress.active = true ∨ s.distress.latch ≠ none ∨ s.distress.inhibit ≠ none →
      exec .distressInputActive s = .next (State.signUpdate { s with distress := { s.distress with active := true } }))
    ∧ (exec .distressInputInactive s
        = .next (State.signUpdate { s with distress := { s.distress with active := false, hold := none } }))
    ∧ (s.distress.inhibit ≠ none → exec .startInhibitEnd s = .next (State.signUpdate { s with distress := { s.distress with
        inhibit := none
        hold := if s.distress.active = true ∧ s.distress.latch = none then some 15000 else s.distress.hold } }))
    ∧ (s.distress.inhibit = none → exec .startInhibitEnd s = .next s.signUpdate)
    ∧ (s.distress.hold ≠ none → s.distress.latch = none →
      ∀ shift, shift = s.shift.added (fun a => { a with distress := min 65535 (a.distress + 1) }) →
      (s.silent = false → exec .distressHoldExpiry s = .next (State.signUpdate { s with
        distress := { s.distress with latch := some s.clock.seconds, hold := none, period := some 2500 }
        shift := shift
        link := (s.link.offer s.now 0 (encDistress s.clock.seconds s.shift.number) .distress).getD s.link }))
      ∧ (s.silent = true → exec .distressHoldExpiry s = .next (State.signUpdate { s with
        distress := { s.distress with latch := some s.clock.seconds, hold := none, period := none }, shift := shift })))
    ∧ (s.distress.hold = none ∨ s.distress.latch ≠ none → exec .distressHoldExpiry s = .next s.signUpdate)
    ∧ (∀ time, s.distress.period ≠ none → s.distress.latch = some time → s.silent = false →
      exec .distressPeriod s = .next (State.signUpdate { s with
        distress := { s.distress with period := some 2500 }
        link := (s.link.offer s.now 0 (encDistress time s.shift.number) .distress).getD s.link }))
    ∧ (s.distress.period = none ∨ s.distress.latch = none → exec .distressPeriod s = .next s.signUpdate)
    ∧ (∀ d0 d1 d2 d3 : Fin 10, s.supply.state ≠ .low → s.console.keys = .idle →
      (∀ im, s.distress.latch ≠ none → s.image = some im → im.clearCode = [d0.val, d1.val, d2.val, d3.val] →
        exec (.distressClear d0 d1 d2 d3) s = .next (State.signUpdate { s with
          console := s.console.ended
          distress := { s.distress with latch := none, period := none
                                        hold := if s.distress.active = true ∧ s.distress.inhibit = none then some 15000
                                          else s.distress.hold } }))
      ∧ (s.distress.latch = none ∨ (∀ im, s.image = some im → im.clearCode ≠ [d0.val, d1.val, d2.val, d3.val]) →
        exec (.distressClear d0 d1 d2 d3) s = .next (State.signUpdate { s with console := s.console.ended })))

/-! ### Intercom (chapter 7) -/

/-- CONNECT, DISCONNECT, LISTEN and LISTEN_END move the compartment end as Table 7-3 gives it and answer DONE; CONNECT to an end with
privacy is refused with PRIVACY. An end that enters CONNECTED or LISTEN starts its 120 s afresh; while the prompt owns the speaker it is
HELD and says so (R114, R116, R118, R120). Station 0's own end that is connected so with no talk open is no caller any more (R113). The
audio follows the ends (R108, R122, R143, R189): station 0's driver end is on the pair in a talk with a seat, on its own end in a local
talk and on both with its microphone alone in an announce; a CONNECTED end's microphone and speaker and a LISTEN end's speaker are on the
pair or, at station 0, on the driver end and its microphone; the prompt takes the speaker, as a tone once its 0.3 s run; LOW mutes both
speakers, volume 0 the compartment's, and in a stopped station nothing is routed. -/
def Obligations.IntercomCommandsMoveTheEnd : Prop :=
  (∀ s : State,
    let localTalk := s.addr = 0 ∧ (s.intercom.talk = .talk 0 ∨ s.intercom.talk = .held 0)
    (s.supply.running = false →
      s.driverRoute = .nothing ∧ s.driverHears = .nothing ∧ s.microphone = .nothing ∧ s.speakerPlays = .nothing)
    ∧ (s.addr ≠ 0 → s.driverRoute = .nothing ∧ s.driverHears = .nothing)
    ∧ (s.supply.running = true → s.addr = 0 →
      (∀ a, s.intercom.talk = .talk a ∨ s.intercom.talk = .held a →
        (a ≠ 0 → s.driverRoute = .pair ∧ s.driverHears = if s.supply.state = .low then .nothing else .pair)
        ∧ (a = 0 → s.driverRoute = .ownEnd ∧ s.driverHears = if s.supply.state = .low then .nothing else .ownEnd))
      ∧ (s.intercom.talk = .announce → s.driverRoute = .announce ∧ s.driverHears = .nothing)
      ∧ (s.intercom.talk = .none → s.driverRoute = .nothing ∧ s.driverHears = .nothing))
    ∧ (s.supply.running = true →
      (s.intercom.endState = .connected → localTalk → s.microphone = .driverEnd)
      ∧ (s.intercom.endState = .connected → ¬ localTalk → s.microphone = .pair)
      ∧ (s.intercom.endState ≠ .connected → s.microphone = .nothing)
      ∧ (s.supply.state = .low ∨ s.intercom.volume = 0 → s.speakerPlays = .nothing)
      ∧ (s.supply.state ≠ .low → s.intercom.volume ≠ 0 →
        (s.intercom.prompt = true → s.speakerPlays = if s.intercom.promptTimer = none then .prompt else .tone)
        ∧ (s.intercom.prompt = false →
          (s.intercom.endState = .connected → localTalk → s.speakerPlays = .driverEnd)
          ∧ (s.intercom.endState = .connected → ¬ localTalk → s.speakerPlays = .pair)
          ∧ (s.intercom.endState = .listen → s.addr = 0 → s.intercom.talk = .announce →
              s.speakerPlays = .driverMicrophone)
          ∧ (s.intercom.endState = .listen → s.addr ≠ 0 ∨ s.intercom.talk ≠ .announce → s.speakerPlays = .pair)
          ∧ (s.intercom.endState ≠ .connected → s.intercom.endState ≠ .listen → s.speakerPlays = .nothing)))))
  ∧ ∀ (src : Source) (seq : Nat) (s : State) (i : Intercom) (c : Instr), s.supply.running = true → s.Hears src →
    let e := s.intercom.endState
    let open' := c = .connect src seq ∧ s.hire.slot.privacy = false
    (((c = .disconnect src seq ∧ (e = .connected ∨ e = .listen ∨ ∃ w, e = .held w))
          ∨ (c = .listenEnd src seq ∧ (e = .listen ∨ e = .held .listen)))
        ∧ i = { s.intercom with endState := .idle, callTimer := none, endTimer := none }
      ∨ ((c = .disconnect src seq ∧ (e = .idle ∨ e = .calling))
          ∨ (c = .listenEnd src seq ∧ (e = .idle ∨ e = .calling ∨ e = .connected ∨ e = .held .connected))
          ∨ (c = .listen src seq ∧ (e = .listen ∨ e = .held .listen))
          ∨ (open' ∧ (e = .connected ∨ e = .held .connected)))
        ∧ i = s.intercom
      ∨ (open' ∧ (e = .idle ∨ e = .calling ∨ e = .listen))
        ∧ i = { s.intercom with endState := if s.intercom.prompt then .held .connected else .connected
                                callTimer := none, endTimer := some 1200000 }
      ∨ (c = .listen src seq ∧ (e = .idle ∨ e = .calling ∨ e = .connected))
        ∧ i = { s.intercom with endState := if s.intercom.prompt then .held .listen else .listen
                                callTimer := none, endTimer := some 1200000 }
      ∨ (open' ∧ e = .held .listen) ∧ i = { s.intercom with endState := .held .connected, endTimer := some 1200000 }
      ∨ (c = .listen src seq ∧ e = .held .connected)
        ∧ i = { s.intercom with endState := .held .listen, endTimer := some 1200000 } →
      ∃ t, exec c s = .next t ∧ s.Replied t src seq .done
        ∧ ({ s with intercom := if open' ∧ src = .localKey ∧ s.intercom.talk = .none
              then { i with queue := i.queue.filter fun e => e.addr != 0 } else i } : State).Kept t
        ∧ (s.addr ≠ 0 → s.silent = false →
            (open' ∧ ((∃ w, e = .held w) ∨ (s.intercom.prompt = true ∧ (e = .idle ∨ e = .calling ∨ e = .listen))))
              ∨ (c = .listen src seq ∧ s.intercom.prompt = true ∧ (e = .idle ∨ e = .calling ∨ e = .connected)) →
            t.Offered (.speakerHeld ∈ t.intercom.events) 4 (encIntercomEvent .speakerHeld)))
    ∧ (c = .connect src seq → s.hire.slot.privacy = true →
      ∃ t, exec c s = .next t ∧ s.Kept t ∧ s.Replied t src seq (.refused .privacy))

/-- What station 0 does with the intercom and privacy events of a seat (R111, R112, R115, R177): a call joins the queue of at most 4, or
starts its 30 s again; a withdrawn call and a privacy that is set take the caller out and end a talk with it; a held speaker holds the
talk, a free one lets it go on. A seat station takes none of them. Each resets the fairness count (R80). -/
def Obligations.SeatEventsReachStationZero : Prop :=
  ∀ (a : Addr) (s : State), s.supply.running = true → s.HearsFrom a → s.Quiet →
    ∀ heard : Intercom → Console → State, heard = (fun i c => State.signUpdate { s with
      link := { s.link with fairness := 0, pause := none }, intercom := i, console := c }) →
    let others := s.intercom.queue.filter fun e => e.addr != a
    let parted : Intercom := if s.intercom.talk.partner = some a
      then { s.intercom with queue := others, talk := .none, talkTimer := none } else { s.intercom with queue := others }
    (s.addr = 0 →
      (exec (.callEvent a) s = .next (heard { s.intercom with queue :=
          (if s.intercom.talk.partner = some a then s.intercom.queue
           else if ∃ e ∈ s.intercom.queue, e.addr = a then
             s.intercom.queue.map fun e => if e.addr = a then { e with left := 300000 } else e
           else if s.intercom.queue.length < 4 then s.intercom.queue ++ [{ addr := a, left := 300000 }]
           else s.intercom.queue) } s.console))
      ∧ exec (.callWithdrawEvent a) s = .next (heard parted s.console)
      ∧ exec (.speakerHeldEvent a) s = .next (heard (if s.intercom.talk = .talk a then { s.intercom with talk := .held a }
          else s.intercom) s.console)
      ∧ exec (.speakerFreeEvent a) s = .next (heard (if s.intercom.talk = .held a then { s.intercom with talk := .talk a }
          else s.intercom) s.console)
      ∧ exec (.privacyOnEvent a) s = .next (heard parted { s.console with privacyInd := s.console.privacyInd.set a true })
      ∧ exec (.privacyOffEvent a) s = .next (heard s.intercom { s.console with privacyInd := s.console.privacyInd.set a false }))
    ∧ (s.addr ≠ 0 → ∀ c, c = .callEvent a ∨ c = .callWithdrawEvent a ∨ c = .speakerHeldEvent a ∨ c = .speakerFreeEvent a
        ∨ c = .privacyOnEvent a ∨ c = .privacyOffEvent a → exec c s = .next (heard s.intercom s.console))

/-- The CALL button (R109, R119, R4) of a station that has buttons. A press counts 2 s. Released before, it makes a call at an IDLE end
without privacy, which stands for 30 s, and leaves a call or a connection; held for 2 s it toggles the privacy of an engaged hire, and
privacy that is set ends a call or a connection. The call's 30 s end it silently, an entry of station 0's queue likewise (R111). At a
station without buttons, or with no press counted, nothing happens. -/
def Obligations.CallButtonCallsLeavesAndTogglesPrivacy : Prop :=
  ∀ s : State, s.supply.running = true →
    let e := s.intercom.endState
    let letGo : Intercom := { s.intercom with press := none }
    let idle : Intercom := { letGo with endState := .idle, callTimer := none, endTimer := none }
    (s.straps.buttons = true →
      (∃ t, exec .callPressed s = .next t ∧ ({ s with intercom := { s.intercom with press := some 20000 } } : State).Kept t)
      ∧ (s.intercom.press ≠ none →
        (e = .idle → s.hire.slot.privacy = false → s.addr ≠ 0 →
          ∃ t, exec .callShortPress s = .next t
            ∧ ({ s with intercom := { letGo with endState := .calling, callTimer := some 300000 } } : State).Kept t
            ∧ (s.silent = false → t.Offered (.call ∈ t.intercom.events) 4 (encIntercomEvent .call)))
        ∧ (e = .idle → s.hire.slot.privacy = false → s.addr = 0 →
          ∃ t, exec .callShortPress s = .next t ∧ t.intercom.endState = .calling ∧ t.intercom.callTimer = some 300000
            ∧ (s.intercom.talk = .none → s.intercom.queue = [] → t.intercom.queue = [{ addr := 0, left := 300000 }]))
        ∧ (e = .calling ∨ e = .connected → s.addr ≠ 0 →
          ∃ t, exec .callShortPress s = .next t ∧ ({ s with intercom := idle } : State).Kept t
            ∧ (s.silent = false → t.Offered (.callWithdraw ∈ t.intercom.events) 4 (encIntercomEvent .callWithdraw)))
        ∧ (e = .calling ∨ e = .connected → s.addr = 0 →
          ∃ t, exec .callShortPress s = .next t
            ∧ ({ s with intercom := { idle with queue := s.intercom.queue.filter fun x => x.addr != 0 } } : State).Kept t
            ∧ t.intercom.talk.partner ≠ some 0)
        ∧ (e = .listen ∨ (∃ w, e = .held w) ∨ (e = .idle ∧ s.hire.slot.privacy = true) →
          ∃ t, exec .callShortPress s = .next t ∧ ({ s with intercom := letGo } : State).Kept t)
        ∧ (∀ h, s.hire.slot.hire? = some h → h.rc.privacy = true →
          ∃ t, exec .callLongPress s = .next t
            ∧ ({ s with intercom := letGo
                        hire := { s.hire with slot := s.hire.slot.mapHire fun x =>
                          { x with rc := { x.rc with privacy := false } } } } : State).Kept t
            ∧ (s.silent = false → t.Offered (.privacyOff ∈ t.intercom.events) 4 (encIntercomEvent .privacyOff)))
        ∧ (∀ h, s.hire.slot.hire? = some h → h.rc.privacy = false → s.addr ≠ 0 →
          ∃ t, exec .callLongPress s = .next t
            ∧ ({ s with intercom := if e = .calling ∨ e = .connected ∨ e = .held .connected then idle else letGo
                        hire := { s.hire with slot := s.hire.slot.mapHire fun x =>
                          { x with rc := { x.rc with privacy := true } } } } : State).Kept t
            ∧ (s.silent = false → t.Offered (.privacyOn ∈ t.intercom.events) 4 (encIntercomEvent .privacyOn)))
        ∧ (∀ h, s.hire.slot.hire? = some h → h.rc.privacy = false → s.addr = 0 →
          ∃ t, exec .callLongPress s = .next t ∧ t.hire.slot.privacy = true ∧ t.intercom.talk.partner ≠ some 0
            ∧ t.intercom.queue = s.intercom.queue.filter (fun x => x.addr != 0))
        ∧ (s.hire.slot.hire? = none →
          ∃ t, exec .callLongPress s = .next t ∧ ({ s with intercom := letGo } : State).Kept t)))
    ∧ (s.straps.buttons = false → ∀ c, c = .callPressed ∨ c = .callShortPress ∨ c = .callLongPress →
        ∃ t, exec c s = .next t ∧ s.Kept t)
    ∧ (s.intercom.press = none → ∀ c, c = .callShortPress ∨ c = .callLongPress → ∃ t, exec c s = .next t ∧ s.Kept t)
    ∧ (e = .calling → s.intercom.callTimer ≠ none → ∃ t, exec .callTimerExpiry s = .next t
        ∧ ({ s with intercom := { s.intercom with endState := .idle, callTimer := none, endTimer := none } } : State).Kept t)
    ∧ (e ≠ .calling ∨ s.intercom.callTimer = none → ∃ t, exec .callTimerExpiry s = .next t ∧ s.Kept t)
    ∧ (∀ a, ∃ t, exec (.queueEntryExpiry a) s = .next t
        ∧ ({ s with intercom := { s.intercom with queue := s.intercom.queue.filter fun x => x.addr != a } } : State).Kept t)

/-- TALK at station 0 (R113, R115, R116, R176). With no talk open it opens one with the first caller, or with the selected station where
no one calls; a seat must be present. While a command is pending or deferred for that station WAIT is shown and nothing is opened. A
seat's talk forms COMMAND CONNECT; station 0's own end takes CONNECT at once, and refuses it while privacy is set. With a talk open the
key ends it, as its 120 s do, and a DISCONNECT falls due for the partner: formed and offered to a seat with nothing pending, taken at once
by the own end, deferred while a command is pending or deferred for the partner, and discarded as a third. A key that opens nothing
changes no talk. That an intercom command of the own end is taken within the event that forms it, with its sequence number and its reply,
is the model's choice (log entry 16). -/
def Obligations.TalkKeyOpensAndEndsATalk : Prop :=
  ∀ s : State, s.supply.running = true → s.addr = 0 → s.Quiet →
    (s.supply.state ≠ .low → s.console.keys = .idle →
      (∀ a : Addr, s.intercom.talk = .none → a ≠ 0 →
          (∃ left rest, s.intercom.queue = { addr := a, left := left } :: rest)
            ∨ (s.intercom.queue = [] ∧ s.console.selected = a ∧ (s.peer.rows.get a).present = true) →
        (s.console.cmds.get a = none → s.console.deferred.get a = [] → (∃ l, s.link.offer s.now 2 (encCommand a s.console.nextSeq .connect)
            (.command a s.console.nextSeq) = some l) →
          ∃ t, exec .talkKey s = .next t ∧ t.intercom.talk = .talk a ∧ t.intercom.talkTimer = some 1200000
            ∧ t.intercom.queue = s.intercom.queue.filter (fun e => e.addr != a)
            ∧ t.link.Carries 2 (encCommand a s.console.nextSeq .connect)
            ∧ t.console.cmds.get a = some { cmd := .connect, seq := s.console.nextSeq, formed := s.now, claiming := false
                                            handed := false, limit := none }
            ∧ t.console.nextSeq = (s.console.nextSeq + 1) % 16)
        ∧ (s.console.cmds.get a ≠ none ∨ s.console.deferred.get a ≠ [] →
          exec .talkKey s = .next (State.signUpdate { s with console := { s.console.ended with message := some (.wait a) } })))
      ∧ (∀ a : Addr, s.intercom.talk = .none → s.intercom.queue = [] → s.console.selected = a → a ≠ 0 →
          (s.peer.rows.get a).present = false →
        exec .talkKey s = .next (State.signUpdate { s with console := { s.console.ended with message := some (.stationAbsent a) } }))
      ∧ (s.intercom.talk = .none → (∃ left rest, s.intercom.queue = { addr := 0, left := left } :: rest)
            ∨ (s.intercom.queue = [] ∧ s.console.selected = 0) → s.console.cmds.get 0 = none → s.console.deferred.get 0 = [] →
        (s.hire.slot.privacy = false → s.intercom.endState = .idle ∨ s.intercom.endState = .calling →
          ∃ t, exec .talkKey s = .next t ∧ t.intercom.talk = (if s.intercom.prompt then .held 0 else .talk 0)
            ∧ t.intercom.talkTimer = some 1200000
            ∧ t.intercom.endState = (if s.intercom.prompt then .held .connected else .connected)
            ∧ t.intercom.queue = s.intercom.queue.filter (fun e => e.addr != 0)
            ∧ t.console.lastReply.get 0 = some (.reply .done) ∧ t.console.nextSeq = (s.console.nextSeq + 1) % 16)
        ∧ (s.hire.slot.privacy = true →
          ∃ t, exec .talkKey s = .next t ∧ t.intercom = s.intercom ∧ t.console.message = some .privacyRefused
            ∧ t.console.lastReply.get 0 = some (.reply (.refused .privacy))))
      ∧ (s.intercom.talk = .announce → exec .talkKey s = .next (State.signUpdate { s with console := s.console.ended })))
    ∧ (s.supply.state = .low → exec .talkKey s = .next s.signUpdate)
    ∧ (∀ (c : Instr) (cons : Console) (a : Addr),
        (c = .talkKey ∧ s.supply.state ≠ .low ∧ s.console.keys = .idle ∧ cons = s.console.ended)
          ∨ (c = .talkTimerExpiry ∧ s.intercom.talkTimer ≠ none ∧ cons = s.console) → s.intercom.talk.partner = some a →
      ∀ apart idle : Intercom, apart = { s.intercom with talk := .none, talkTimer := none } →
        idle = { apart with endState := .idle, callTimer := none, endTimer := none } →
      (s.console.cmds.get a = none → s.console.deferred.get a = [] → a ≠ 0 →
        ∃ t, exec c s = .next t ∧ t.intercom = apart
          ∧ (∀ l, s.link.offer s.now 2 (encCommand a s.console.nextSeq .disconnect) (.command a s.console.nextSeq) = some l →
              t.link = l ∧ t.console = { cons with
                cmds := s.console.cmds.set a (some { cmd := .disconnect, seq := s.console.nextSeq, formed := s.now
                                                     claiming := false, handed := false, limit := none })
                nextSeq := (s.console.nextSeq + 1) % 16 })
          ∧ (s.link.offer s.now 2 (encCommand a s.console.nextSeq .disconnect) (.command a s.console.nextSeq) = none →
              t.link = s.link ∧ t.console = { cons with
                cmds := s.console.cmds.set a none, nextSeq := (s.console.nextSeq + 1) % 16
                message := some (.linkBusy a) }))
      ∧ (s.console.cmds.get a = none → s.console.deferred.get a = [] → a = 0 →
        exec c s = .next (State.signUpdate { s with
          intercom := if s.intercom.endState = .idle ∨ s.intercom.endState = .calling then apart else idle
          console := { cons with
            cmds := s.console.cmds.set 0 none, nextSeq := (s.console.nextSeq + 1) % 16
            lastReply := s.console.lastReply.set 0 (some (.reply .done)) } }))
      ∧ (s.console.cmds.get a ≠ none ∨ s.console.deferred.get a ≠ [] →
        ((s.console.deferred.get a).length < 2 → exec c s = .next (State.signUpdate { s with
          intercom := apart
          console := { cons with deferred := s.console.deferred.set a (s.console.deferred.get a ++ [.disconnect]) } }))
        ∧ (2 ≤ (s.console.deferred.get a).length → exec c s = .next (State.signUpdate { s with
          intercom := apart, console := cons }))))
    ∧ (s.intercom.talkTimer = none → exec .talkTimerExpiry s = .next s.signUpdate)

/-- ANNOUNCE at station 0 (R117, R176). Pressed with no talk and no announce open it listens at every present seat and at its own end
for at most 120 s: for each with nothing pending or deferred it forms COMMAND LISTEN, in the order own end, then seats by address, each
with the next sequence number, and defers LISTEN for the others; with a talk open it shows TALK and changes nothing else. Its release,
or its time, ends it, and where LISTEN was offered LISTEN_END is formed, or deferred, in the same way, seats first (R117, R173, R176).
That the own end takes its LISTEN and LISTEN_END within the event that forms them (log entry 16), the order in which the ends take their
sequence numbers (log entry 61), and that the release is taken in LOW (log entry 53) are the model's choices. The end's own 120 s
(R116), the announce's end (R117), the CALL_WITHDRAW after a start (R123) and the release of the prompt (R120): a connected or listening
end returns to IDLE, a HELD end's time stands still; a HELD end whose prompt is released goes back to what it was and says so. -/
def Obligations.AnnounceListensAndTimersEndWhatTheyTime : Prop :=
  (∀ s : State, s.supply.running = true → s.addr = 0 →
     (s.supply.state ≠ .low → s.console.keys = .idle →
       (s.intercom.talk = .none →
         ∃ t, exec .announcePress s = .next t ∧ t.intercom.talk = .announce ∧ t.intercom.announceTimer = some 1200000
           ∧ t.intercom.listenSet = [1, 2, 3].filter (fun a => (s.peer.rows.get a).present)
           ∧ (∀ a, a ∈ t.intercom.announced ↔
               (a = 0 ∨ a ∈ t.intercom.listenSet) ∧ s.console.cmds.get a = none ∧ s.console.deferred.get a = [])
           ∧ (∀ e, s.console.cmds.get 0 = none → s.console.deferred.get 0 = [] →
               (s.intercom.endState = .idle ∨ s.intercom.endState = .calling ∨ s.intercom.endState = .connected) →
               e = (if s.intercom.prompt then EndState.held .listen else .listen) →
               t.intercom.endState = e ∧ t.intercom.endTimer = some 1200000)
           ∧ (s.console.cmds.get 0 ≠ none ∨ s.console.deferred.get 0 ≠ [] → t.intercom.endState = s.intercom.endState)
           ∧ (s.Quiet → s.console.nextSeq < 16 → ∀ ready, ready = (0 :: t.intercom.listenSet).filter (fun b => s.nonePending b) →
             t.console.nextSeq = (s.console.nextSeq + ready.length) % 16
             ∧ ∀ a ∈ ready, a ≠ 0 →
               s.Commanded t a .listen ((s.console.nextSeq + (ready.filter fun b => decide (b < a)).length) % 16))
           ∧ ∀ a, a = 0 ∨ a ∈ t.intercom.listenSet → s.console.cmds.get a ≠ none ∨ s.console.deferred.get a ≠ [] →
               (s.console.deferred.get a).length < 2 →
               t.console.deferred.get a = s.console.deferred.get a ++ [.listen])
       ∧ (∀ a, s.intercom.talk.partner = some a → s.Quiet →
         exec .announcePress s = .next (State.signUpdate { s with console := { s.console.ended with message := some .talkOpen } }))
       ∧ (s.intercom.talk = .announce → s.Quiet →
         exec .announcePress s = .next (State.signUpdate { s with console := s.console.ended })))
     ∧ (∀ c, (c = .announceRelease ∨ (c = .announceTimerExpiry ∧ s.intercom.announceTimer ≠ none)) →
       (s.intercom.talk = .announce →
         ∃ t, exec c s = .next t ∧ t.intercom.talk = .none ∧ t.intercom.announceTimer = none ∧ t.intercom.listenSet = []
           ∧ t.intercom.announced = []
           ∧ (0 ∈ s.intercom.announced → s.console.cmds.get 0 = none → s.console.deferred.get 0 = [] →
               s.intercom.endState = .listen ∨ s.intercom.endState = .held .listen → t.intercom.endState = .idle)
           ∧ (s.Quiet → s.intercom.Ok → s.console.Ok →
             ∀ ready, ready = (s.intercom.listenSet ++ [0]).filter (fun b => s.intercom.announced.contains b && s.nonePending b) →
             t.console.nextSeq = (s.console.nextSeq + ready.length) % 16
             ∧ ∀ a ∈ ready, a ≠ 0 → s.Commanded t a .listenEnd
               ((s.console.nextSeq + (ready.filter fun b => decide (b ≠ 0) && decide (b < a)).length) % 16))
           ∧ ∀ a, (s.intercom.listenSet ++ [0]).count a = 1 →
               (a ∈ s.intercom.announced → s.console.cmds.get a ≠ none ∨ s.console.deferred.get a ≠ [] →
                 (s.console.deferred.get a).length < 2 →
                 t.console.deferred.get a = s.console.deferred.get a ++ [.listenEnd])
               ∧ (a ∉ s.intercom.announced →
                 t.console.deferred.get a = (s.console.deferred.get a).filter (fun x => x != .listen)))
       ∧ (s.intercom.talk ≠ .announce → ∃ t, exec c s = .next t ∧ s.Kept t))
     ∧ (s.intercom.announceTimer = none → ∃ t, exec .announceTimerExpiry s = .next t ∧ s.Kept t))
  ∧ (∀ s : State, s.supply.running = true →
       (s.intercom.endState = .connected ∨ s.intercom.endState = .listen → ∃ t, exec .endTalkTimerExpiry s = .next t
           ∧ ({ s with intercom := { s.intercom with endState := .idle, callTimer := none, endTimer := none } } : State).Kept t)
       ∧ ((s.intercom.endState = .idle ∨ s.intercom.endState = .calling ∨ ∃ w, s.intercom.endState = .held w) →
           ∃ t, exec .endTalkTimerExpiry s = .next t ∧ s.Kept t)
       ∧ (s.intercom.withdrawDue = true → s.link.synced = true →
         ∃ t, exec .startupCallWithdraw s = .next t ∧ ({ s with intercom := { s.intercom with withdrawDue := false } } : State).Kept t
           ∧ (s.silent = false → t.Offered (.callWithdraw ∈ t.intercom.events) 4 (encIntercomEvent .callWithdraw)))
       ∧ (s.intercom.withdrawDue = false ∨ s.link.synced = false → ∃ t, exec .startupCallWithdraw s = .next t ∧ s.Kept t)
       ∧ (s.intercom.promptTimer ≠ none →
         (∀ w e, (w = .connected ∧ e = .connected) ∨ (w = .listen ∧ e = .listen) → s.intercom.endState = .held w →
           ∃ t, exec .promptRelease s = .next t
             ∧ ({ s with intercom := { s.intercom with prompt := false, promptTimer := none, endState := e } } : State).Kept t
             ∧ (s.addr ≠ 0 → s.silent = false → t.Offered (.speakerFree ∈ t.intercom.events) 4 (encIntercomEvent .speakerFree)))
         ∧ ((∀ w, s.intercom.endState ≠ .held w) →
           ∃ t, exec .promptRelease s = .next t
             ∧ ({ s with intercom := { s.intercom with prompt := false, promptTimer := none } } : State).Kept t))
       ∧ (s.intercom.promptTimer = none → ∃ t, exec .promptRelease s = .next t ∧ s.Kept t))

/-! ### Card payments and tenders (chapter 8) -/

/-- PAY_CASH, PAY_ACCOUNT and PAY_CARD share their checks in this order (R131, R144, R145): a session is active, three tenders stand,
nothing remains and the hire is settled with no further tender (R146), then each command's own check. A refused one changes nothing but
the reply. -/
def Obligations.PaymentsAreCheckedInOrder : Prop :=
  ∀ (src : Source) (seq tendered digits number : Nat) (c : Instr) (h : Hire) (s : State),
    s.supply.running = true → s.Hears src → s.hire.slot = .stopped h ∨ s.hire.slot = .paying h →
    c = .payCash src seq tendered ∨ c = .payAccount src seq digits number ∨ c = .payCard src seq →
    (s.pay.session ≠ .none → ∃ t, exec c s = .next t ∧ s.Kept t ∧ s.Replied t src seq (.refused .paymentActive))
    ∧ (s.pay.session = .none → 3 ≤ h.rc.tenders.length →
        ∃ t, exec c s = .next t ∧ s.Kept t ∧ s.Replied t src seq (.refused .wrongState))
    ∧ (s.pay.session = .none → h.rc.tenders.length < 3 → h.rc.remaining = 0 →
        ∃ t, exec c s = .next t ∧ (s.hireClosed h .settled).Kept t ∧ s.Announced t (.closed h.rc.no .settled)
          ∧ s.Replied t src seq .done)
    ∧ (s.pay.session = .none → h.rc.tenders.length < 3 → 0 < h.rc.remaining →
        (c = .payCash src seq tendered → tendered = 0 ∨ 999999 < tendered →
          ∃ t, exec c s = .next t ∧ s.Kept t ∧ s.Replied t src seq (.refused .amountRange))
        ∧ (c = .payAccount src seq digits number → digits = 0 ∨ 8 < digits →
          ∃ t, exec c s = .next t ∧ s.Kept t ∧ s.Replied t src seq (.refused .amountRange))
        ∧ (c = .payCard src seq → s.card.currency = none ∨ s.card.moduleState = .notFitted ∨ s.card.moduleState = .unknown
            ∨ s.card.moduleState = .outOfService ∨ s.card.moduleState = .absent →
          ∃ t, exec c s = .next t ∧ s.Kept t ∧ s.Replied t src seq (.refused .cardUnavailable))
        ∧ (c = .payCard src seq → s.card.currency ≠ none → s.card.moduleState = .ready ∨ s.card.moduleState = .cardWait
            ∨ s.card.moduleState = .processing → 4 ≤ s.pay.reversals.length →
          ∃ t, exec c s = .next t ∧ s.Kept t ∧ s.Replied t src seq (.refused .cardBlocked)))

/-- PAY_CASH applies the lesser of what is tendered and what remains, and shows the change (R144); PAY_ACCOUNT applies all that remains
(R145). A tender that reaches due and tip settles the hire (R19, R21, R146), one that does not leaves it in PAYING. -/
def Obligations.CashAndAccountTendersAreApplied : Prop :=
  ∀ (src : Source) (seq tendered digits number : Nat) (h : Hire) (s : State), s.supply.running = true → s.Hears src →
    s.hire.slot = .stopped h ∨ s.hire.slot = .paying h → s.pay.session = .none → h.rc.tenders.length < 3 → 0 < h.rc.remaining →
    (1 ≤ tendered → tendered ≤ 999999 →
      ∀ shown : Display, shown = { s.display with
        outcome := none, change := some (tendered - min tendered h.rc.remaining), timer := some 100000 } →
      ∀ h' : Hire, h' = { h with rc := { h.rc with tenders :=
        h.rc.tenders ++ [.cash (min tendered h.rc.remaining) tendered (tendered - min tendered h.rc.remaining)] } } →
      (tendered < h.rc.remaining →
        ∃ t, exec (.payCash src seq tendered) s = .next t
          ∧ ({ s with hire := { s.hire with slot := .paying h'
                                            resume := if s.hire.slot = .stopped h then none else s.hire.resume }
                      display := shown } : State).Kept t
          ∧ s.Replied t src seq .done)
      ∧ (h.rc.remaining ≤ tendered →
        ∃ t, exec (.payCash src seq tendered) s = .next t
          ∧ ({ s.hireClosed h' .settled with display := shown } : State).Kept t
          ∧ s.Announced t (.closed h.rc.no .settled) ∧ s.Replied t src seq .done))
    ∧ (1 ≤ digits → digits ≤ 8 →
      ∀ h' : Hire, h' = { h with rc := { h.rc with tenders := h.rc.tenders ++ [.account h.rc.remaining digits number] } } →
      ∃ t, exec (.payAccount src seq digits number) s = .next t
        ∧ ({ s.hireClosed h' .settled with display := s.display.cleared } : State).Kept t
        ∧ s.Announced t (.closed h.rc.no .settled) ∧ s.Replied t src seq .done)

/-- What a session begins with when it forms the request (R135): the remaining amount, and the tip while no tender stands. That the
passenger display then shows no earlier outcome or change, in PAYING too, where the hire does not change, is the model's choice (R178,
log entry 28). CARD_CANCEL (R134, R140): in the tip step, or before the PAY has been sent, the session ends with nothing shown and the
prompt released; afterwards a cancel is requested. It answers DONE while a session is active, and WRONG_STATE in PAYING without one.
That a PAY whose bytes are still leaving counts as sent is the model's choice (log entry 20). -/
def Obligations.CardSessionIsBegunAndCancelled : Prop :=
  (∀ (src : Source) (seq : Nat) (h : Hire) (s : State), s.supply.running = true → s.Hears src →
     s.hire.slot = .stopped h ∨ s.hire.slot = .paying h → s.pay.session = .none → h.rc.tenders.length < 3 → 0 < h.rc.remaining →
     s.card.currency ≠ none → s.card.moduleState = .ready ∨ s.card.moduleState = .cardWait ∨ s.card.moduleState = .processing →
     s.pay.reversals.length < 4 →
     ∀ tipStep, tipStep = (h.rc.tenders = [] ∧ h.rc.tip = none ∧ (∃ im, s.image = some im ∧ im.tips ≠ []) ∧ s.straps.buttons = true) →
     ∀ pay : Pay,
       (tipStep ∧ pay = { s.pay with session := .tipSelect 0, tipTimer := some 300000 })
         ∨ (¬ tipStep ∧ pay = { s.pay with
             session := .cardWait { amount := h.rc.remaining, tip := if h.rc.tenders = [] then h.rc.tip.getD 0 else 0
                                    txn := none, cancelReq := false, cancelSent := false }
             tipTimer := none }) →
     ∃ t, exec (.payCard src seq) s = .next t
       ∧ ({ s with hire := { s.hire with slot := .paying h
                                         resume := if s.hire.slot = .stopped h then none else s.hire.resume }
                   display := s.display.cleared, pay := pay, intercom := s.intercom.prompted } : State).Kept t
       ∧ s.Replied t src seq .done)
  ∧ (∀ (src : Source) (seq : Nat) (h : Hire) (s : State), s.supply.running = true → s.Hears src → s.hire.slot = .paying h →
       (s.pay.session = .none → ∃ t, exec (.cardCancel src seq) s = .next t ∧ s.Kept t ∧ s.Replied t src seq (.refused .wrongState))
       ∧ ((∃ c, s.pay.session = .tipSelect c) ∨ (∃ q, s.pay.session = .cardWait q ∧ q.txn = none) →
         ∃ t, exec (.cardCancel src seq) s = .next t
           ∧ ({ s with pay := { s.pay with session := .none, tipTimer := none, overall := none }
                       intercom := s.intercom.unprompted } : State).Kept t
           ∧ s.Replied t src seq .done)
       ∧ (∀ q session, (s.pay.session = .cardWait q ∧ q.txn ≠ none ∧ session = .cardWait { q with cancelReq := true })
             ∨ (s.pay.session = .enquiry q ∧ session = .enquiry { q with cancelReq := true }) →
         ∃ t, exec (.cardCancel src seq) s = .next t ∧ ({ s with pay := { s.pay with session := session } } : State).Kept t
           ∧ s.Replied t src seq .done))

/-- The passenger buttons and the timers of the payment (R121, R133, R134, R140, R178). In the tip step UP and DOWN move the cursor
within the options; OK stores the tip floor((due × pct + 50) / 100), its time a tip of 0, and the request is formed, or the session
ends with CARD UNAVAILABLE (R135). Outside it UP and DOWN set the volume from 0 to 7 and OK does nothing. Without buttons a press does
nothing. The passenger display is blank in LOW and of a stopped station (R179, R189); otherwise it shows vacant, the running hire, or what
is owed with the values of R43 at STOP, the two with the current level of R33, the tip options in TIP_SELECT with their amounts, the
outcome and the change, the privacy, the state of the compartment end, and the volume for its 3 s (R178). -/
def Obligations.PassengerButtonsChooseTipAndVolume : Prop :=
  (∀ s : State, (s.supply.running = false ∨ s.supply.state = .low → s.passengerDisplay = none)
    ∧ (s.supply.running = true → s.supply.state ≠ .low → ∃ d, s.passengerDisplay = some d
      ∧ (s.hire.slot = .free ∨ (∃ c, s.hire.slot = .claiming c) → d.hire = .vacant)
      ∧ (∀ h, s.hire.slot = .hired h → d.hire = .running (h.rc.flagFall + h.rc.distCharge + h.rc.timeCharge
            + (h.rc.extras.map (·.2)).sum) h.rc.extras (h.rc.extras.map (·.2)).sum h.rc.level)
      ∧ (∀ h due, s.hire.slot = .stopped h ∨ s.hire.slot = .paying h → h.rc.due = some due →
        ∃ f, d.hire = .owed due h.rc.tip (if h.rc.tenders = [] then none else some h.rc.remaining) h.rc.level f
          ∧ f.flagFall = h.rc.flagFall ∧ f.distCharge = h.rc.distCharge ∧ f.timeCharge = h.rc.timeCharge
          ∧ f.rounding = h.rc.rounding ∧ f.topUp = h.rc.topUp ∧ f.extrasSum = (h.rc.extras.map (·.2)).sum ∧ f.due = some due
          ∧ f.metered = h.rc.flagFall + h.rc.distCharge + h.rc.timeCharge + h.rc.rounding.getD 0
          ∧ f.distance = h.rc.paidPulses * 1000 / h.snap.k ∧ f.seconds = h.rc.hiredTenths / 10
          ∧ f.saving = if h.rc.capped then none else some (h.rc.undiscounted - (h.rc.distCharge + h.rc.timeCharge)))
      ∧ ((∀ c, s.pay.session ≠ .tipSelect c) → d.tips = none)
      ∧ (∀ c im h due, s.pay.session = .tipSelect c → s.image = some im → s.hire.slot.hire? = some h → h.rc.due = some due →
          d.tips = some (c, im.tips.map fun pct => (pct, (due * pct + 50) / 100)))
      ∧ d.outcome = s.display.outcome ∧ d.change = s.display.change ∧ d.endShown = s.intercom.endState
      ∧ d.privacy = ((s.hire.slot.hire?.map (·.rc.privacy)).getD false)
      ∧ d.volume = (if s.display.volumeTimer = none then none else some s.intercom.volume)))
  ∧ ∀ s : State, s.supply.running = true →
    (s.straps.buttons = true → ∀ c, s.pay.session = .tipSelect c →
      (∃ t, exec .passengerUp s = .next t ∧ ({ s with pay := { s.pay with session := .tipSelect (c - 1) } } : State).Kept t)
      ∧ (∀ im, s.image = some im → ∃ t, exec .passengerDown s = .next t
          ∧ ({ s with pay := { s.pay with session := .tipSelect (min (c + 1) (im.tips.length - 1)) } } : State).Kept t))
    ∧ (∀ (c : Nat) (h : Hire) (due pct : Nat) (cmd : Instr), s.pay.session = .tipSelect c → s.hire.slot = .paying h → h.rc.due = some due →
        (cmd = .passengerOk ∧ s.straps.buttons = true ∧ ∃ im, s.image = some im ∧ im.tips[c]? = some pct)
          ∨ (cmd = .tipTimerExpiry ∧ pct = 0) →
      ∀ h' : Hire, h' = { h with rc := { h.rc with tip := some ((due * pct + 50) / 100) } } →
      ∀ u : State, u = { s with hire := { s.hire with slot := .paying h' }, display := s.display.cleared } →
      (s.card.moduleState ≠ .outOfService → s.card.moduleState ≠ .absent →
        ∃ t, exec cmd s = .next t ∧ ({ u with pay := { s.pay with
          session := .cardWait { amount := h'.rc.remaining, tip := if h.rc.tenders = [] then (due * pct + 50) / 100 else 0
                                 txn := none, cancelReq := false, cancelSent := false }
          tipTimer := none } } : State).Kept t)
      ∧ (s.card.moduleState = .outOfService ∨ s.card.moduleState = .absent →
        ∃ t, exec cmd s = .next t ∧ (u.sessionEnded .cardUnavailable).Kept t))
    ∧ (s.straps.buttons = true → (∀ c, s.pay.session ≠ .tipSelect c) →
      (∀ cmd v, (cmd = .passengerUp ∧ v = min 7 (s.intercom.volume + 1)) ∨ (cmd = .passengerDown ∧ v = s.intercom.volume - 1) →
        ∃ t, exec cmd s = .next t
          ∧ ({ s with intercom := { s.intercom with volume := v }
                      display := if v = s.intercom.volume then s.display else { s.display with volumeTimer := some 30000 } }
              : State).Kept t)
      ∧ (∃ t, exec .passengerOk s = .next t ∧ s.Kept t))
    ∧ (s.straps.buttons = false → ∀ c, c = .passengerUp ∨ c = .passengerDown ∨ c = .passengerOk → ∃ t, exec c s = .next t ∧ s.Kept t)
    ∧ ((∀ c, s.pay.session ≠ .tipSelect c) → ∃ t, exec .tipTimerExpiry s = .next t ∧ s.Kept t)
    ∧ (s.pay.overall ≠ none → ∀ q session,
        (s.pay.session = .cardWait q ∧ session = .cardWait { q with cancelReq := true })
          ∨ (s.pay.session = .enquiry q ∧ session = .enquiry { q with cancelReq := true }) →
        ∃ t, exec .overallTimerExpiry s = .next t
          ∧ ({ s with pay := { s.pay with overall := none, session := session } } : State).Kept t)
    ∧ (s.pay.overall = none → ∃ t, exec .overallTimerExpiry s = .next t ∧ s.Kept t)
    ∧ (s.display.timer ≠ none → ∃ t, exec .outcomeDisplayExpiry s = .next t ∧ ({ s with display := s.display.cleared } : State).Kept t)
    ∧ (s.display.timer = none → ∃ t, exec .outcomeDisplayExpiry s = .next t ∧ s.Kept t)
    ∧ (∃ t, exec .volumeDisplayExpiry s = .next t ∧ ({ s with display := { s.display with volumeTimer := none } } : State).Kept t)

/-- What goes out on the card line (R125, R128, R130, R135, R140, R142). A waiting PAY goes out with the line free, with a transaction
number allocated then, the missed count at 0 and the overall 90 s begun; a requested CANCEL once; at a tick with nothing waiting an
ENQUIRE in ENQUIRY, nothing in CARD_WAIT, otherwise the REVERSE of the oldest entry or a POLL. When the last byte has left, the response
limit starts. That the missed count and the 90 s begin with the first byte of the PAY, and not with its last, is the model's choice
(log entry 20). -/
def Obligations.CardRequestsGoOut : Prop :=
  ∀ s : State, s.supply.running = true →
    ∀ out : CardReq → Option CardOut,
      out = (fun q => some { req := q, sent := false, timer := some ((q.bytes.length * 100000 + 19199) / 19200) }) →
    ∀ line : CardReq → Lines, line = (fun q => { s.lines with card := q.bytes }) →
    (s.card.out = none →
      (∀ q txn req, s.pay.session = .cardWait q → q.txn = none → txn = s.freeTxn 104 s.card.nextTxn →
          req = .pay txn q.amount q.tip (s.card.currency.getD 0) →
        ∃ t, exec .cardPaySend s = .next t
          ∧ ({ s with lines := line req
                      card := { s.card with out := out req, missed := 0, nextTxn := if 65535 ≤ txn then 1 else txn + 1 }
                      pay := { s.pay with session := .cardWait { q with txn := some txn }, overall := some 900000 } } : State).Kept t)
      ∧ (∀ q txn session, q.txn = some txn → q.cancelReq = true → q.cancelSent = false →
          (s.pay.session = .cardWait q ∧ session = .cardWait { q with cancelSent := true })
            ∨ (s.pay.session = .enquiry q ∧ session = .enquiry { q with cancelSent := true }) →
        ∃ t, exec .cardCancelSend s = .next t
          ∧ ({ s with lines := line (.cancel txn), card := { s.card with out := out (.cancel txn) }
                      pay := { s.pay with session := session } } : State).Kept t)
      ∧ (s.card.poll ≠ none → ∀ poll, poll = some s.card.pollInterval →
        (∀ q txn, s.pay.session = .enquiry q → q.txn = some txn → q.cancelReq = false ∨ q.cancelSent = true →
          ∃ t, exec .pollTick s = .next t
            ∧ ({ s with lines := line (.enquire txn), card := { s.card with poll := poll, out := out (.enquire txn) } } : State).Kept t)
        ∧ (∀ q, s.pay.session = .cardWait q →
          ∃ t, exec .pollTick s = .next t ∧ ({ s with card := { s.card with poll := poll } } : State).Kept t)
        ∧ (∀ req, s.pay.session = .none ∨ (∃ c, s.pay.session = .tipSelect c) →
            (s.pay.reversals = [] ∧ req = CardReq.poll)
              ∨ (∃ r rest, s.pay.reversals = r :: rest ∧ req = .reverse r.txn r.amount) →
          ∃ t, exec .pollTick s = .next t
            ∧ ({ s with lines := line req, card := { s.card with poll := poll, out := out req } } : State).Kept t)))
    ∧ (∀ o, s.card.out = some o →
      (s.card.poll ≠ none → ∃ t, exec .pollTick s = .next t
          ∧ ({ s with card := { s.card with poll := some s.card.pollInterval } } : State).Kept t)
      ∧ (∀ c, c = .cardPaySend ∨ c = .cardCancelSend → ∃ t, exec c s = .next t ∧ s.Kept t)
      ∧ (o.sent = false → ∃ t, exec .cardRequestSent s = .next t
          ∧ ({ s with card := { s.card with out := some { o with sent := true, timer := some s.card.respLimit } } } : State).Kept t))
    ∧ (s.card.poll = none → ∃ t, exec .pollTick s = .next t ∧ s.Kept t)
    ∧ (∀ q : CardReq, ∃ body, q.bytes = 2#8 :: body ∧ crc16 body = 0)

/-- A response limit that expires is a miss (R127, R129, R139, R142): it ends the request and counts; a REVERSE counts an attempt of its
entry; a POLL or REVERSE missed as the third makes the module ABSENT; the session's request sends the session to ENQUIRY, and as the
third puts it in doubt, with an entry in the reversal list, the missed count at 0 and IN DOUBT shown. MODULE_ABSENT and
TRANSACTION_IN_DOUBT as rows of the table are the misses that do so (log entry 4). That a POLL or REVERSE missed as the third makes the
module ABSENT also while a session is active that has sent nothing (log entry 39), and again where it is missed beyond the third (log
entry 48), are the model's choices. -/
def Obligations.MissesCountToAbsentOrInDoubt : Prop :=
  ∀ s : State, s.supply.running = true →
    (∀ o, s.card.out = some o → o.sent = true →
      ∀ missed : Card, missed = { s.card with out := none, missed := s.card.missed + 1 } →
      (∀ req, o.req = req → (req = .poll ∨ ∃ txn amount, req = .reverse txn amount) →
        ∃ t, exec .cardResponseExpiry s = .next t
          ∧ ({ s with
                card := { missed with moduleState := if 3 ≤ s.card.missed + 1 then .absent else s.card.moduleState }
                pay := { s.pay with reversals := s.pay.reversals.map fun r =>
                  match req with
                  | .reverse txn _ => if r.txn = txn then { r with attempts := min 255 (r.attempts + 1) } else r
                  | _ => r } } : State).Kept t
          ∧ (s.card.missed = 2 → exec .moduleAbsent s = exec .cardResponseExpiry s))
      ∧ ((∃ txn amount tip cur, o.req = .pay txn amount tip cur) ∨ (∃ txn, o.req = .enquire txn) ∨ (∃ txn, o.req = .cancel txn) →
        ∀ q, s.pay.session = .cardWait q ∨ s.pay.session = .enquiry q →
        (s.card.missed < 2 → ∃ t, exec .cardResponseExpiry s = .next t
          ∧ ({ s with card := missed, pay := { s.pay with session := .enquiry q } } : State).Kept t)
        ∧ (2 ≤ s.card.missed → ∃ t, exec .cardResponseExpiry s = .next t
          ∧ (({ s with
                card := { missed with missed := 0 }
                pay := { s.pay with reversals := s.pay.reversals ++ [{ txn := q.txn.getD 0, amount := q.amount
                                                                       hireNo := (s.hire.slot.hire?.map (·.rc.no)).getD 0
                                                                       addr := s.addr, attempts := 0 }] } }
              : State).sessionEnded .inDoubt).Kept t)
        ∧ (s.card.missed = 2 → exec .transactionInDoubt s = exec .cardResponseExpiry s)))
    ∧ (s.card.out = none ∨ (∃ o, s.card.out = some o ∧ o.sent = false) →
      ∀ c, c = .cardResponseExpiry ∨ c = .moduleAbsent ∨ c = .transactionInDoubt → ∃ t, exec c s = .next t ∧ s.Kept t)
    ∧ (s.card.missed ≠ 2 → ∀ c, c = .moduleAbsent ∨ c = .transactionInDoubt → ∃ t, exec c s = .next t ∧ s.Kept t)

/-- What the module answers (R124, R126, R127, R136 to R138, R141, R142, Table 8-3). A STATUS sets the module state and ends an
outstanding POLL, or sends the session to ENQUIRY where it answers its request; any other frame finds the module again. A RESULT for the
session applies its approved amount as a card tender up to the request, or none, and ends the session; above the request the transaction
is in doubt. NOT_FOUND ends the session with NOT COMPLETED. REVERSED or NOT_FOUND for an outstanding REVERSE removes the entry. A frame
for another transaction changes no session. A discarded or cut frame changes nothing but what is being received; a start byte that follows
a cut frame late begins the next one. Which card fields are coded ones, and where the scan goes on after one of them fails, are the
model's choices (log entry 47). -/
def Obligations.ModuleAnswersAreTaken : Prop :=
  ∀ s : State, s.supply.running = true →
    ∀ found : ModuleState, found = (if s.card.moduleState = .unknown ∨ s.card.moduleState = .absent then .ready
      else s.card.moduleState) →
    (s.card.moduleState ≠ .notFitted →
      ∀ (card : ModuleState → Card), card = (fun m => { s.card with rxOpen := false, moduleState := m }) →
      ∀ (answered : ModuleState → Card), answered = (fun m => { card m with out := none, missed := 0 }) →
      (∀ txn st m, (st = .ready ∧ m = .ready) ∨ (st = .cardWait ∧ m = .cardWait) ∨ (st = .processing ∧ m = .processing)
          ∨ (st = .outOfService ∧ m = .outOfService) →
        (s.card.outstanding = some .poll → ∃ t, exec (.status txn st) s = .next t ∧ ({ s with card := answered m } : State).Kept t)
        ∧ (s.card.awaits txn = true → ∀ q, s.pay.session = .cardWait q ∨ s.pay.session = .enquiry q →
          ∃ t, exec (.status txn st) s = .next t
            ∧ ({ s with card := answered m, pay := { s.pay with session := .enquiry q } } : State).Kept t)
        ∧ (s.card.outstanding ≠ some .poll → s.card.awaits txn = false →
          ∃ t, exec (.status txn st) s = .next t ∧ ({ s with card := card m } : State).Kept t))
      ∧ (∀ txn o a scheme four auth q h, s.card.awaits txn = true → s.pay.session = .cardWait q ∨ s.pay.session = .enquiry q →
          s.hire.slot = .paying h → h.rc.tenders.length < 3 →
        ∀ u : State, u = { s with card := answered found } →
        ((o = .approved ∨ o = .partApproved) ∧ a = 0 ∨ o = .declined →
          ∃ t, exec (.result txn o a scheme four auth) s = .next t ∧ (u.sessionEnded .declined).Kept t)
        ∧ (∀ shown, (o = .cancelled ∧ shown = .cancelled) ∨ (o = .cardError ∧ shown = .cardError) ∨ (o = .refused ∧ shown = .refused) →
          ∃ t, exec (.result txn o a scheme four auth) s = .next t ∧ (u.sessionEnded shown).Kept t)
        ∧ (o = .approved ∨ o = .partApproved → q.amount < a →
          ∃ t, exec (.result txn o a scheme four auth) s = .next t
            ∧ (({ u with pay := { s.pay with reversals := s.pay.reversals ++ [{ txn := q.txn.getD 0, amount := q.amount
                                                                                hireNo := h.rc.no, addr := s.addr
                                                                                attempts := 0 }] } }
                : State).sessionEnded .inDoubt).Kept t)
        ∧ (o = .approved ∨ o = .partApproved → 0 < a → a ≤ q.amount →
          ∀ h' : Hire, h' = { h with rc := { h.rc with tenders :=
              h.rc.tenders ++ [.card a (q.txn.getD 0) scheme four auth] } } →
          ∀ shown : ShownOutcome, shown = (if a = q.amount then .approved else .partApproved (q.amount - a)) →
          (h'.rc.appliedSum < h'.rc.owed →
            ∃ t, exec (.result txn o a scheme four auth) s = .next t
              ∧ (({ u with hire := { s.hire with slot := .paying h' }, display := s.display.cleared } : State).sessionEnded shown).Kept t)
          ∧ (h'.rc.owed ≤ h'.rc.appliedSum →
            ∃ t, exec (.result txn o a scheme four auth) s = .next t
              ∧ ((({ u with display := s.display.cleared } : State).hireClosed h' .settled).sessionEnded shown).Kept t
              ∧ s.Announced t (.closed h.rc.no .settled))))
      ∧ (∀ txn, s.card.awaits txn = true → ∀ q, s.pay.session = .cardWait q ∨ s.pay.session = .enquiry q →
        ∃ t, exec (.notFound txn) s = .next t ∧ (({ s with card := answered found } : State).sessionEnded .notCompleted).Kept t)
      ∧ (∀ txn amount c, s.card.outstanding = some (.reverse txn amount) → c = .reversed txn ∨ c = .notFound txn →
        ∃ t, exec c s = .next t
          ∧ ({ s with card := answered found
                      pay := { s.pay with reversals := s.pay.reversals.filter fun r => r.txn != txn } } : State).Kept t)
      ∧ (∀ txn, s.card.awaits txn = false → (∀ amount, s.card.outstanding ≠ some (.reverse txn amount)) →
        ∀ o a scheme four auth, ∀ c, c = .result txn o a scheme four auth ∨ c = .notFound txn ∨ c = .reversed txn →
        ∃ t, exec c s = .next t ∧ ({ s with card := card found } : State).Kept t)
      ∧ (∀ bytes, scanCard (bytes.length + 2) (if s.card.rxOpen then 2#8 :: bytes else bytes) = none → ∃ t, exec (.cardFrameDiscarded bytes) s = .next t
          ∧ ({ s with card := { s.card with rxOpen := false } } : State).Kept t)
      ∧ (∀ late : Option Byte, ∃ t, exec (.cardFrameTruncated late) s = .next t
          ∧ ({ s with card := { s.card with rxOpen := decide (late = some 2#8) } } : State).Kept t))
    ∧ (s.card.moduleState = .notFitted → ∀ txn st o a scheme four auth bytes late c,
        scanCard (bytes.length + 2) (if s.card.rxOpen then 2#8 :: bytes else bytes) = none →
        c = .status txn st ∨ c = .result txn o a scheme four auth ∨ c = .notFound txn ∨ c = .reversed txn
          ∨ c = .cardFrameDiscarded bytes ∨ c = .cardFrameTruncated late →
        ∃ t, exec c s = .next t ∧ s.Kept t)

/-! ### Shift accounting and the vehicle close (chapter 9) -/

/-- What a seat does with the SHIFT frames of station 0 that open and close a shift (R151 to R153, R157, R163, R165). OFF_SHIFT, it adopts
the shift with zeroed accumulators and hire number 1. ON_SHIFT or CLOSING in another shift, it closes that one LATE, begins the LATE
summary of it from part 0, and adopts the new one, at once where slot and session are at rest, otherwise that waits; the same number
changes nothing. CLOSING, SHIFT_DONE with its number closes its shift where its address stands in the set, and otherwise returns it to
ON_SHIFT, as SHIFT_ABANDON and the 10 s limit do. A frame of another sender changes nothing. -/
def Obligations.SeatFollowsTheShift : Prop :=
  ∀ s : State, s.supply.running = true → s.addr ≠ 0 → s.Quiet →
    (s.HearsFrom 0 → ∀ (number driver : Nat) (rejoin forced : Bool) (addrs : List Addr),
      (s.shift.state = .offShift → ∃ t, exec (.shiftOpen 0 rejoin number driver) s = .next t
        ∧ ({ s with
              shift := { s.shift with number := number, driver := some driver, openTime := some s.clock.seconds, acc := .zero
                                      lost := rejoin && s.shift.coldMark, coldMark := false, state := .onShift }
              hire := { s.hire with nextNo := 1 } } : State).Kept t)
      ∧ (s.shift.state ≠ .offShift → s.shift.number = number →
        exec (.shiftOpen 0 rejoin number driver) s = .next s.onlyHeard)
      ∧ (s.shift.state ≠ .offShift → s.shift.number ≠ number →
        (s.hire.slot = .free → s.pay.session = .none →
          ∃ t, exec (.shiftOpen 0 rejoin number driver) s = .next t ∧ t.shift.state = .onShift ∧ t.shift.number = number
            ∧ t.shift.driver = some driver ∧ t.shift.openTime = some s.clock.seconds ∧ t.shift.acc = .zero ∧ t.shift.lost = false
            ∧ t.shift.coldMark = false ∧ t.hire.nextNo = 1 ∧ t.shift.pendingLate = none
            ∧ t.shift.last = some { number := s.shift.number, driver := s.shift.driver, openTime := s.shift.openTime
                                    lost := s.shift.lost, closeTime := s.clock.seconds, mark := .late, acc := s.shift.acc }
            ∧ ∃ tx, t.shift.lateTx = some tx ∧ tx.k = 0 ∧ tx.parts = s.summaryParts s.shift.number s.shift.lost s.shift.acc
              ∧ ∀ p, tx.parts[0]? = some p → t.Offered (tx.held = true) 5 (encSummary true p))
        ∧ (s.hire.slot ≠ .free ∨ s.pay.session ≠ .none →
          ∃ t, exec (.shiftOpen 0 rejoin number driver) s = .next t ∧ t.shift.number = s.shift.number ∧ t.shift.acc = s.shift.acc
            ∧ t.shift.state = .onShift ∧ t.hire.slot = s.hire.slot
            ∧ ((∀ d, s.shift.pendingLate ≠ some (number, d)) → t.shift.pendingLate = some (number, driver))
            ∧ (∀ d, s.shift.pendingLate = some (number, d) → t.shift.pendingLate = some (number, d))))
      ∧ (∀ shift, s.shift.state = .closing ∧ s.shift.number = number →
          shift = (if s.addr ∈ addrs then { s.shift with
              state := .offShift, closing := none, tx := none, acc := .zero
              last := some { number := s.shift.number, driver := s.shift.driver, openTime := s.shift.openTime
                             lost := s.shift.lost, closeTime := s.clock.seconds
                             mark := if forced then .forced else .normal, acc := s.shift.acc } }
            else { s.shift with state := .onShift, closing := none, tx := none }) →
        exec (.shiftDone 0 forced number addrs) s = .next (State.signUpdate { s with
          link := { s.link with fairness := 0, pause := none }, shift := shift }))
      ∧ (s.shift.state = .closing ∧ s.shift.number = number →
        exec (.shiftAbandon 0 number) s = .next (State.signUpdate { s with
          link := { s.link with fairness := 0, pause := none }
          shift := { s.shift with state := .onShift, closing := none, tx := none } }))
      ∧ (s.shift.state ≠ .closing ∨ s.shift.number ≠ number → ∀ c, c = .shiftDone 0 forced number addrs ∨ c = .shiftAbandon 0 number →
        exec c s = .next (State.signUpdate { s with link := { s.link with fairness := 0, pause := none } })))
    ∧ (s.shift.closing ≠ none → exec .seatClosingLimitExpiry s = .next (State.signUpdate { s with
        shift := { s.shift with state := .onShift, closing := none, tx := none } }))
    ∧ (s.shift.closing = none → exec .seatClosingLimitExpiry s = .next s.signUpdate)
    ∧ (∀ (a : Addr) number driver rejoin forced addrs c, a ≠ 0 → s.HearsFrom a →
        c = .shiftOpen a rejoin number driver ∨ c = .shiftCall a number ∨ c = .shiftDone a forced number addrs
          ∨ c = .shiftAbandon a number →
        exec c s = .next (State.signUpdate { s with link := { s.link with fairness := 0, pause := none } }))

/-- What a seat answers to SHIFT_CALL (R160, R161): OFF_SHIFT nothing at all, but for what every good frame does (R80, R94); in another
shift SHIFT_REFUSE NUMBER; ON_SHIFT with its slot or session not at rest SHIFT_REFUSE BUSY; otherwise it enters CLOSING, or stays in it,
with its 10 s limit afresh, and offers its summary from part 0 on. -/
def Obligations.SeatAnswersTheCall : Prop :=
  ∀ (number : Nat) (s : State), s.supply.running = true → s.addr ≠ 0 → s.HearsFrom 0 → s.Quiet →
    (s.shift.state = .offShift → exec (.shiftCall 0 number) s = .next s.onlyHeard)
    ∧ (s.shift.state ≠ .offShift → s.shift.number ≠ number →
      ∃ t, exec (.shiftCall 0 number) s = .next t ∧ s.Kept t
        ∧ (s.silent = false → t.Offered (.refuse .number s.shift.number ∈ t.shift.held) 5
            (encShiftFrame (.refuse .number s.shift.number))))
    ∧ (s.shift.state = .onShift → s.shift.number = number → s.hire.slot ≠ .free ∨ s.pay.session ≠ .none →
      ∃ t, exec (.shiftCall 0 number) s = .next t ∧ s.Kept t
        ∧ (s.silent = false → t.Offered (.refuse .busy s.shift.number ∈ t.shift.held) 5
            (encShiftFrame (.refuse .busy s.shift.number))))
    ∧ (s.shift.number = number → (s.shift.state = .onShift ∧ s.hire.slot = .free ∧ s.pay.session = .none) ∨ s.shift.state = .closing →
      ∃ t held, exec (.shiftCall 0 number) s = .next t
        ∧ t.shift.state = .closing ∧ t.shift.closing = some 100000 ∧ t.shift.number = s.shift.number ∧ t.shift.acc = s.shift.acc
        ∧ t.shift.tx = some { parts := s.summaryParts s.shift.number s.shift.lost s.shift.acc, k := 0, held := held, gen := s.shift.gen }
        ∧ (∀ p, (s.summaryParts s.shift.number s.shift.lost s.shift.acc)[0]? = some p → s.silent = false →
            t.Offered (held = true) 5 (encSummary false p)))

/-- A closed hire adds to the accumulators by its outcome (R155, Table 9-3): every one its use, a settled or unpaid one its money, an
unpaid one what was not paid; each total stays at its top. The parts of a summary (R161, Table 9-5): the counts saturate at 255, the
distances are whole metres by the image's K, or unknown without an image, and the sums stand as accumulated. -/
def Obligations.ClosedHireIsAccumulatedAndSummarised : Prop :=
  (∀ (a : Accum) (r : HireRecord) (o : HireOutcome),
     (a.addHire r o).settled = (if o = .settled then min 65535 (a.settled + 1) else a.settled)
     ∧ (a.addHire r o).unpaid = (if o = .unpaid then min 65535 (a.unpaid + 1) else a.unpaid)
     ∧ (a.addHire r o).cancelled = (if o = .cancelled then min 65535 (a.cancelled + 1) else a.cancelled)
     ∧ (a.addHire r o).paidPulses = min 4294967295 (a.paidPulses + r.paidPulses)
     ∧ (a.addHire r o).hiredSeconds = min 4294967295 (a.hiredSeconds + r.hiredTenths / 10)
     ∧ (a.addHire r o).conflicts = min 65535 (a.conflicts + if r.conflict then 1 else 0)
     ∧ (a.addHire r o).metered = (if o = .cancelled then a.metered
         else min 4294967295 (a.metered + (r.flagFall + r.distCharge + r.timeCharge + r.rounding.getD 0 + r.topUp.getD 0)))
     ∧ (a.addHire r o).extras = (if o = .cancelled then a.extras else min 4294967295 (a.extras + r.extrasSum))
     ∧ (a.addHire r o).tips = (if o = .cancelled then a.tips else min 4294967295 (a.tips + r.tip.getD 0))
     ∧ (a.addHire r o).unpaidTotal = (if o = .unpaid then min 4294967295 (a.unpaidTotal + r.unpaid.getD 0) else a.unpaidTotal)
     ∧ (a.cash ≤ 4294967295 → (a.addHire r o).cash = (if o = .cancelled then a.cash
         else min 4294967295 (a.cash + (r.tenders.map fun t => match t with | .cash x _ _ => x | _ => 0).sum)))
     ∧ (a.card ≤ 4294967295 → (a.addHire r o).card = (if o = .cancelled then a.card
         else min 4294967295 (a.card + (r.tenders.map fun t => match t with | .card x _ _ _ _ => x | _ => 0).sum)))
     ∧ (a.account ≤ 4294967295 → (a.addHire r o).account = (if o = .cancelled then a.account
         else min 4294967295 (a.account + (r.tenders.map fun t => match t with | .account x _ _ => x | _ => 0).sum)))
     ∧ (a.addHire r o).totalPulses = a.totalPulses ∧ (a.addHire r o).warmStarts = a.warmStarts
     ∧ (a.addHire r o).faultSeconds = a.faultSeconds ∧ (a.addHire r o).distress = a.distress)
  ∧ (∀ (s : State) (n : Nat) (lost : Bool) (a : Accum),
       ∃ p0 p1 p2 p3, s.summaryParts n lost a = [p0, p1, p2, p3]
         ∧ p0 = .part0 n (min 255 a.settled) (min 255 a.cancelled) (min 255 a.unpaid) (min 255 a.warmStarts) lost
             (decide (0 < a.faultSeconds)) (decide (0 < a.conflicts)) s.pay.reversals.length a.metered
         ∧ (∀ im, s.image = some im → p1 = .part1 (some (min 16777214 (a.totalPulses * 1000 / im.k))) a.extras a.tips
             ∧ p2 = .part2 (some (min 16777214 (a.paidPulses * 1000 / im.k))) a.cash a.card)
         ∧ (s.image = none → p1 = .part1 none a.extras a.tips ∧ p2 = .part2 none a.cash a.card)
         ∧ p3 = .part3 (min 16777215 a.hiredSeconds) a.account a.unpaidTotal)

/-- Opening, closing and forcing at station 0 (R150, R158, R166, R97, R98). FUNCTION 1 with a driver number of 1 to 9999 opens the next
shift while OFF_SHIFT and offers SHIFT_OPEN. CLOSE is refused for the first of its causes, otherwise it calls the seats that are
ON_SHIFT and present. FUNCTION 8 calls the seats of an abandoned close again. In LOW no key is taken. That an open shift is shown before a
wrong driver number (log entry 43), and the first of the four causes of CLOSE in the order R158 names them (log entry 55), are the model's
choices. -/
def Obligations.StationZeroOpensAndCallsTheClose : Prop :=
  ∀ s : State, s.supply.running = true → s.addr = 0 → s.Quiet → s.console.keys = .idle →
    (s.supply.state ≠ .low → ∀ say : Message → State,
        say = (fun m => State.signUpdate { s with console := { s.console.ended with message := some m } }) →
      (∀ driver,
        (s.shift.state ≠ .offShift → exec (.shiftOpenKeyed driver) s = .next (say .shiftIsOpen))
        ∧ (s.shift.state = .offShift → driver = 0 ∨ 9999 < driver → exec (.shiftOpenKeyed driver) s = .next (say .entryInvalid))
        ∧ (s.shift.state = .offShift → 1 ≤ driver → driver ≤ 9999 → ∀ n, n = (if 65535 ≤ s.shift.number then 1 else s.shift.number + 1) →
          ∃ t, exec (.shiftOpenKeyed driver) s = .next t ∧ t.shift.state = .onShift ∧ t.shift.number = n
            ∧ t.shift.driver = some driver ∧ t.shift.openTime = some s.clock.seconds ∧ t.shift.lost = false ∧ t.shift.coldMark = false
            ∧ t.shift.acc = { Accum.zero with
                lampFault := (s.sign.lamps.map fun l => !(l.vacant && l.hired && l.numeral && l.distress)).getD false
                signSilent := s.sign.signSilent }
            ∧ t.hire.nextNo = 1 ∧ t.hire.slot = s.hire.slot ∧ t.console.keys = .idle
            ∧ (s.silent = false → t.Offered (.opened n driver false ∈ t.shift.held) 5 (encShiftFrame (.opened n driver false)))))
      ∧ (∀ cause,
          [ (decide (s.shift.state ≠ .onShift), CloseRefusal.noShift),
            (decide (s.hire.slot ≠ .free ∨ s.pay.session ≠ .none), .slotBusy), (s.silent, .linkSilent),
            (decide (.vehicleReport ∈ s.print.jobs ∨ .lastReport ∈ s.print.jobs ∨ s.close.reportHeld = true), .reportPending)
          ].find? (fun c => c.1) = some (true, cause) → exec .closeKey s = .next (say (.closeRefused cause)))
      ∧ (s.shift.state = .onShift → s.hire.slot = .free → s.pay.session = .none → s.silent = false →
          .vehicleReport ∉ s.print.jobs → .lastReport ∉ s.print.jobs → s.close.reportHeld = false →
        ∃ t, exec .closeKey s = .next t ∧ t.shift.state = .closing ∧ t.shift.acc = s.shift.acc
          ∧ t.close.state = .collecting ∧ t.close.number = s.shift.number ∧ t.close.driver = s.shift.driver ∧ t.close.forced = false
          ∧ t.close.collect = none
          ∧ (∀ (a : Addr) (called : Bool), called = (a == 0 || ((s.peer.rows.get a).present
                && ((s.peer.rows.get a).beacon.map fun b => b.shiftState == .onShift).getD false)) →
              t.close.rows.get a = ({ expected := called, st := if called then .waiting else .notExpected
                                      parts := ⟨none, none, none, none⟩, late := (s.close.rows.get a).late } : CloseRow))
          ∧ t.Offered (.call s.shift.number ∈ t.shift.held) 5 (encShiftFrame (.call s.shift.number)))
      ∧ (s.close.state = .abandoned → s.close.number = s.shift.number → s.shift.state = .onShift → s.hire.slot = .free →
          s.pay.session = .none → s.silent = false →
        ∃ t, exec .forcedClose s = .next t ∧ t.shift.state = .closing ∧ t.shift.acc = s.shift.acc
          ∧ t.close.state = .collecting ∧ t.close.number = s.shift.number ∧ t.close.forced = true ∧ t.close.collect = none
          ∧ t.close.rows.get 0 = s.close.rows.get 0
          ∧ (∀ a : Addr, a ≠ 0 → t.close.rows.get a = if (s.close.rows.get a).expected
              then { s.close.rows.get a with st := .waiting, parts := ⟨none, none, none, none⟩ } else s.close.rows.get a)
          ∧ t.Offered (.call s.shift.number ∈ t.shift.held) 5 (encShiftFrame (.call s.shift.number)))
      ∧ (s.close.state ≠ .abandoned ∨ s.close.number ≠ s.shift.number ∨ s.shift.state ≠ .onShift ∨ s.hire.slot ≠ .free
          ∨ s.pay.session ≠ .none ∨ s.silent = true →
        exec .forcedClose s = .next (say .forcedUnavailable)))
    ∧ (s.supply.state = .low → ∀ driver c, c = .shiftOpenKeyed driver ∨ c = .closeKey ∨ c = .forcedClose →
        exec c s = .next s.signUpdate)

/-- The close table (R162 to R164, R166). A summary part from an expected seat is stored; with all four a WAITING row is COMPLETE, and
when every expected row is COMPLETE, or ABSENT in a forced close, the close is DONE. A SHIFT_REFUSE abandons an unforced close with its
row REFUSED, and in a forced one makes the row ABSENT. The collect time's end makes WAITING rows INCOMPLETE and abandons an unforced
close; in a forced one every expected row that is not COMPLETE is ABSENT and the close is DONE. A part or refusal that no row waits for
changes nothing, as a part 0 with another shift number does; a seat ignores them all (R149). That a refusal in a forced close leaves the
close COLLECTING, with no test for completion, is the model's choice (log entry 23). A LATE summary is collected in its row (R167): a
part 0 of a shift not being collected starts one, further parts join it, and with all four it is complete and a slip is offered, or held
while the job list is full, marked where the report of that shift already showed the row COMPLETE. Parts 1 to 3 with none being
collected change nothing (log entry 27). -/
def Obligations.CloseTableAndLateSummariesAreCollected : Prop :=
  (∀ s : State, s.supply.running = true → s.Quiet →
   (s.addr ≠ 0 → ∀ (a : Addr) (p : SummaryPart) reason n c, s.HearsFrom a →
     c = .shiftSummary a p ∨ c = .lateSummaryPart a p ∨ c = .shiftRefuse a reason n → exec c s = .next s.onlyHeard)
   ∧ (s.addr = 0 →
     let settled (rows : Quad CloseRow) : Prop :=
       ∀ a, (rows.get a).expected = true → (rows.get a).st = .complete ∨ (s.close.forced = true ∧ (rows.get a).st = .absent)
     (∀ (a : Addr) (p : SummaryPart) (r r' : CloseRow) (rows : Quad CloseRow), s.HearsFrom a → r = s.close.rows.get a →
         s.close.state = .collecting → r.expected = true → r.st = .waiting ∨ r.st = .incomplete →
         (∀ n, partNumber p = some n → n = s.close.number) →
         r' = { r with parts := r.parts.set (partPlace p) (some p)
                       st := if (∀ i, ((r.parts.set (partPlace p) (some p)).get i).isSome = true) ∧ r.st = .waiting then .complete
                         else r.st } →
         rows = s.close.rows.set a r' →
       (¬ settled rows → ∃ t, exec (.shiftSummary a p) s = .next t ∧ ({ s with close := { s.close with rows := rows } } : State).Kept t)
       ∧ (settled rows → ∃ t, exec (.shiftSummary a p) s = .next t ∧ s.ClosedInDone t rows))
     ∧ (∀ (a : Addr) (p : SummaryPart), s.HearsFrom a → s.close.state ≠ .collecting ∨ (s.close.rows.get a).expected = false
           ∨ (s.close.rows.get a).st = .complete ∨ (s.close.rows.get a).st = .absent
           ∨ (∃ n, partNumber p = some n ∧ n ≠ s.close.number) →
         exec (.shiftSummary a p) s = .next s.onlyHeard)
     ∧ (∀ (a : Addr) reason n, s.HearsFrom a → s.close.state = .collecting → (s.close.rows.get a).expected = true →
         (s.close.rows.get a).st = .waiting →
       (s.close.forced = true → ∃ t, exec (.shiftRefuse a reason n) s = .next t
         ∧ ({ s with close := { s.close with rows :=
             (s.close.rows.set a { s.close.rows.get a with st := .absent }) } } : State).Kept t)
       ∧ (s.close.forced = false → ∃ t, exec (.shiftRefuse a reason n) s = .next t
         ∧ s.ClosedInAbandon t (s.close.rows.set a { s.close.rows.get a with st := .refused reason })))
     ∧ (∀ (a : Addr) reason n, s.HearsFrom a → s.close.state ≠ .collecting ∨ (s.close.rows.get a).expected = false
           ∨ (s.close.rows.get a).st ≠ .waiting →
         exec (.shiftRefuse a reason n) s = .next s.onlyHeard)
     ∧ (s.close.collect ≠ none → s.close.state = .collecting →
       (s.close.forced = false → ∃ t, exec .collectTimeExpiry s = .next t ∧ s.ClosedInAbandon t (s.close.rows.map fun r =>
           if r.st = .waiting then { r with st := .incomplete } else r))
       ∧ (s.close.forced = true → ∃ t, exec .collectTimeExpiry s = .next t ∧ s.ClosedInDone t (s.close.rows.map fun r =>
           if r.expected = true ∧ r.st ≠ .complete then { r with st := .absent } else r)))
     ∧ (s.close.collect = none ∨ s.close.state ≠ .collecting → exec .collectTimeExpiry s = .next s.signUpdate)))
  ∧ (∀ (a : Addr) (p : SummaryPart) (s : State), s.supply.running = true → s.addr = 0 → s.HearsFrom a →
       ∀ (row : Option LateSummary → Quad CloseRow), row = (fun l => s.close.rows.set a { s.close.rows.get a with late := l }) →
       (∀ n, (s.close.rows.get a).late = none ∨ (∃ l, (s.close.rows.get a).late = some l ∧ l.complete = false ∧ l.number ≠ n) →
           partNumber p = some n →
         ∃ t, exec (.lateSummaryPart a p) s = .next t ∧ ({ s with close := { s.close with rows :=
             (row (some { number := n, parts := ⟨some p, none, none, none⟩, complete := false, reported := false })) } } : State).Kept t)
       ∧ ((s.close.rows.get a).late = none → partNumber p = none →
         ∃ t, exec (.lateSummaryPart a p) s = .next t ∧ s.Kept t)
       ∧ (∀ l parts, (s.close.rows.get a).late = some l → l.complete = false → partNumber p = none ∨ partNumber p = some l.number →
           parts = l.parts.set (partPlace p) (some p) →
         ((∃ i, parts.get i = none) → ∃ t, exec (.lateSummaryPart a p) s = .next t
           ∧ ({ s with close := { s.close with rows := row (some { l with parts := parts }) } } : State).Kept t)
         ∧ ((∀ i, parts.get i ≠ none) → ∀ rows, rows = row (some { l with
               parts := parts, complete := true
               reported := decide (s.close.state = .done ∧ s.close.number = l.number ∧ (s.close.rows.get a).st = .complete) }) →
           (s.print.jobs.length < 4 → ∃ t, exec (.lateSummaryPart a p) s = .next t
             ∧ ({ s with close := { s.close with rows := rows, slipsHeld := s.close.slipsHeld.erase a }
                         print := { s.print with jobs := s.print.jobs ++ [.lateSlip a] } } : State).Kept t)
           ∧ (4 ≤ s.print.jobs.length → ∃ t, exec (.lateSummaryPart a p) s = .next t ∧ t.close.rows = rows
             ∧ a ∈ t.close.slipsHeld ∧ t.print.jobs = s.print.jobs)))
       ∧ (∀ l, (s.close.rows.get a).late = some l → l.complete = true →
         ∃ t, exec (.lateSummaryPart a p) s = .next t ∧ s.Kept t))

/-! ### Console, displays and printer (chapter 10) -/

/-- The keys of station 0 (R171, R172, R177, Table 10-1). A key that opens a sequence opens it and counts 10 s; digits are collected up to
the sequence's count; a completed sequence, or a key that is one alone, is its row of the table (log entry 17); an ENTER with too few
digits, or after EXTRA with an amount and no code, shows ENTRY INVALID, but for FUNCTION 9, which only returns to idle. CLEAR and the 10 s
abandon the sequence. A digit beyond the largest count and a key that the sequence does not allow are ignored. In LOW no key is taken.
That an ignored key starts the 10 s again, that a 0 or 9 after EXTRA is an amount digit without a code, and that ENTER after FUNCTION
without its digit is ignored, are the model's choices (log entry 49). -/
def Obligations.KeySequencesCollectAndComplete : Prop :=
  ∀ s : State, s.supply.running = true → s.addr = 0 → s.Quiet →
    ∀ next : Console → Host.Outcome State Fault Refusal, next = (fun c => .next (State.signUpdate { s with console := c })) →
    ∀ open' : KeySeq → Console, open' = (fun k => { s.console with keys := k, keyTimer := some 100000, message := none }) →
    let keys := s.console.keys
    (s.console.keyTimer ≠ none → exec .keySequenceTimeout s = next { s.console with keys := .idle, keyTimer := none })
    ∧ (s.console.keyTimer = none → exec .keySequenceTimeout s = next s.console)
    ∧ (s.supply.state = .low → ∀ k d, exec (.keyPress k) s = next s.console ∧ exec .clear s = next s.console
        ∧ exec (.select d) s = next s.console)
    ∧ (s.supply.state ≠ .low →
      (∀ c, c = .clear ∨ c = .keyPress .clear →
        exec c s = next { s.console with keys := .idle, keyTimer := none, message := none, page := false })
      ∧ (keys = .idle ∨ keys = .select → ∀ d : Fin 10,
        (∀ a : Addr, d.val = a.val → exec (.select d) s
            = next { s.console with keys := .idle, keyTimer := none, message := none, page := false, selected := a })
        ∧ (4 ≤ d.val → exec (.select d) s = next { open' .select with page := false }))
      ∧ (keys = .idle →
        (∀ k seq, (k = .select ∧ seq = .select) ∨ (k = .hireS ∧ seq = .hire .shared none) ∨ (k = .hireX ∧ seq = .hire .exclusive none)
            ∨ (k = .extra ∧ seq = .extra none []) ∨ (k = .pay ∧ seq = .pay) ∨ (k = .cash ∧ seq = .cash [])
            ∨ (k = .account ∧ seq = .account []) ∨ (k = .print ∧ seq = .print []) ∨ (k = .function ∧ seq = .function none []) →
          exec (.keyPress k) s = next { open' seq with page := false })
        ∧ (∀ k c, (k = .stop ∧ c = .commandSequence .stop) ∨ (k = .resume ∧ c = .commandSequence .resume)
            ∨ (k = .cancel ∧ c = .commandSequence .cancel) ∨ (k = .unpaid ∧ c = .commandSequence .unpaid)
            ∨ (k = .card ∧ c = .commandSequence .payCard) ∨ (k = .talk ∧ c = .talkKey) ∨ (k = .announce ∧ c = .announcePress)
            ∨ (k = .close ∧ c = .closeKey) →
          exec (.keyPress k) s = exec c s))
      ∧ (∀ (d : Fin 10) seq, (∃ kind, keys = .hire kind none ∧ seq = .hire kind (some d.val))
            ∨ (keys = .extra none [] ∧ 1 ≤ d.val ∧ d.val ≤ 8 ∧ seq = .extra (some d.val) [])
            ∨ (keys = .extra none [] ∧ (d.val = 0 ∨ d.val = 9) ∧ seq = .extra none [d.val])
            ∨ (∃ ds, keys = .extra none ds ∧ ds ≠ [] ∧ ds.length < 6 ∧ seq = .extra none (ds ++ [d.val]))
            ∨ (∃ c ds, keys = .extra (some c) ds ∧ ds.length < 6 ∧ seq = .extra (some c) (ds ++ [d.val]))
            ∨ (∃ ds, keys = .cash ds ∧ ds.length < 6 ∧ seq = .cash (ds ++ [d.val]))
            ∨ (∃ ds, keys = .account ds ∧ ds.length < 8 ∧ seq = .account (ds ++ [d.val]))
            ∨ (∃ ds, keys = .print ds ∧ ds.length < 4 ∧ seq = .print (ds ++ [d.val]))
            ∨ (∃ ds, keys = .function none ds ∧ d.val ∈ [1, 2, 3, 4, 5, 8, 9] ∧ seq = .function (some d.val) [])
            ∨ (∃ f ds, keys = .function (some f) ds ∧ ((f = 1 ∧ ds.length < 4) ∨ (f = 2 ∧ ds.length < 12) ∨ (f = 9 ∧ ds.length < 4))
                ∧ seq = .function (some f) (ds ++ [d.val])) →
          exec (.keyPress (.digit d)) s = next (open' seq))
      ∧ (∀ c, (∃ kind p, keys = .hire kind (some p) ∧ c = .commandSequence (.hire kind p))
            ∨ (keys = .extra none [] ∧ c = .commandSequence .extraRemove)
            ∨ (∃ code ds, keys = .extra (some code) ds ∧ c = .commandSequence (.extra code (digitsValue ds)))
            ∨ (∃ ds, keys = .cash ds ∧ ds ≠ [] ∧ c = .commandSequence (.payCash (digitsValue ds)))
            ∨ (∃ ds, keys = .account ds ∧ ds ≠ [] ∧ c = .commandSequence (.payAccount ds.length (digitsValue ds)))
            ∨ (∃ ds, keys = .print ds ∧ c = .print (digitsValue ds))
            ∨ (∃ ds, keys = .function (some 1) ds ∧ ds ≠ [] ∧ c = .shiftOpenKeyed (digitsValue ds))
            ∨ (∃ y mo d h mi, keys = .function (some 2) (y ++ mo ++ d ++ h ++ mi) ∧ y.length = 4 ∧ mo.length = 2 ∧ d.length = 2
                ∧ h.length = 2 ∧ mi.length = 2
                ∧ c = .clockSetting (digitsValue y) (digitsValue mo) (digitsValue d) (digitsValue h) (digitsValue mi))
            ∨ (∃ ds, keys = .function (some 3) ds ∧ c = .lampTest) ∨ (∃ ds, keys = .function (some 4) ds ∧ c = .servicePage)
            ∨ (∃ ds, keys = .function (some 5) ds ∧ c = .lastReport) ∨ (∃ ds, keys = .function (some 8) ds ∧ c = .forcedClose)
            ∨ (∃ d0 d1 d2 d3 : Fin 10, keys = .function (some 9) [d0.val, d1.val, d2.val, d3.val] ∧ c = .distressClear d0 d1 d2 d3) →
          exec (.keyPress .enter) s = exec c s)
      ∧ (keys = .pay → exec (.keyPress .cancel) s = exec (.commandSequence .cardCancel) s)
      ∧ (∀ ds, keys = .function none ds → exec (.keyPress .enter) s = next (open' (.function none ds)))
      ∧ (∀ k : Key, (keys ≠ .idle ∧ k ≠ .clear ∧ k ≠ .enter ∧ (∀ d, k ≠ .digit d) ∧ (keys = .pay → k ≠ .cancel))
            ∨ ((keys = .select ∨ keys = .pay) ∧ k = .enter)
            ∨ (∃ d : Fin 10, k = .digit d ∧ (keys = .pay ∨ (∃ kind p, keys = .hire kind (some p))
              ∨ (∃ c ds, keys = .extra c ds ∧ 6 ≤ ds.length) ∨ (∃ ds, keys = .cash ds ∧ 6 ≤ ds.length)
              ∨ (∃ ds, keys = .account ds ∧ 8 ≤ ds.length) ∨ (∃ ds, keys = .print ds ∧ 4 ≤ ds.length)
              ∨ (∃ ds, keys = .function none ds ∧ d.val ∉ [1, 2, 3, 4, 5, 8, 9])
              ∨ (∃ f ds, keys = .function (some f) ds ∧ (f ∈ [3, 4, 5, 8] ∨ ((f = 1 ∨ f = 9) ∧ 4 ≤ ds.length) ∨ (f = 2 ∧ 12 ≤ ds.length))))) →
          exec (.keyPress k) s = next (open' keys))
      ∧ (keys = .idle → ∀ k : Key, k = .enter ∨ (∃ d, k = .digit d) →
          exec (.keyPress k) s = next { s.console with message := none })
      ∧ ((∃ kind, keys = .hire kind none) ∨ (∃ ds, keys = .extra none ds ∧ ds ≠ []) ∨ keys = .cash [] ∨ keys = .account [] ∨ keys = .function (some 1) []
            ∨ (∃ ds, keys = .function (some 2) ds ∧ ds.length < 12) →
          exec (.keyPress .enter) s
            = next { s.console with keys := .idle, keyTimer := none, message := some .entryInvalid, page := false })
      ∧ (∀ ds, keys = .function (some 9) ds → ds.length < 4 → exec (.keyPress .enter) s
            = next { s.console with keys := .idle, keyTimer := none, message := none, page := false }))

/-- Pending commands (R173, R174, R176, R115, R5). A command for the selected station takes the next sequence number and a pending
entry, and for a seat a COMMAND frame: where the queue refuses it the entry goes and LINK BUSY is shown. With one pending or deferred for
the station WAIT is shown. A pending local command falls due for station 0's own blocks. The reply that pairs with the entry, or its
limit, removes it and is shown; a refused or unanswered CONNECT ends its talk. With the entry gone the oldest deferred command is
formed; station 0's own end takes it at once (log entry 16). That a local command for station 0's own blocks is taken as a row of its own,
which falls due after the entry is made, is the model's choice (log entry 15). -/
def Obligations.CommandsPendUntilAnsweredAndDefer : Prop :=
  ∀ s : State, s.supply.running = true → s.addr = 0 → s.Quiet →
    ∀ entry : Cmd → PendCmd, entry = (fun cmd => { cmd := cmd, seq := s.console.nextSeq, formed := s.now, claiming := false
                                                   handed := false, limit := none }) →
    (∀ (cmd : Cmd) (a : Addr) (c0 : Console), s.supply.state ≠ .low → s.console.keys = .idle → s.console.selected = a →
        cmd ≠ .connect → cmd ≠ .disconnect → cmd ≠ .listen → cmd ≠ .listenEnd →
        c0 = { s.console with keys := .idle, keyTimer := none, message := none, page := false } →
      (s.console.cmds.get a ≠ none ∨ s.console.deferred.get a ≠ [] →
        exec (.commandSequence cmd) s = .next (State.signUpdate { s with console := { c0 with message := some (.wait a) } }))
      ∧ (s.console.cmds.get a = none → s.console.deferred.get a = [] →
        (a = 0 → exec (.commandSequence cmd) s = .next (State.signUpdate { s with console := { c0 with
          cmds := s.console.cmds.set 0 (some (entry cmd)), nextSeq := (s.console.nextSeq + 1) % 16 } }))
        ∧ (∀ l, a ≠ 0 → s.link.offer s.now 2 (encCommand a s.console.nextSeq cmd) (.command a s.console.nextSeq) = some l →
          exec (.commandSequence cmd) s = .next (State.signUpdate { s with link := l, console := { c0 with
            cmds := s.console.cmds.set a (some (entry cmd)), nextSeq := (s.console.nextSeq + 1) % 16 } }))
        ∧ (a ≠ 0 → s.link.offer s.now 2 (encCommand a s.console.nextSeq cmd) (.command a s.console.nextSeq) = none →
          exec (.commandSequence cmd) s = .next (State.signUpdate { s with console := { c0 with
            nextSeq := (s.console.nextSeq + 1) % 16, message := some (.linkBusy a) } }))))
    ∧ (∀ p, s.console.cmds.get 0 = some p → p.handed = false → Machine.Cmd.localInstr p.cmd p.seq ∈ s.dueEvents)
    ∧ (∀ (a target : Addr) seq r, s.HearsFrom a → ∀ l, l = { s.link with fairness := 0, pause := none } →
      (∀ p, s.console.cmds.get a = some p → p.seq = seq → target = 0 →
        ∀ i, i = (if p.cmd = .connect ∧ r ≠ .done ∧ s.intercom.talk.partner = some a
          then { s.intercom with talk := .none, talkTimer := none } else s.intercom) →
        exec (.replyReceived a target seq r) s = .next (State.signUpdate { s with link := l, intercom := i
                                                                                  console := { s.console with
            cmds := s.console.cmds.set a none, lastReply := s.console.lastReply.set a (some (.reply r)) } }))
      ∧ (target ≠ 0 ∨ s.console.cmds.get a = none ∨ (∃ p, s.console.cmds.get a = some p ∧ p.seq ≠ seq) →
        exec (.replyReceived a target seq r) s = .next (State.signUpdate { s with link := l })))
    ∧ (∀ (a : Addr) p, s.console.cmds.get a = some p →
      ∀ c, c = { s.console with cmds := s.console.cmds.set a none, lastReply := s.console.lastReply.set a (some .noAnswer) } →
      (p.limit ≠ none → p.cmd ≠ .connect ∨ s.intercom.talk.partner ≠ some a →
        exec (.replyLimitExpiry a) s = .next (State.signUpdate { s with console := c }))
      ∧ (p.limit ≠ none → p.cmd = .connect → s.intercom.talk.partner = some a →
        ∀ apart : Intercom, apart = { s.intercom with talk := .none, talkTimer := none } →
        (a ≠ 0 → s.console.deferred.get a = [] →
          ∃ t, exec (.replyLimitExpiry a) s = .next t ∧ t.intercom = apart ∧ t.console.lastReply = c.lastReply
            ∧ t.console.nextSeq = (s.console.nextSeq + 1) % 16 ∧ s.Commanded t a .disconnect s.console.nextSeq)
        ∧ (a = 0 → s.console.deferred.get a = [] → exec (.replyLimitExpiry a) s = .next (State.signUpdate { s with
            intercom := if s.intercom.endState = .idle ∨ s.intercom.endState = .calling then apart
              else { apart with endState := .idle, callTimer := none, endTimer := none }
            console := { c with nextSeq := (s.console.nextSeq + 1) % 16
                                lastReply := s.console.lastReply.set 0 (some (.reply .done)) } }))
        ∧ (s.console.deferred.get a ≠ [] → exec (.replyLimitExpiry a) s = .next (State.signUpdate { s with
            intercom := apart
            console := if (s.console.deferred.get a).length < 2
              then { c with deferred := s.console.deferred.set a (s.console.deferred.get a ++ [.disconnect]) } else c })))
      ∧ (p.limit = none → exec (.replyLimitExpiry a) s = .next s.signUpdate))
    ∧ (∀ (a : Addr) cmd rest i c0, a ≠ 0 → s.console.cmds.get a = none → s.console.deferred.get a = cmd :: rest → cmd ≠ .connect →
        i = (if cmd = .listen then { s.intercom with announced := s.intercom.announced ++ [a] } else s.intercom) →
        c0 = { s.console with deferred := s.console.deferred.set a rest, nextSeq := (s.console.nextSeq + 1) % 16 } →
      (∀ l, s.link.offer s.now 2 (encCommand a s.console.nextSeq cmd) (.command a s.console.nextSeq) = some l →
        exec (.deferredCommandOffer a) s = .next (State.signUpdate { s with link := l, intercom := i, console := { c0 with
          cmds := s.console.cmds.set a (some (entry cmd)) } }))
      ∧ (s.link.offer s.now 2 (encCommand a s.console.nextSeq cmd) (.command a s.console.nextSeq) = none →
        exec (.deferredCommandOffer a) s = .next (State.signUpdate { s with intercom := i, console := { c0 with
          message := some (.linkBusy a) } })))
    ∧ (∀ cmd rest i idle, s.console.cmds.get 0 = none → s.console.deferred.get 0 = cmd :: rest →
        idle = { s.intercom with endState := .idle, callTimer := none, endTimer := none } →
        (cmd = .disconnect ∧ i = (if s.intercom.endState = .idle ∨ s.intercom.endState = .calling then s.intercom else idle))
          ∨ (cmd = .listenEnd ∧ i = (if s.intercom.endState = .listen ∨ s.intercom.endState = .held .listen then idle else s.intercom))
          ∨ (cmd = .listen ∧ s.intercom.endState = .held .connected ∧ i = { s.intercom with
              endState := .held .listen, endTimer := some 1200000, announced := s.intercom.announced ++ [0] })
          ∨ (cmd = .listen ∧ (s.intercom.endState = .listen ∨ s.intercom.endState = .held .listen)
            ∧ i = { s.intercom with announced := s.intercom.announced ++ [0] })
          ∨ (cmd = .listen ∧ (s.intercom.endState = .idle ∨ s.intercom.endState = .calling ∨ s.intercom.endState = .connected)
            ∧ i = { s.intercom with
                endState := if s.intercom.prompt then .held .listen else .listen, callTimer := none, endTimer := some 1200000
                announced := s.intercom.announced ++ [0]
                talk := if s.intercom.prompt = true ∧ s.intercom.talk = .talk 0 then .held 0 else s.intercom.talk }) →
        exec (.deferredCommandOffer 0) s = .next (State.signUpdate { s with
          intercom := i
          console := { s.console with
            deferred := s.console.deferred.set 0 rest, cmds := s.console.cmds.set 0 none
            nextSeq := (s.console.nextSeq + 1) % 16, lastReply := s.console.lastReply.set 0 (some (.reply .done)) } }))
    ∧ (∀ a : Addr, s.console.cmds.get a ≠ none ∨ s.console.deferred.get a = [] →
        exec (.deferredCommandOffer a) s = .next s.signUpdate)

/-- The service keys (R60, R177, R180). FUNCTION 2 sets the clock while OFF_SHIFT with a date that exists in 2000 to 2099, and the clock
then reads that date and minute; FUNCTION 4 shows the service page; FUNCTION 5 and PRINT put a job at the end of the list while it
holds fewer than 4. What is refused shows its message. The driver display is
blank in LOW, of a stopped station and of a seat (R179, R189); it shows the service page, or the selected station, the message, with the
clock after it was set, the open sequence with its digits, those of FUNCTION 9 masked (R171), the talk and the callers, the lamps or
SIGN SILENT, the dot of a set latch, the rows of the close, the outcome and the change. That the shift state is tested before the fields
of FUNCTION 2 (log entry 43), a seat's due read past its override (log entry 45), that an open FUNCTION shows its prompt and the digits
after the function's own (log entry 49), and that the clock shown after its setting runs on until the next key (log entry 52) are the
model's choices. -/
def Obligations.ServiceKeysSetTheClockAndPrint : Prop :=
  (∀ s : State, (s.supply.running = false ∨ s.supply.state = .low ∨ s.addr ≠ 0 → s.driverDisplay = .blank)
    ∧ (s.supply.running = true → s.supply.state ≠ .low → s.addr = 0 →
      (s.console.page = true → ∃ p, s.driverDisplay = .page p ∧ p.identity = s.image.map (fun im => (im.number, im.edition))
        ∧ p.cause = s.supply.cause ∧ p.supply = s.supply.state ∧ p.module = s.card.moduleState ∧ p.reversals = s.pay.reversals
        ∧ p.last = s.shift.last
        ∧ ∀ a n e c, (a, n, e, c) ∈ p.seats ↔ a ≠ 0 ∧ ∃ b, (s.peer.rows.get a).beacon = some b ∧ n = b.tariffNo ∧ e = b.edition
            ∧ c = b.clockSet)
      ∧ (s.console.page = false → ∃ d, s.driverDisplay = .normal d ∧ d.message = s.console.message
        ∧ (s.console.message = some .clockShown → d.clock = some (⟨dateOf s.clock.seconds, s.clock.seconds / 60 % 1440, s.clock.seconds % 60⟩ : ClockShow))
        ∧ (s.console.message ≠ some .clockShown → d.clock = none)
        ∧ (s.console.keys = .idle → d.entry = none)
        ∧ (∀ ds, s.console.keys = .cash ds → d.entry = some { prompt := .cash, digits := ds.map some })
        ∧ (∀ ds, s.console.keys = .account ds → d.entry = some { prompt := .account, digits := ds.map some })
        ∧ (∀ ds, s.console.keys = .print ds → d.entry = some { prompt := .print, digits := ds.map some })
        ∧ (∀ c ds, s.console.keys = .extra (some c) ds → d.entry = some { prompt := .extra, digits := some c :: ds.map some })
        ∧ (∀ n ds, s.console.keys = .function (some n) ds → d.entry = some { prompt := .function,
                                                                             digits := ds.map fun x => if n = 9 then none else some x })
        ∧ d.talk = s.intercom.talk ∧ d.callers = s.intercom.queue.map (·.addr)
        ∧ d.signSilent = s.sign.signSilent ∧ d.lamps = (if s.sign.signSilent = true then none else s.sign.lamps)
        ∧ (d.dot = true ↔ s.distress.latch ≠ none)
        ∧ d.rows = [(s.close.rows.get 0).st, (s.close.rows.get 1).st, (s.close.rows.get 2).st, (s.close.rows.get 3).st]
        ∧ d.outcome = s.display.outcome ∧ d.change = s.display.change
        ∧ d.selected.addr = s.console.selected ∧ d.selected.last = s.console.lastReply.get s.console.selected
        ∧ d.selected.claiming = ((s.console.cmds.get s.console.selected).map (·.claiming)).getD false
        ∧ (s.console.selected = 0 → d.selected.absent = false ∧ d.selected.shiftState = s.shift.state
          ∧ d.selected.clockSet = s.clock.isSet ∧ d.selected.pulseFault = s.pulse.fault.isRaised
          ∧ (∀ h, s.hire.slot = .hired h → d.selected.hireState = .hired ∧ d.selected.kind = h.rc.kind
              ∧ d.selected.due = h.rc.running ∧ d.selected.level = h.rc.level ∧ d.selected.charging = h.rc.charging
              ∧ d.selected.privacy = h.rc.privacy)
          ∧ (∀ h due, s.hire.slot = .stopped h → h.rc.due = some due → d.selected.hireState = .stopped
              ∧ d.selected.due = due ∧ d.selected.figures = some h.figures)
          ∧ (s.hire.slot = .free → d.selected.hireState = .free ∧ d.selected.due = 0))
        ∧ (∀ r b, s.console.selected ≠ 0 → r = s.peer.rows.get s.console.selected → r.beacon = some b →
          d.selected.absent = !r.present ∧ d.selected.shiftState = b.shiftState ∧ d.selected.clockSet = b.clockSet
          ∧ d.selected.pulseFault = b.pulseFault ∧ d.selected.privacy = s.console.privacyInd.get s.console.selected
          ∧ d.selected.level = roleLevel b.role ∧ d.selected.charging = roleCharging b.role
          ∧ (∀ o, r.ovr = some o → d.selected.hireState = o.state ∧ ∀ due, o.due = some due → d.selected.due = due)
          ∧ (r.ovr = none → d.selected.hireState = b.hireState ∧ d.selected.due = roleDue b.role)))))
  ∧ (∀ s : State, s.supply.running = true → s.addr = 0 → s.Quiet → s.console.keys = .idle → s.supply.state ≠ .low →
    ∀ c0, c0 = { s.console with keys := .idle, keyTimer := none, message := none, page := false } →
    ∀ say : Message → State, say = (fun m => State.signUpdate { s with console := { c0 with message := some m } }) →
    exec .servicePage s = .next (State.signUpdate { s with console := { c0 with page := true } })
    ∧ (∀ job c, (c = .lastReport ∧ s.close.state = .done ∧ job = .lastReport)
          ∨ (∃ no, c = .print no ∧ job = .receipt s.console.selected no) →
        (s.print.jobs.length < 4 → exec c s = .next (State.signUpdate { s with
          console := c0, print := { s.print with jobs := s.print.jobs ++ [job] } }))
        ∧ (4 ≤ s.print.jobs.length → exec c s = .next (say .printFull)))
    ∧ (s.close.state ≠ .done → exec .lastReport s = .next (say .noReport))
    ∧ (∀ y mo d h mi,
        (s.shift.state = .offShift → clockEntryOk y mo d h mi = true →
          exec (.clockSetting y mo d h mi) s = .next (State.signUpdate { s with
            clock := { seconds := secondsOf y mo d h mi, phase := 0, isSet := true }
            console := { c0 with message := some .clockShown } }))
        ∧ (s.shift.state = .offShift → clockEntryOk y mo d h mi = false → exec (.clockSetting y mo d h mi) s = .next (say .entryInvalid))
        ∧ (s.shift.state ≠ .offShift → exec (.clockSetting y mo d h mi) s = .next (say .clockOffShiftOnly))))
  ∧ (∀ y mo d h mi, clockEntryOk y mo d h mi = true →
      dateOf (secondsOf y mo d h mi) = { year := y, month := mo, day := d } ∧ minuteOfDay (secondsOf y mo d h mi) = 60 * h + mi)
  ∧ dateOf 0 = { year := 2000, month := 1, day := 1 } ∧ dayOfWeek 0 = 6

/-- The print unit (R180 to R184). The oldest job becomes active with its builder; a receipt of a seat opens a transfer and offers its
query. The builder writes a report or slip line by line while 128 entries are free, the last line ended by CUT, and begins a receipt with
its heading, which names the station and the hire; a record that is there, station 0's own or a completed transfer, ends the heading and
is then written line by line, a seat's times to the minute (R199), each value that stands in the order of R184; one that is not is RECORD UNAVAILABLE. A slip that is written
whole releases its late summary (R167). The builder stops in LOW. The printer is given the next entry of a line that is ended or released,
a line leaves the queue with its ending entry, and the job leaves the list with its last. Paper that is out holds the printer, and its
return gives the line again. The characters of a line are free values, and the
division into lines, each item on a line of its own and the heading one line of two pieces of at most 23 and 24 entries, hence each FEED,
is the model's choice (both log entry 7). That the record of station 0's own receipt is read
when its job becomes active is the model's choice (log entry 57). -/
def Obligations.PrintUnitBuildsAndPrints : Prop :=
  (∀ (r : HireRecord) (d n due : Nat) (o : HireOutcome), r.paidDistance = some d → r.hiredSeconds = some n → r.due = some due →
    r.outcome = some o →
    r.receipt.lines = [(.paidDistance, [d]), (.hiredTime, [n]), (.flagFall, [r.flagFall]), (.distanceCharge, [r.distCharge]),
        (.timeCharge, [r.timeCharge])] ++ r.rounding.toList.map (fun x => (.rounding, [x])) ++ r.topUp.toList.map (fun x => (.topUp, [x]))
      ++ r.extras.map (fun e => (.extra, [e.1, e.2])) ++ [(.due, [due])] ++ r.tip.toList.map (fun x => (.tip, [x]))
      ++ r.tenders.map (fun t => match t with
        | .cash a tendered change => (.tenderCash, [a, tendered, change])
        | .card a _ scheme four auth => (.tenderCard, [a, scheme, four] ++ auth)
        | .account a digits number => (.tenderAccount, [a, digits, number]))
      ++ [(.outcome, [match o with | .settled => 1 | .unpaid => 2 | .cancelled => 3])]
      ++ r.unpaid.toList.map (fun x => (.unpaid, [x]))
      ++ (if r.capped then [] else [(.saving, [r.undiscounted - (r.distCharge + r.timeCharge)])])
      ++ (if r.conflict then [(.flagConflict, [])] else []) ++ (if r.powerGap then [(.flagPowerGap, [r.gapSeconds])] else [])
      ++ (if r.pulseFault then [(.flagPulseFault, [])] else []) ++ (if r.capped then [(.flagCapped, [])] else []))
  ∧ (∀ x last, (lineEntries x last).length ≤ 48 ∧ (lineEntries x last).getLast? = some (.control (if last then .cut else .feed))
      ∧ ∀ e ∈ (lineEntries x last).dropLast, e.ends = false)
  ∧ (∀ s : State, s.supply.running = true → s.addr = 0 → s.Quiet →
    ∀ next : Print → Host.Outcome State Fault Refusal, next = (fun p => .next (State.signUpdate { s with print := p })) →
    ∀ fresh : Option HireRecord → Builder, fresh = (fun r => { record := r, line := 0, headOpen := false, finished := false }) →
    (s.print.builder = none →
      (∀ no rest, s.print.jobs = .receipt 0 no :: rest → exec .printJobActive s = next { s.print with
          builder := some (fresh (s.hire.log.reverse.find? fun r => no == 0 || r.no == no)) })
      ∧ (∀ job rest, s.print.jobs = job :: rest → (job = .vehicleReport ∨ job = .lastReport ∨ ∃ a, job = .lateSlip a) →
          exec .printJobActive s = next { s.print with builder := some (fresh none) })
      ∧ (∀ (a : Addr) no rest, a ≠ 0 → s.print.jobs = .receipt a no :: rest →
        ∃ t held, exec .printJobActive s = .next t ∧ t.print.builder = some (fresh none)
          ∧ t.print.transfer = some { target := a, hireNo := no, m := none, parts := [none, none, none, none, none, none], requery := 0
                                      suspended := none, first := 0, queryHeld := held, limit := none
                                      st := if s.silent then .unavailable else .opened, gen := s.print.gen }
          ∧ (s.silent = false → t.Offered (held = true) 7 (encRecordQuery no a 0)))
      ∧ (s.print.jobs = [] → exec .printJobActive s = .next s.signUpdate))
    ∧ (∀ job rest b, s.print.jobs = job :: rest → s.print.builder = some b →
      (exec .printJobActive s = .next s.signUpdate)
      ∧ (b.finished = true ∨ s.supply.state = .low → exec .printBuild s = .next s.signUpdate)
      ∧ (b.finished = false → s.supply.state ≠ .low →
        (∀ lines, (job = .vehicleReport ∨ job = .lastReport) →
            lines = (if s.close.state = .done then s.reportLines else [(.noReport, [])]) →
          (512 < s.print.queue.length + 128 → exec .printBuild s = .next s.signUpdate)
          ∧ (∀ x, s.print.queue.length + 128 ≤ 512 → lines[b.line]? = some x →
            exec .printBuild s = next { s.print.write (lineEntries x (decide (lines.length ≤ b.line + 1))) with
              builder := some { b with line := b.line + 1, finished := decide (lines.length ≤ b.line + 1) } }))
        ∧ (∀ a l lines, job = .lateSlip a → (s.close.rows.get a).late = some l →
            lines = [(.slipHeading, [a.val, l.number])]
              ++ [(l.parts.s0, 0), (l.parts.s1, 1), (l.parts.s2, 2), (l.parts.s3, 3)].flatMap (fun x => match x.1 with
                | some p => [(PrintLabel.slipFields, [a.val, x.2] ++ partValues p)]
                | none => [])
              ++ (if l.reported then [(.slipAlreadyReported, [])] else []) →
          (∀ i p, l.parts.get i = some p → p.index = i.val) →
          (512 < s.print.queue.length + 128 → exec .printBuild s = .next s.signUpdate)
          ∧ (∀ x, s.print.queue.length + 128 ≤ 512 → lines[b.line]? = some x → ∀ last, last = decide (lines.length ≤ b.line + 1) →
            exec .printBuild s = .next (State.signUpdate { s with
              print := { s.print.write (lineEntries x last) with builder := some { b with line := b.line + 1, finished := last } }
              close := if last = true then { s.close with rows := s.close.rows.set a { s.close.rows.get a with late := none } }
                else s.close })))
        ∧ (∀ a no, job = .receipt a no →
          (∀ rc : Receipt, (a = 0 ∧ ∃ r, b.record = some r ∧ rc = r.receipt)
              ∨ (a ≠ 0 ∧ ∃ tr, s.print.transfer = some tr ∧ tr.st = .complete ∧ rc = (readForm tr.bytes).receipt tr.hireNo) →
            (b.headOpen = true → exec .printBuild s = next
              { s.print.write (itemEntries 24 (if a = 0 then .headingRest else .headingRestMinutes, rc.heading) ++ [.control .feed]) with
                builder := some { b with headOpen := false, line := 1 } })
            ∧ (b.headOpen = false → 1 ≤ b.line → 512 < s.print.queue.length + 128 → exec .printBuild s = .next s.signUpdate)
            ∧ (∀ x, b.headOpen = false → 1 ≤ b.line → s.print.queue.length + 128 ≤ 512 → rc.lines[b.line - 1]? = some x →
              exec .printBuild s = next { s.print.write (lineEntries x (decide (rc.lines.length ≤ b.line))) with
                builder := some { b with line := b.line + 1, finished := decide (rc.lines.length ≤ b.line) } }))
          ∧ ((a = 0 ∧ b.record = none) ∨ (a ≠ 0 ∧ ∃ tr, s.print.transfer = some tr ∧ tr.st = .unavailable) →
            b.headOpen = false → b.line = 1 → s.print.queue.length + 128 ≤ 512 →
            exec .printBuild s = next { s.print.write (lineEntries (.recordUnavailable, []) true) with
              builder := some { b with line := 2, finished := true } }))
        ∧ (∀ a no, job = .receipt a no → b.headOpen = false → b.line = 0 → s.print.queue.length + 128 ≤ 512 →
            exec .printBuild s = next { s.print.write (itemEntries 23 (.headingStart, [a.val, no])) with
              builder := some { b with headOpen := true } })
        ∧ (∀ a no tr, job = .receipt a no → a ≠ 0 → s.print.transfer = some tr → tr.st = .opened → b.headOpen = true →
            exec .printBuild s = .next s.signUpdate)
        ∧ (∀ a no tr, job = .receipt a no → a ≠ 0 → s.print.transfer = some tr → tr.st = .unavailable → b.headOpen = true →
            exec .printBuild s = next { s.print.write [.control .feed] with builder := some { b with headOpen := false, line := 1 } })))
    ∧ (s.print.flush ≠ none → exec .printLineFlush s = next { s.print with flush := none, released := true })
    ∧ (s.print.flush = none → exec .printLineFlush s = .next s.signUpdate)
    ∧ (∀ e, s.print.paperOut = false → s.supply.state ≠ .low → s.print.queue[s.print.given]? = some e →
        (s.print.released = true ∨ ∃ x ∈ s.print.queue.drop s.print.given, x.ends = true) →
      ∀ rest, rest = s.print.queue.drop (s.print.given + 1) →
      (e.ends = false → exec .printerReady s = .next (State.signUpdate { s with
        lines := { s.lines with printer := some e }, print := { s.print with given := s.print.given + 1 } }))
      ∧ (e.ends = true → rest ≠ [] ∨ (s.print.builder.map (·.finished)).getD false = false →
        exec .printerReady s = .next (State.signUpdate { s with
          lines := { s.lines with printer := some e }, print := { s.print with queue := rest, given := 0 } }))
      ∧ (e.ends = true → rest = [] → (s.print.builder.map (·.finished)).getD false = true →
        exec .printerReady s = .next (State.signUpdate { s with
          lines := { s.lines with printer := some e }
          print := { s.print with queue := [], given := 0, jobs := s.print.jobs.drop 1, builder := none, transfer := none } })))
    ∧ (s.print.paperOut = true ∨ s.supply.state = .low ∨ s.print.queue.length ≤ s.print.given →
        exec .printerReady s = .next s.signUpdate)
    ∧ exec .paperOut s = next { s.print with paperOut := true }
    ∧ exec .paperReturn s = next { s.print with paperOut := false, given := 0 })

/-- The transfer of a record (R185, R186). The answering seat forms the parts of the newest record with the queried number, or of the
newest of all for 0, and offers them from the queried first on; without such a record one part with m = 0. Station 0 stores what its
open transfer asks for, ends it as unavailable at m = 0 or at another m, and as complete with all parts there; at a gap or at its 200 ms
limit it asks again from the lowest missing part, at most twice. The limit that a part has restarted runs on at a gap. That an ignored
part does not fix the number of a query for 0 (log entry 58), and that parts are taken from the opening of the transfer on, before the
sent report of the query too (log entry 66), are the model's choices. -/
def Obligations.RecordTransferAsksAndAnswers : Prop :=
  (∀ r : HireRecord, 1 ≤ r.parts.length ∧ r.parts.length ≤ 6 ∧ ∀ p ∈ r.parts, 1 ≤ p.length ∧ p.length ≤ 9)
  ∧ (∀ (sender target : Addr) (no first : Nat) (s : State), s.supply.running = true → s.HearsFrom sender → s.Quiet →
      (sender = 0 → s.addr ≠ 0 → target = s.addr → s.silent = false →
        ∀ found, found = s.hire.log.reverse.find? (fun r => no == 0 || r.no == no) →
        (∀ r k p, found = some r → k = (if first < r.parts.length then first else 0) → r.parts[k]? = some p →
          ∃ t held, exec (.recordQuery sender no target first) s = .next t
            ∧ t.print.serve = some { hireNo := r.no, parts := r.parts, k := k, held := held, gen := s.print.gen }
            ∧ t.Offered (held = true) 7 (encRecordPart k r.parts.length r.no p))
        ∧ (found = none →
          ∃ t held, exec (.recordQuery sender no target first) s = .next t
            ∧ t.print.serve = some { hireNo := no, parts := [], k := 0, held := held, gen := s.print.gen }
            ∧ t.Offered (held = true) 7 (encRecordPart 0 0 no [])))
      ∧ (sender ≠ 0 ∨ s.addr = 0 ∨ target ≠ s.addr ∨ s.silent = true →
        exec (.recordQuery sender no target first) s
          = .next (State.signUpdate { s with link := { s.link with fairness := 0, pause := none } })))
  ∧ (∀ s : State, s.supply.running = true → s.addr = 0 → s.Quiet → ∀ tr : Transfer, s.print.transfer = some tr → tr.st = .opened →
      ∀ ended : TransferState → State, ended = (fun st => { s with print := { s.print with
        transfer := some { tr with st := st, limit := none, queryHeld := false } } }) →
      ∀ lowest : List (Option (List Byte)) → Nat, lowest = (fun ps => ps.findIdx Option.isNone) →
      (∀ (k m no : Nat) (data : List Byte), s.HearsFrom tr.target → tr.hireNo = no ∨ (tr.hireNo = 0 ∧ tr.m = none) →
        ∀ stored : Transfer, stored = { tr with hireNo := no, m := some m, parts := tr.parts.set k (some data), limit := some 2000
                                                suspended := if tr.suspended = some k then none else tr.suspended } →
        (m = 0 → ∃ t, exec (.recordPart tr.target k m no data) s = .next t ∧ t.print = (ended .unavailable).print)
        ∧ (1 ≤ m → m ≤ k ∨ 6 < m → ∃ t, exec (.recordPart tr.target k m no data) s = .next t ∧ t.print = s.print)
        ∧ (1 ≤ m → k < m → m ≤ 6 → (∃ m', tr.m = some m' ∧ m' ≠ m) →
          ∃ t, exec (.recordPart tr.target k m no data) s = .next t ∧ t.print = (ended .unavailable).print)
        ∧ (k < m → m ≤ 6 → tr.m = none ∨ tr.m = some m →
          ((∀ p ∈ stored.parts.take m, p ≠ none) → ∃ t, exec (.recordPart tr.target k m no data) s = .next t
            ∧ t.print = { s.print with transfer := some { stored with st := .complete, limit := none, queryHeld := false } })
          ∧ ((∃ p ∈ stored.parts.take m, p = none) → stored.suspended ≠ none ∨ k ≤ lowest stored.parts →
            ∃ t, exec (.recordPart tr.target k m no data) s = .next t ∧ t.print = { s.print with transfer := some stored })
          ∧ ((∃ p ∈ stored.parts.take m, p = none) → stored.suspended = none → lowest stored.parts < k → tr.requery < 2 →
            ∃ t held, exec (.recordPart tr.target k m no data) s = .next t
              ∧ t.print.transfer = some { stored with requery := tr.requery + 1, first := lowest stored.parts
                                                      suspended := some (lowest stored.parts), queryHeld := held, gen := s.print.gen }
              ∧ (s.silent = false → t.Offered (held = true) 7 (encRecordQuery no tr.target (lowest stored.parts))))
          ∧ ((∃ p ∈ stored.parts.take m, p = none) → stored.suspended = none → lowest stored.parts < k → 2 ≤ tr.requery →
            ∃ t, exec (.recordPart tr.target k m no data) s = .next t
              ∧ t.print = { s.print with transfer := some { stored with st := .unavailable, limit := none, queryHeld := false } })))
      ∧ (tr.limit ≠ none → tr.requery < 2 →
        ∃ t held, exec .partLimitExpiry s = .next t
          ∧ t.print.transfer = some { tr with requery := tr.requery + 1, first := lowest tr.parts, limit := none
                                              suspended := some (lowest tr.parts), queryHeld := held, gen := s.print.gen }
          ∧ (s.silent = false → t.Offered (held = true) 7 (encRecordQuery tr.hireNo tr.target (lowest tr.parts))))
      ∧ (tr.limit ≠ none → 2 ≤ tr.requery → exec .partLimitExpiry s = .next (ended .unavailable).signUpdate)
      ∧ (tr.limit = none → exec .partLimitExpiry s = .next s.signUpdate))

/-! ### Supply and start (chapter 11) -/

/-- The supply monitor and the stops (R187 to R191, R193). A count begins with its condition, runs on while it holds and is discarded
without it. Below 10.0 V for 20 ms the supply is LOW: an open key sequence is abandoned and the sign sent OFF; above 10.8 V for 200 ms it
is NORMAL again. Below 6.0 V the station stops with FAIL, and with the reset line with PIN, and nothing else of its state changes; a
hold that did not last leaves the update mark. A FAIL of a stopped station changes the supply state alone. A fall of the
backup input loses the domain while the station is stopped; that one while it runs changes nothing, not even at a stop that finds the
input still low (log entry 67), that what a cut event had written is not modelled, but for the update mark (log entry 14), and that the mark
is clear after every other stop (log entry 33), are the model's choices. -/
def Obligations.SupplyMonitorCountsAndStops : Prop :=
  (∀ p : Supply, p.recount = { p with
      low := if p.running = true ∧ p.state = .normal ∧ p.mv < 10000 then some (p.low.getD 200) else none
      normal := if p.running = true ∧ p.state = .low ∧ 10800 < p.mv then some (p.normal.getD 2000) else none
      fail := if p.state ≠ .fail ∧ p.mv < 6000 then some (p.fail.getD 1) else none
      start := if p.running = false ∧ p.resetLine = false ∧ 7000 ≤ p.mv then some (p.start.getD 500) else none })
  ∧ (∀ s : State, s.supply.running = true →
    (∀ mv, ∃ t, exec (.supplyLevelChange mv) s = .next t ∧ ({ s with supply := { s.supply with mv := mv }.recount } : State).Kept t)
    ∧ (s.supply.state = .normal → s.supply.low ≠ none →
      ∃ t, exec .supplyLow s = .next t
        ∧ ({ s with supply := { s.supply with state := .low, low := none }.recount
                    console := { s.console with keys := .idle, keyTimer := none } } : State).Kept t
        ∧ (s.addr = 0 → t.sign.control = .off ∧ t.sign.period = none ∧ t.sign.test = none
            ∧ (s.sign.wait = none → t.lines.sign = signMessage .off s.signMode.1 s.signMode.2 s.brightness)))
    ∧ (s.supply.state ≠ .normal ∨ s.supply.low = none → ∃ t, exec .supplyLow s = .next t ∧ s.Kept t)
    ∧ (s.supply.state = .low → s.supply.normal ≠ none →
      ∃ t, exec .supplyNormal s = .next t
        ∧ ({ s with supply := { s.supply with state := .normal, normal := none }.recount
                    print := { s.print with given := 0 } } : State).Kept t
        ∧ (s.addr = 0 → t.sign.control = .repeating))
    ∧ (s.supply.state ≠ .low ∨ s.supply.normal = none → ∃ t, exec .supplyNormal s = .next t ∧ s.Kept t)
    ∧ (∀ cut, s.supply.fail ≠ none → exec (.supplyFail cut) s = .next { s with supply :=
        { s.supply with state := .fail, running := false, stopCause := .fail, updateMark := cut }.recount })
    ∧ (∀ cut, s.supply.fail = none → exec (.supplyFail cut) s = .next s)
    ∧ exec .resetAsserted s = .next { s with supply :=
        { s.supply with resetLine := true, running := false, stopCause := .pin, updateMark := false }.recount }
    ∧ exec .backupLoss s = .next s)
  ∧ (∀ s : State, s.supply.running = false →
    (∀ mv, exec (.supplyLevelChange mv) s = .next { s with supply := { s.supply with mv := mv }.recount })
    ∧ (∀ cut, s.supply.fail ≠ none →
        exec (.supplyFail cut) s = .next { s with supply := { s.supply with state := .fail }.recount })
    ∧ (∀ cut, s.supply.fail = none → exec (.supplyFail cut) s = .next s)
    ∧ exec .resetAsserted s = .next { s with supply := { s.supply with resetLine := true }.recount }
    ∧ exec .backupLoss s = .next { s with supply := { s.supply with backupValid := false } })
  ∧ (∀ s : State, exec .resetReleased s = .next { s with supply := { s.supply with resetLine := false }.recount })

/-- A start that gets to its first slot (R192 to R197, R24, R25, R47, R57, R83, R84, R107, R121, R123, R147, R148, R169, R170, R179,
R186). It is cold where the backup flag is clear, the update mark set or the address another, and otherwise warm by the cause of the
stop. A cold start leaves the retained items at their cold values; a warm one keeps them: a HIRED hire notes its power gap, a claim is
gone, CLOSING is ON_SHIFT and the start is counted, a session sent continues in ENQUIRY. Every start reads the straps and the image
and begins the link, the peer table, the pulse unit, the console and the print unit afresh. Without the start condition for its 50 ms
nothing starts. A start that is cut leaves the supply below 6.0 V or the reset line asserted, so that the condition counts anew; cut
before it touches the domain it notes only the cause of its stop. Cut inside the domain, a cold initialisation leaves the backup flag clear,
and a restoration is completed by the hold, or leaves the update mark set where the hold does not last. How far a start gets is an
operand, by the model's choice (log entry 13), as are the rows of an empty peer table (log entry 12) and that a PAY whose bytes were still
leaving counts as sent (log entry 20). -/
def Obligations.StartClassifiesAndRestores : Prop :=
  ∀ (pins : StrapPins) (bytes : Option (List Byte)) (s : State),
    (s.supply.running = true ∨ s.supply.start ≠ some 0 → ∀ r, exec (.start pins bytes r) s = .next s)
    ∧ (s.supply.running = false → s.supply.start = some 0 →
      ∀ cold, cold = (s.supply.backupValid = false ∨ s.supply.updateMark = true ∨ s.supply.retainedAddr ≠ pins.addr) →
      ∀ cut : StopCause → Supply → Supply, cut = (fun c p => match c with
        | .fail => { p with stopCause := .fail, state := .fail, mv := min p.mv 5999, start := none }.recount
        | .pin => { p with stopCause := .pin, resetLine := true, start := none }.recount) →
      (∀ c, exec (.start pins bytes (.cutEarly c)) s = .next { s with supply := cut c s.supply })
      ∧ (∀ c short, cold → exec (.start pins bytes (.cutInDomain c short)) s
          = .next { s with supply := cut c { s.supply with backupValid := false } })
      ∧ (∀ c short, ¬ cold → ∃ t, exec (.start pins bytes (.cutInDomain c short)) s = .next t
          ∧ t.supply = cut c { s.supply with updateMark := short }
          ∧ t.hire.log = s.hire.log ∧ t.hire.nextNo = s.hire.nextNo ∧ t.clock = s.clock ∧ t.shift.number = s.shift.number
          ∧ t.shift.last = s.shift.last ∧ t.offers = []
          ∧ (short = false →
              t.shift.state = (if s.shift.state = .closing then .onShift else s.shift.state)
              ∧ t.shift.acc = (if s.shift.state = .offShift then s.shift.acc
                else { s.shift.acc with warmStarts := min 65535 (s.shift.acc.warmStarts + 1) })
              ∧ t.hire.slot = (match s.hire.slot with
                | .claiming _ => .free
                | .hired h => .hired { h with rc := { h.rc with
                    powerGap := true, gapSeconds := h.rc.gapSeconds + (s.clock.seconds - h.rc.lastSlot) } }
                | sl => sl))
          ∧ (short = true → t.shift.state = s.shift.state ∧ t.shift.acc = s.shift.acc ∧ t.hire.slot = s.hire.slot))
      ∧ (∃ t, exec (.start pins bytes .complete) s = .next t
        ∧ t.supply.running = true ∧ t.supply.state = (if 10800 < s.supply.mv then .normal else .low)
        ∧ t.straps = { addr := pins.addr, capacity := if pins.capacity.val ≤ 4 then pins.capacity.val else 0
                       buttons := pins.buttons, card := pins.card }
        ∧ t.image = validateImage bytes
        ∧ t.link.fairness = 0 ∧ t.link.clash = false ∧ t.link.synced = false ∧ t.link.pause = none ∧ t.link.repl = none
        ∧ t.peer.rows = ⟨.empty, .empty, .empty, .empty⟩ ∧ t.peer.period = some (600 * pins.addr.val)
        ∧ t.pulse = { raw := 0, ring := List.replicate 20 0, fault := .clear 0, seen := false, slot := some 1000 }
        ∧ t.console.keys = .idle ∧ t.console.selected = 0 ∧ t.console.cmds = ⟨none, none, none, none⟩ ∧ t.console.nextSeq = 0
        ∧ t.print.jobs = [] ∧ t.print.queue = [] ∧ t.print.transfer = none ∧ t.close.state = .idle
        ∧ t.card.moduleState = (if pins.card then .unknown else .notFitted)
        ∧ (pins.addr = 0 → t.distress.inhibit = some 30000 ∧ (t.distress.latch ≠ none → t.distress.period = some 2500))
        ∧ (pins.addr ≠ 0 → t.intercom.withdrawDue = true)
        ∧ (cold → t.supply.cause = .cold ∧ t.hire.slot = .free ∧ t.hire.log = [] ∧ t.hire.nextNo = 1
            ∧ t.clock = { seconds := 0, phase := 0, isSet := false } ∧ t.distress.latch = none ∧ t.intercom.volume = 4
            ∧ t.pay.session = .none ∧ t.pay.reversals = [] ∧ t.card.nextTxn = 1
            ∧ t.shift.state = .offShift ∧ t.shift.number = 0 ∧ t.shift.acc = .zero ∧ t.shift.coldMark = true ∧ t.shift.last = none
            ∧ t.supply.retainedAddr = pins.addr ∧ t.supply.backupValid = true ∧ t.supply.updateMark = false)
        ∧ (¬ cold → t.supply.cause = (match s.supply.stopCause with | .fail => .supply | .pin => .pin)
            ∧ t.hire.log = s.hire.log ∧ t.hire.nextNo = s.hire.nextNo ∧ t.clock = s.clock ∧ t.distress.latch = s.distress.latch
            ∧ t.intercom.volume = s.intercom.volume ∧ t.card.nextTxn = s.card.nextTxn
            ∧ t.shift.number = s.shift.number ∧ t.shift.driver = s.shift.driver ∧ t.shift.openTime = s.shift.openTime
            ∧ t.shift.lost = s.shift.lost ∧ t.shift.coldMark = s.shift.coldMark ∧ t.shift.last = s.shift.last
            ∧ t.shift.state = (if s.shift.state = .closing then .onShift else s.shift.state)
            ∧ t.shift.acc = (if s.shift.state = .offShift then s.shift.acc
                else { s.shift.acc with warmStarts := min 65535 (s.shift.acc.warmStarts + 1) })
            ∧ t.hire.slot = (match s.hire.slot with
              | .claiming _ => .free
              | .hired h => .hired { h with rc := { h.rc with
                  powerGap := true, gapSeconds := h.rc.gapSeconds + (s.clock.seconds - h.rc.lastSlot) } }
              | sl => sl)
            ∧ (s.pay.session = .none ∨ (∃ c, s.pay.session = .tipSelect c)
                  ∨ (∃ q, s.pay.session = .cardWait q ∧ q.txn = none) → t.pay.session = .none ∧ t.pay.reversals = s.pay.reversals)
            ∧ (∀ q, s.pay.session = .enquiry q ∨ (s.pay.session = .cardWait q ∧ q.txn ≠ none) → pins.card = true →
                t.pay.session = .enquiry q ∧ t.pay.reversals = s.pay.reversals
                  ∧ t.pay.overall = (if q.cancelSent then none else some 900000) ∧ t.intercom.prompt = true)
            ∧ (∀ q, s.pay.session = .enquiry q ∨ (s.pay.session = .cardWait q ∧ q.txn ≠ none) → pins.card = false →
                t.pay.session = .none ∧ t.pay.reversals.length = s.pay.reversals.length + 1))))
end

