-- ==== Sys2Proof/Laws/State.lean ====
section
/-! SUPPORT. What each updater of a block does to each field of the state. -/
namespace Sys2Proof.Machine

section
variable (s : State) (f : Straps → Straps)
@[simp] theorem State.onStraps_straps : (s.onStraps f).straps = f s.straps := rfl
@[simp] theorem State.onStraps_image : (s.onStraps f).image = s.image := rfl
@[simp] theorem State.onStraps_hire : (s.onStraps f).hire = s.hire := rfl
@[simp] theorem State.onStraps_link : (s.onStraps f).link = s.link := rfl
@[simp] theorem State.onStraps_peer : (s.onStraps f).peer = s.peer := rfl
@[simp] theorem State.onStraps_pulse : (s.onStraps f).pulse = s.pulse := rfl
@[simp] theorem State.onStraps_clock : (s.onStraps f).clock = s.clock := rfl
@[simp] theorem State.onStraps_sign : (s.onStraps f).sign = s.sign := rfl
@[simp] theorem State.onStraps_distress : (s.onStraps f).distress = s.distress := rfl
@[simp] theorem State.onStraps_intercom : (s.onStraps f).intercom = s.intercom := rfl
@[simp] theorem State.onStraps_card : (s.onStraps f).card = s.card := rfl
@[simp] theorem State.onStraps_pay : (s.onStraps f).pay = s.pay := rfl
@[simp] theorem State.onStraps_shift : (s.onStraps f).shift = s.shift := rfl
@[simp] theorem State.onStraps_close : (s.onStraps f).close = s.close := rfl
@[simp] theorem State.onStraps_console : (s.onStraps f).console = s.console := rfl
@[simp] theorem State.onStraps_print : (s.onStraps f).print = s.print := rfl
@[simp] theorem State.onStraps_display : (s.onStraps f).display = s.display := rfl
@[simp] theorem State.onStraps_supply : (s.onStraps f).supply = s.supply := rfl
@[simp] theorem State.onStraps_lines : (s.onStraps f).lines = s.lines := rfl
@[simp] theorem State.onStraps_now : (s.onStraps f).now = s.now := rfl
@[simp] theorem State.onStraps_offers : (s.onStraps f).offers = s.offers := rfl
@[simp] theorem State.onStraps_free : (s.onStraps f).free = s.free := rfl
@[simp] theorem State.onStraps_pending : (s.onStraps f).pending = s.pending := rfl
end

section
variable (s : State) (f : HireCtl → HireCtl)
@[simp] theorem State.onHire_straps : (s.onHire f).straps = s.straps := rfl
@[simp] theorem State.onHire_image : (s.onHire f).image = s.image := rfl
@[simp] theorem State.onHire_hire : (s.onHire f).hire = f s.hire := rfl
@[simp] theorem State.onHire_link : (s.onHire f).link = s.link := rfl
@[simp] theorem State.onHire_peer : (s.onHire f).peer = s.peer := rfl
@[simp] theorem State.onHire_pulse : (s.onHire f).pulse = s.pulse := rfl
@[simp] theorem State.onHire_clock : (s.onHire f).clock = s.clock := rfl
@[simp] theorem State.onHire_sign : (s.onHire f).sign = s.sign := rfl
@[simp] theorem State.onHire_distress : (s.onHire f).distress = s.distress := rfl
@[simp] theorem State.onHire_intercom : (s.onHire f).intercom = s.intercom := rfl
@[simp] theorem State.onHire_card : (s.onHire f).card = s.card := rfl
@[simp] theorem State.onHire_pay : (s.onHire f).pay = s.pay := rfl
@[simp] theorem State.onHire_shift : (s.onHire f).shift = s.shift := rfl
@[simp] theorem State.onHire_close : (s.onHire f).close = s.close := rfl
@[simp] theorem State.onHire_console : (s.onHire f).console = s.console := rfl
@[simp] theorem State.onHire_print : (s.onHire f).print = s.print := rfl
@[simp] theorem State.onHire_display : (s.onHire f).display = s.display := rfl
@[simp] theorem State.onHire_supply : (s.onHire f).supply = s.supply := rfl
@[simp] theorem State.onHire_lines : (s.onHire f).lines = s.lines := rfl
@[simp] theorem State.onHire_now : (s.onHire f).now = s.now := rfl
@[simp] theorem State.onHire_offers : (s.onHire f).offers = s.offers := rfl
@[simp] theorem State.onHire_free : (s.onHire f).free = s.free := rfl
@[simp] theorem State.onHire_pending : (s.onHire f).pending = s.pending := rfl
end

section
variable (s : State) (f : Link → Link)
@[simp] theorem State.onLink_straps : (s.onLink f).straps = s.straps := rfl
@[simp] theorem State.onLink_image : (s.onLink f).image = s.image := rfl
@[simp] theorem State.onLink_hire : (s.onLink f).hire = s.hire := rfl
@[simp] theorem State.onLink_link : (s.onLink f).link = f s.link := rfl
@[simp] theorem State.onLink_peer : (s.onLink f).peer = s.peer := rfl
@[simp] theorem State.onLink_pulse : (s.onLink f).pulse = s.pulse := rfl
@[simp] theorem State.onLink_clock : (s.onLink f).clock = s.clock := rfl
@[simp] theorem State.onLink_sign : (s.onLink f).sign = s.sign := rfl
@[simp] theorem State.onLink_distress : (s.onLink f).distress = s.distress := rfl
@[simp] theorem State.onLink_intercom : (s.onLink f).intercom = s.intercom := rfl
@[simp] theorem State.onLink_card : (s.onLink f).card = s.card := rfl
@[simp] theorem State.onLink_pay : (s.onLink f).pay = s.pay := rfl
@[simp] theorem State.onLink_shift : (s.onLink f).shift = s.shift := rfl
@[simp] theorem State.onLink_close : (s.onLink f).close = s.close := rfl
@[simp] theorem State.onLink_console : (s.onLink f).console = s.console := rfl
@[simp] theorem State.onLink_print : (s.onLink f).print = s.print := rfl
@[simp] theorem State.onLink_display : (s.onLink f).display = s.display := rfl
@[simp] theorem State.onLink_supply : (s.onLink f).supply = s.supply := rfl
@[simp] theorem State.onLink_lines : (s.onLink f).lines = s.lines := rfl
@[simp] theorem State.onLink_now : (s.onLink f).now = s.now := rfl
@[simp] theorem State.onLink_offers : (s.onLink f).offers = s.offers := rfl
@[simp] theorem State.onLink_free : (s.onLink f).free = s.free := rfl
@[simp] theorem State.onLink_pending : (s.onLink f).pending = s.pending := rfl
end

section
variable (s : State) (f : Peer → Peer)
@[simp] theorem State.onPeer_straps : (s.onPeer f).straps = s.straps := rfl
@[simp] theorem State.onPeer_image : (s.onPeer f).image = s.image := rfl
@[simp] theorem State.onPeer_hire : (s.onPeer f).hire = s.hire := rfl
@[simp] theorem State.onPeer_link : (s.onPeer f).link = s.link := rfl
@[simp] theorem State.onPeer_peer : (s.onPeer f).peer = f s.peer := rfl
@[simp] theorem State.onPeer_pulse : (s.onPeer f).pulse = s.pulse := rfl
@[simp] theorem State.onPeer_clock : (s.onPeer f).clock = s.clock := rfl
@[simp] theorem State.onPeer_sign : (s.onPeer f).sign = s.sign := rfl
@[simp] theorem State.onPeer_distress : (s.onPeer f).distress = s.distress := rfl
@[simp] theorem State.onPeer_intercom : (s.onPeer f).intercom = s.intercom := rfl
@[simp] theorem State.onPeer_card : (s.onPeer f).card = s.card := rfl
@[simp] theorem State.onPeer_pay : (s.onPeer f).pay = s.pay := rfl
@[simp] theorem State.onPeer_shift : (s.onPeer f).shift = s.shift := rfl
@[simp] theorem State.onPeer_close : (s.onPeer f).close = s.close := rfl
@[simp] theorem State.onPeer_console : (s.onPeer f).console = s.console := rfl
@[simp] theorem State.onPeer_print : (s.onPeer f).print = s.print := rfl
@[simp] theorem State.onPeer_display : (s.onPeer f).display = s.display := rfl
@[simp] theorem State.onPeer_supply : (s.onPeer f).supply = s.supply := rfl
@[simp] theorem State.onPeer_lines : (s.onPeer f).lines = s.lines := rfl
@[simp] theorem State.onPeer_now : (s.onPeer f).now = s.now := rfl
@[simp] theorem State.onPeer_offers : (s.onPeer f).offers = s.offers := rfl
@[simp] theorem State.onPeer_free : (s.onPeer f).free = s.free := rfl
@[simp] theorem State.onPeer_pending : (s.onPeer f).pending = s.pending := rfl
end

section
variable (s : State) (f : Pulse → Pulse)
@[simp] theorem State.onPulse_straps : (s.onPulse f).straps = s.straps := rfl
@[simp] theorem State.onPulse_image : (s.onPulse f).image = s.image := rfl
@[simp] theorem State.onPulse_hire : (s.onPulse f).hire = s.hire := rfl
@[simp] theorem State.onPulse_link : (s.onPulse f).link = s.link := rfl
@[simp] theorem State.onPulse_peer : (s.onPulse f).peer = s.peer := rfl
@[simp] theorem State.onPulse_pulse : (s.onPulse f).pulse = f s.pulse := rfl
@[simp] theorem State.onPulse_clock : (s.onPulse f).clock = s.clock := rfl
@[simp] theorem State.onPulse_sign : (s.onPulse f).sign = s.sign := rfl
@[simp] theorem State.onPulse_distress : (s.onPulse f).distress = s.distress := rfl
@[simp] theorem State.onPulse_intercom : (s.onPulse f).intercom = s.intercom := rfl
@[simp] theorem State.onPulse_card : (s.onPulse f).card = s.card := rfl
@[simp] theorem State.onPulse_pay : (s.onPulse f).pay = s.pay := rfl
@[simp] theorem State.onPulse_shift : (s.onPulse f).shift = s.shift := rfl
@[simp] theorem State.onPulse_close : (s.onPulse f).close = s.close := rfl
@[simp] theorem State.onPulse_console : (s.onPulse f).console = s.console := rfl
@[simp] theorem State.onPulse_print : (s.onPulse f).print = s.print := rfl
@[simp] theorem State.onPulse_display : (s.onPulse f).display = s.display := rfl
@[simp] theorem State.onPulse_supply : (s.onPulse f).supply = s.supply := rfl
@[simp] theorem State.onPulse_lines : (s.onPulse f).lines = s.lines := rfl
@[simp] theorem State.onPulse_now : (s.onPulse f).now = s.now := rfl
@[simp] theorem State.onPulse_offers : (s.onPulse f).offers = s.offers := rfl
@[simp] theorem State.onPulse_free : (s.onPulse f).free = s.free := rfl
@[simp] theorem State.onPulse_pending : (s.onPulse f).pending = s.pending := rfl
end

section
variable (s : State) (f : Clock → Clock)
@[simp] theorem State.onClock_straps : (s.onClock f).straps = s.straps := rfl
@[simp] theorem State.onClock_image : (s.onClock f).image = s.image := rfl
@[simp] theorem State.onClock_hire : (s.onClock f).hire = s.hire := rfl
@[simp] theorem State.onClock_link : (s.onClock f).link = s.link := rfl
@[simp] theorem State.onClock_peer : (s.onClock f).peer = s.peer := rfl
@[simp] theorem State.onClock_pulse : (s.onClock f).pulse = s.pulse := rfl
@[simp] theorem State.onClock_clock : (s.onClock f).clock = f s.clock := rfl
@[simp] theorem State.onClock_sign : (s.onClock f).sign = s.sign := rfl
@[simp] theorem State.onClock_distress : (s.onClock f).distress = s.distress := rfl
@[simp] theorem State.onClock_intercom : (s.onClock f).intercom = s.intercom := rfl
@[simp] theorem State.onClock_card : (s.onClock f).card = s.card := rfl
@[simp] theorem State.onClock_pay : (s.onClock f).pay = s.pay := rfl
@[simp] theorem State.onClock_shift : (s.onClock f).shift = s.shift := rfl
@[simp] theorem State.onClock_close : (s.onClock f).close = s.close := rfl
@[simp] theorem State.onClock_console : (s.onClock f).console = s.console := rfl
@[simp] theorem State.onClock_print : (s.onClock f).print = s.print := rfl
@[simp] theorem State.onClock_display : (s.onClock f).display = s.display := rfl
@[simp] theorem State.onClock_supply : (s.onClock f).supply = s.supply := rfl
@[simp] theorem State.onClock_lines : (s.onClock f).lines = s.lines := rfl
@[simp] theorem State.onClock_now : (s.onClock f).now = s.now := rfl
@[simp] theorem State.onClock_offers : (s.onClock f).offers = s.offers := rfl
@[simp] theorem State.onClock_free : (s.onClock f).free = s.free := rfl
@[simp] theorem State.onClock_pending : (s.onClock f).pending = s.pending := rfl
end

section
variable (s : State) (f : Sign → Sign)
@[simp] theorem State.onSign_straps : (s.onSign f).straps = s.straps := rfl
@[simp] theorem State.onSign_image : (s.onSign f).image = s.image := rfl
@[simp] theorem State.onSign_hire : (s.onSign f).hire = s.hire := rfl
@[simp] theorem State.onSign_link : (s.onSign f).link = s.link := rfl
@[simp] theorem State.onSign_peer : (s.onSign f).peer = s.peer := rfl
@[simp] theorem State.onSign_pulse : (s.onSign f).pulse = s.pulse := rfl
@[simp] theorem State.onSign_clock : (s.onSign f).clock = s.clock := rfl
@[simp] theorem State.onSign_sign : (s.onSign f).sign = f s.sign := rfl
@[simp] theorem State.onSign_distress : (s.onSign f).distress = s.distress := rfl
@[simp] theorem State.onSign_intercom : (s.onSign f).intercom = s.intercom := rfl
@[simp] theorem State.onSign_card : (s.onSign f).card = s.card := rfl
@[simp] theorem State.onSign_pay : (s.onSign f).pay = s.pay := rfl
@[simp] theorem State.onSign_shift : (s.onSign f).shift = s.shift := rfl
@[simp] theorem State.onSign_close : (s.onSign f).close = s.close := rfl
@[simp] theorem State.onSign_console : (s.onSign f).console = s.console := rfl
@[simp] theorem State.onSign_print : (s.onSign f).print = s.print := rfl
@[simp] theorem State.onSign_display : (s.onSign f).display = s.display := rfl
@[simp] theorem State.onSign_supply : (s.onSign f).supply = s.supply := rfl
@[simp] theorem State.onSign_lines : (s.onSign f).lines = s.lines := rfl
@[simp] theorem State.onSign_now : (s.onSign f).now = s.now := rfl
@[simp] theorem State.onSign_offers : (s.onSign f).offers = s.offers := rfl
@[simp] theorem State.onSign_free : (s.onSign f).free = s.free := rfl
@[simp] theorem State.onSign_pending : (s.onSign f).pending = s.pending := rfl
end

section
variable (s : State) (f : Distress → Distress)
@[simp] theorem State.onDistress_straps : (s.onDistress f).straps = s.straps := rfl
@[simp] theorem State.onDistress_image : (s.onDistress f).image = s.image := rfl
@[simp] theorem State.onDistress_hire : (s.onDistress f).hire = s.hire := rfl
@[simp] theorem State.onDistress_link : (s.onDistress f).link = s.link := rfl
@[simp] theorem State.onDistress_peer : (s.onDistress f).peer = s.peer := rfl
@[simp] theorem State.onDistress_pulse : (s.onDistress f).pulse = s.pulse := rfl
@[simp] theorem State.onDistress_clock : (s.onDistress f).clock = s.clock := rfl
@[simp] theorem State.onDistress_sign : (s.onDistress f).sign = s.sign := rfl
@[simp] theorem State.onDistress_distress : (s.onDistress f).distress = f s.distress := rfl
@[simp] theorem State.onDistress_intercom : (s.onDistress f).intercom = s.intercom := rfl
@[simp] theorem State.onDistress_card : (s.onDistress f).card = s.card := rfl
@[simp] theorem State.onDistress_pay : (s.onDistress f).pay = s.pay := rfl
@[simp] theorem State.onDistress_shift : (s.onDistress f).shift = s.shift := rfl
@[simp] theorem State.onDistress_close : (s.onDistress f).close = s.close := rfl
@[simp] theorem State.onDistress_console : (s.onDistress f).console = s.console := rfl
@[simp] theorem State.onDistress_print : (s.onDistress f).print = s.print := rfl
@[simp] theorem State.onDistress_display : (s.onDistress f).display = s.display := rfl
@[simp] theorem State.onDistress_supply : (s.onDistress f).supply = s.supply := rfl
@[simp] theorem State.onDistress_lines : (s.onDistress f).lines = s.lines := rfl
@[simp] theorem State.onDistress_now : (s.onDistress f).now = s.now := rfl
@[simp] theorem State.onDistress_offers : (s.onDistress f).offers = s.offers := rfl
@[simp] theorem State.onDistress_free : (s.onDistress f).free = s.free := rfl
@[simp] theorem State.onDistress_pending : (s.onDistress f).pending = s.pending := rfl
end

section
variable (s : State) (f : Intercom → Intercom)
@[simp] theorem State.onIntercom_straps : (s.onIntercom f).straps = s.straps := rfl
@[simp] theorem State.onIntercom_image : (s.onIntercom f).image = s.image := rfl
@[simp] theorem State.onIntercom_hire : (s.onIntercom f).hire = s.hire := rfl
@[simp] theorem State.onIntercom_link : (s.onIntercom f).link = s.link := rfl
@[simp] theorem State.onIntercom_peer : (s.onIntercom f).peer = s.peer := rfl
@[simp] theorem State.onIntercom_pulse : (s.onIntercom f).pulse = s.pulse := rfl
@[simp] theorem State.onIntercom_clock : (s.onIntercom f).clock = s.clock := rfl
@[simp] theorem State.onIntercom_sign : (s.onIntercom f).sign = s.sign := rfl
@[simp] theorem State.onIntercom_distress : (s.onIntercom f).distress = s.distress := rfl
@[simp] theorem State.onIntercom_intercom : (s.onIntercom f).intercom = f s.intercom := rfl
@[simp] theorem State.onIntercom_card : (s.onIntercom f).card = s.card := rfl
@[simp] theorem State.onIntercom_pay : (s.onIntercom f).pay = s.pay := rfl
@[simp] theorem State.onIntercom_shift : (s.onIntercom f).shift = s.shift := rfl
@[simp] theorem State.onIntercom_close : (s.onIntercom f).close = s.close := rfl
@[simp] theorem State.onIntercom_console : (s.onIntercom f).console = s.console := rfl
@[simp] theorem State.onIntercom_print : (s.onIntercom f).print = s.print := rfl
@[simp] theorem State.onIntercom_display : (s.onIntercom f).display = s.display := rfl
@[simp] theorem State.onIntercom_supply : (s.onIntercom f).supply = s.supply := rfl
@[simp] theorem State.onIntercom_lines : (s.onIntercom f).lines = s.lines := rfl
@[simp] theorem State.onIntercom_now : (s.onIntercom f).now = s.now := rfl
@[simp] theorem State.onIntercom_offers : (s.onIntercom f).offers = s.offers := rfl
@[simp] theorem State.onIntercom_free : (s.onIntercom f).free = s.free := rfl
@[simp] theorem State.onIntercom_pending : (s.onIntercom f).pending = s.pending := rfl
end

section
variable (s : State) (f : Card → Card)
@[simp] theorem State.onCard_straps : (s.onCard f).straps = s.straps := rfl
@[simp] theorem State.onCard_image : (s.onCard f).image = s.image := rfl
@[simp] theorem State.onCard_hire : (s.onCard f).hire = s.hire := rfl
@[simp] theorem State.onCard_link : (s.onCard f).link = s.link := rfl
@[simp] theorem State.onCard_peer : (s.onCard f).peer = s.peer := rfl
@[simp] theorem State.onCard_pulse : (s.onCard f).pulse = s.pulse := rfl
@[simp] theorem State.onCard_clock : (s.onCard f).clock = s.clock := rfl
@[simp] theorem State.onCard_sign : (s.onCard f).sign = s.sign := rfl
@[simp] theorem State.onCard_distress : (s.onCard f).distress = s.distress := rfl
@[simp] theorem State.onCard_intercom : (s.onCard f).intercom = s.intercom := rfl
@[simp] theorem State.onCard_card : (s.onCard f).card = f s.card := rfl
@[simp] theorem State.onCard_pay : (s.onCard f).pay = s.pay := rfl
@[simp] theorem State.onCard_shift : (s.onCard f).shift = s.shift := rfl
@[simp] theorem State.onCard_close : (s.onCard f).close = s.close := rfl
@[simp] theorem State.onCard_console : (s.onCard f).console = s.console := rfl
@[simp] theorem State.onCard_print : (s.onCard f).print = s.print := rfl
@[simp] theorem State.onCard_display : (s.onCard f).display = s.display := rfl
@[simp] theorem State.onCard_supply : (s.onCard f).supply = s.supply := rfl
@[simp] theorem State.onCard_lines : (s.onCard f).lines = s.lines := rfl
@[simp] theorem State.onCard_now : (s.onCard f).now = s.now := rfl
@[simp] theorem State.onCard_offers : (s.onCard f).offers = s.offers := rfl
@[simp] theorem State.onCard_free : (s.onCard f).free = s.free := rfl
@[simp] theorem State.onCard_pending : (s.onCard f).pending = s.pending := rfl
end

section
variable (s : State) (f : Pay → Pay)
@[simp] theorem State.onPay_straps : (s.onPay f).straps = s.straps := rfl
@[simp] theorem State.onPay_image : (s.onPay f).image = s.image := rfl
@[simp] theorem State.onPay_hire : (s.onPay f).hire = s.hire := rfl
@[simp] theorem State.onPay_link : (s.onPay f).link = s.link := rfl
@[simp] theorem State.onPay_peer : (s.onPay f).peer = s.peer := rfl
@[simp] theorem State.onPay_pulse : (s.onPay f).pulse = s.pulse := rfl
@[simp] theorem State.onPay_clock : (s.onPay f).clock = s.clock := rfl
@[simp] theorem State.onPay_sign : (s.onPay f).sign = s.sign := rfl
@[simp] theorem State.onPay_distress : (s.onPay f).distress = s.distress := rfl
@[simp] theorem State.onPay_intercom : (s.onPay f).intercom = s.intercom := rfl
@[simp] theorem State.onPay_card : (s.onPay f).card = s.card := rfl
@[simp] theorem State.onPay_pay : (s.onPay f).pay = f s.pay := rfl
@[simp] theorem State.onPay_shift : (s.onPay f).shift = s.shift := rfl
@[simp] theorem State.onPay_close : (s.onPay f).close = s.close := rfl
@[simp] theorem State.onPay_console : (s.onPay f).console = s.console := rfl
@[simp] theorem State.onPay_print : (s.onPay f).print = s.print := rfl
@[simp] theorem State.onPay_display : (s.onPay f).display = s.display := rfl
@[simp] theorem State.onPay_supply : (s.onPay f).supply = s.supply := rfl
@[simp] theorem State.onPay_lines : (s.onPay f).lines = s.lines := rfl
@[simp] theorem State.onPay_now : (s.onPay f).now = s.now := rfl
@[simp] theorem State.onPay_offers : (s.onPay f).offers = s.offers := rfl
@[simp] theorem State.onPay_free : (s.onPay f).free = s.free := rfl
@[simp] theorem State.onPay_pending : (s.onPay f).pending = s.pending := rfl
end

section
variable (s : State) (f : Shift → Shift)
@[simp] theorem State.onShift_straps : (s.onShift f).straps = s.straps := rfl
@[simp] theorem State.onShift_image : (s.onShift f).image = s.image := rfl
@[simp] theorem State.onShift_hire : (s.onShift f).hire = s.hire := rfl
@[simp] theorem State.onShift_link : (s.onShift f).link = s.link := rfl
@[simp] theorem State.onShift_peer : (s.onShift f).peer = s.peer := rfl
@[simp] theorem State.onShift_pulse : (s.onShift f).pulse = s.pulse := rfl
@[simp] theorem State.onShift_clock : (s.onShift f).clock = s.clock := rfl
@[simp] theorem State.onShift_sign : (s.onShift f).sign = s.sign := rfl
@[simp] theorem State.onShift_distress : (s.onShift f).distress = s.distress := rfl
@[simp] theorem State.onShift_intercom : (s.onShift f).intercom = s.intercom := rfl
@[simp] theorem State.onShift_card : (s.onShift f).card = s.card := rfl
@[simp] theorem State.onShift_pay : (s.onShift f).pay = s.pay := rfl
@[simp] theorem State.onShift_shift : (s.onShift f).shift = f s.shift := rfl
@[simp] theorem State.onShift_close : (s.onShift f).close = s.close := rfl
@[simp] theorem State.onShift_console : (s.onShift f).console = s.console := rfl
@[simp] theorem State.onShift_print : (s.onShift f).print = s.print := rfl
@[simp] theorem State.onShift_display : (s.onShift f).display = s.display := rfl
@[simp] theorem State.onShift_supply : (s.onShift f).supply = s.supply := rfl
@[simp] theorem State.onShift_lines : (s.onShift f).lines = s.lines := rfl
@[simp] theorem State.onShift_now : (s.onShift f).now = s.now := rfl
@[simp] theorem State.onShift_offers : (s.onShift f).offers = s.offers := rfl
@[simp] theorem State.onShift_free : (s.onShift f).free = s.free := rfl
@[simp] theorem State.onShift_pending : (s.onShift f).pending = s.pending := rfl
end

section
variable (s : State) (f : Close → Close)
@[simp] theorem State.onClose_straps : (s.onClose f).straps = s.straps := rfl
@[simp] theorem State.onClose_image : (s.onClose f).image = s.image := rfl
@[simp] theorem State.onClose_hire : (s.onClose f).hire = s.hire := rfl
@[simp] theorem State.onClose_link : (s.onClose f).link = s.link := rfl
@[simp] theorem State.onClose_peer : (s.onClose f).peer = s.peer := rfl
@[simp] theorem State.onClose_pulse : (s.onClose f).pulse = s.pulse := rfl
@[simp] theorem State.onClose_clock : (s.onClose f).clock = s.clock := rfl
@[simp] theorem State.onClose_sign : (s.onClose f).sign = s.sign := rfl
@[simp] theorem State.onClose_distress : (s.onClose f).distress = s.distress := rfl
@[simp] theorem State.onClose_intercom : (s.onClose f).intercom = s.intercom := rfl
@[simp] theorem State.onClose_card : (s.onClose f).card = s.card := rfl
@[simp] theorem State.onClose_pay : (s.onClose f).pay = s.pay := rfl
@[simp] theorem State.onClose_shift : (s.onClose f).shift = s.shift := rfl
@[simp] theorem State.onClose_close : (s.onClose f).close = f s.close := rfl
@[simp] theorem State.onClose_console : (s.onClose f).console = s.console := rfl
@[simp] theorem State.onClose_print : (s.onClose f).print = s.print := rfl
@[simp] theorem State.onClose_display : (s.onClose f).display = s.display := rfl
@[simp] theorem State.onClose_supply : (s.onClose f).supply = s.supply := rfl
@[simp] theorem State.onClose_lines : (s.onClose f).lines = s.lines := rfl
@[simp] theorem State.onClose_now : (s.onClose f).now = s.now := rfl
@[simp] theorem State.onClose_offers : (s.onClose f).offers = s.offers := rfl
@[simp] theorem State.onClose_free : (s.onClose f).free = s.free := rfl
@[simp] theorem State.onClose_pending : (s.onClose f).pending = s.pending := rfl
end

section
variable (s : State) (f : Console → Console)
@[simp] theorem State.onConsole_straps : (s.onConsole f).straps = s.straps := rfl
@[simp] theorem State.onConsole_image : (s.onConsole f).image = s.image := rfl
@[simp] theorem State.onConsole_hire : (s.onConsole f).hire = s.hire := rfl
@[simp] theorem State.onConsole_link : (s.onConsole f).link = s.link := rfl
@[simp] theorem State.onConsole_peer : (s.onConsole f).peer = s.peer := rfl
@[simp] theorem State.onConsole_pulse : (s.onConsole f).pulse = s.pulse := rfl
@[simp] theorem State.onConsole_clock : (s.onConsole f).clock = s.clock := rfl
@[simp] theorem State.onConsole_sign : (s.onConsole f).sign = s.sign := rfl
@[simp] theorem State.onConsole_distress : (s.onConsole f).distress = s.distress := rfl
@[simp] theorem State.onConsole_intercom : (s.onConsole f).intercom = s.intercom := rfl
@[simp] theorem State.onConsole_card : (s.onConsole f).card = s.card := rfl
@[simp] theorem State.onConsole_pay : (s.onConsole f).pay = s.pay := rfl
@[simp] theorem State.onConsole_shift : (s.onConsole f).shift = s.shift := rfl
@[simp] theorem State.onConsole_close : (s.onConsole f).close = s.close := rfl
@[simp] theorem State.onConsole_console : (s.onConsole f).console = f s.console := rfl
@[simp] theorem State.onConsole_print : (s.onConsole f).print = s.print := rfl
@[simp] theorem State.onConsole_display : (s.onConsole f).display = s.display := rfl
@[simp] theorem State.onConsole_supply : (s.onConsole f).supply = s.supply := rfl
@[simp] theorem State.onConsole_lines : (s.onConsole f).lines = s.lines := rfl
@[simp] theorem State.onConsole_now : (s.onConsole f).now = s.now := rfl
@[simp] theorem State.onConsole_offers : (s.onConsole f).offers = s.offers := rfl
@[simp] theorem State.onConsole_free : (s.onConsole f).free = s.free := rfl
@[simp] theorem State.onConsole_pending : (s.onConsole f).pending = s.pending := rfl
end

section
variable (s : State) (f : Print → Print)
@[simp] theorem State.onPrint_straps : (s.onPrint f).straps = s.straps := rfl
@[simp] theorem State.onPrint_image : (s.onPrint f).image = s.image := rfl
@[simp] theorem State.onPrint_hire : (s.onPrint f).hire = s.hire := rfl
@[simp] theorem State.onPrint_link : (s.onPrint f).link = s.link := rfl
@[simp] theorem State.onPrint_peer : (s.onPrint f).peer = s.peer := rfl
@[simp] theorem State.onPrint_pulse : (s.onPrint f).pulse = s.pulse := rfl
@[simp] theorem State.onPrint_clock : (s.onPrint f).clock = s.clock := rfl
@[simp] theorem State.onPrint_sign : (s.onPrint f).sign = s.sign := rfl
@[simp] theorem State.onPrint_distress : (s.onPrint f).distress = s.distress := rfl
@[simp] theorem State.onPrint_intercom : (s.onPrint f).intercom = s.intercom := rfl
@[simp] theorem State.onPrint_card : (s.onPrint f).card = s.card := rfl
@[simp] theorem State.onPrint_pay : (s.onPrint f).pay = s.pay := rfl
@[simp] theorem State.onPrint_shift : (s.onPrint f).shift = s.shift := rfl
@[simp] theorem State.onPrint_close : (s.onPrint f).close = s.close := rfl
@[simp] theorem State.onPrint_console : (s.onPrint f).console = s.console := rfl
@[simp] theorem State.onPrint_print : (s.onPrint f).print = f s.print := rfl
@[simp] theorem State.onPrint_display : (s.onPrint f).display = s.display := rfl
@[simp] theorem State.onPrint_supply : (s.onPrint f).supply = s.supply := rfl
@[simp] theorem State.onPrint_lines : (s.onPrint f).lines = s.lines := rfl
@[simp] theorem State.onPrint_now : (s.onPrint f).now = s.now := rfl
@[simp] theorem State.onPrint_offers : (s.onPrint f).offers = s.offers := rfl
@[simp] theorem State.onPrint_free : (s.onPrint f).free = s.free := rfl
@[simp] theorem State.onPrint_pending : (s.onPrint f).pending = s.pending := rfl
end

section
variable (s : State) (f : Display → Display)
@[simp] theorem State.onDisplay_straps : (s.onDisplay f).straps = s.straps := rfl
@[simp] theorem State.onDisplay_image : (s.onDisplay f).image = s.image := rfl
@[simp] theorem State.onDisplay_hire : (s.onDisplay f).hire = s.hire := rfl
@[simp] theorem State.onDisplay_link : (s.onDisplay f).link = s.link := rfl
@[simp] theorem State.onDisplay_peer : (s.onDisplay f).peer = s.peer := rfl
@[simp] theorem State.onDisplay_pulse : (s.onDisplay f).pulse = s.pulse := rfl
@[simp] theorem State.onDisplay_clock : (s.onDisplay f).clock = s.clock := rfl
@[simp] theorem State.onDisplay_sign : (s.onDisplay f).sign = s.sign := rfl
@[simp] theorem State.onDisplay_distress : (s.onDisplay f).distress = s.distress := rfl
@[simp] theorem State.onDisplay_intercom : (s.onDisplay f).intercom = s.intercom := rfl
@[simp] theorem State.onDisplay_card : (s.onDisplay f).card = s.card := rfl
@[simp] theorem State.onDisplay_pay : (s.onDisplay f).pay = s.pay := rfl
@[simp] theorem State.onDisplay_shift : (s.onDisplay f).shift = s.shift := rfl
@[simp] theorem State.onDisplay_close : (s.onDisplay f).close = s.close := rfl
@[simp] theorem State.onDisplay_console : (s.onDisplay f).console = s.console := rfl
@[simp] theorem State.onDisplay_print : (s.onDisplay f).print = s.print := rfl
@[simp] theorem State.onDisplay_display : (s.onDisplay f).display = f s.display := rfl
@[simp] theorem State.onDisplay_supply : (s.onDisplay f).supply = s.supply := rfl
@[simp] theorem State.onDisplay_lines : (s.onDisplay f).lines = s.lines := rfl
@[simp] theorem State.onDisplay_now : (s.onDisplay f).now = s.now := rfl
@[simp] theorem State.onDisplay_offers : (s.onDisplay f).offers = s.offers := rfl
@[simp] theorem State.onDisplay_free : (s.onDisplay f).free = s.free := rfl
@[simp] theorem State.onDisplay_pending : (s.onDisplay f).pending = s.pending := rfl
end

section
variable (s : State) (f : Supply → Supply)
@[simp] theorem State.onSupply_straps : (s.onSupply f).straps = s.straps := rfl
@[simp] theorem State.onSupply_image : (s.onSupply f).image = s.image := rfl
@[simp] theorem State.onSupply_hire : (s.onSupply f).hire = s.hire := rfl
@[simp] theorem State.onSupply_link : (s.onSupply f).link = s.link := rfl
@[simp] theorem State.onSupply_peer : (s.onSupply f).peer = s.peer := rfl
@[simp] theorem State.onSupply_pulse : (s.onSupply f).pulse = s.pulse := rfl
@[simp] theorem State.onSupply_clock : (s.onSupply f).clock = s.clock := rfl
@[simp] theorem State.onSupply_sign : (s.onSupply f).sign = s.sign := rfl
@[simp] theorem State.onSupply_distress : (s.onSupply f).distress = s.distress := rfl
@[simp] theorem State.onSupply_intercom : (s.onSupply f).intercom = s.intercom := rfl
@[simp] theorem State.onSupply_card : (s.onSupply f).card = s.card := rfl
@[simp] theorem State.onSupply_pay : (s.onSupply f).pay = s.pay := rfl
@[simp] theorem State.onSupply_shift : (s.onSupply f).shift = s.shift := rfl
@[simp] theorem State.onSupply_close : (s.onSupply f).close = s.close := rfl
@[simp] theorem State.onSupply_console : (s.onSupply f).console = s.console := rfl
@[simp] theorem State.onSupply_print : (s.onSupply f).print = s.print := rfl
@[simp] theorem State.onSupply_display : (s.onSupply f).display = s.display := rfl
@[simp] theorem State.onSupply_supply : (s.onSupply f).supply = f s.supply := rfl
@[simp] theorem State.onSupply_lines : (s.onSupply f).lines = s.lines := rfl
@[simp] theorem State.onSupply_now : (s.onSupply f).now = s.now := rfl
@[simp] theorem State.onSupply_offers : (s.onSupply f).offers = s.offers := rfl
@[simp] theorem State.onSupply_free : (s.onSupply f).free = s.free := rfl
@[simp] theorem State.onSupply_pending : (s.onSupply f).pending = s.pending := rfl
end

section
variable (s : State) (f : Lines → Lines)
@[simp] theorem State.onLines_straps : (s.onLines f).straps = s.straps := rfl
@[simp] theorem State.onLines_image : (s.onLines f).image = s.image := rfl
@[simp] theorem State.onLines_hire : (s.onLines f).hire = s.hire := rfl
@[simp] theorem State.onLines_link : (s.onLines f).link = s.link := rfl
@[simp] theorem State.onLines_peer : (s.onLines f).peer = s.peer := rfl
@[simp] theorem State.onLines_pulse : (s.onLines f).pulse = s.pulse := rfl
@[simp] theorem State.onLines_clock : (s.onLines f).clock = s.clock := rfl
@[simp] theorem State.onLines_sign : (s.onLines f).sign = s.sign := rfl
@[simp] theorem State.onLines_distress : (s.onLines f).distress = s.distress := rfl
@[simp] theorem State.onLines_intercom : (s.onLines f).intercom = s.intercom := rfl
@[simp] theorem State.onLines_card : (s.onLines f).card = s.card := rfl
@[simp] theorem State.onLines_pay : (s.onLines f).pay = s.pay := rfl
@[simp] theorem State.onLines_shift : (s.onLines f).shift = s.shift := rfl
@[simp] theorem State.onLines_close : (s.onLines f).close = s.close := rfl
@[simp] theorem State.onLines_console : (s.onLines f).console = s.console := rfl
@[simp] theorem State.onLines_print : (s.onLines f).print = s.print := rfl
@[simp] theorem State.onLines_display : (s.onLines f).display = s.display := rfl
@[simp] theorem State.onLines_supply : (s.onLines f).supply = s.supply := rfl
@[simp] theorem State.onLines_lines : (s.onLines f).lines = f s.lines := rfl
@[simp] theorem State.onLines_now : (s.onLines f).now = s.now := rfl
@[simp] theorem State.onLines_offers : (s.onLines f).offers = s.offers := rfl
@[simp] theorem State.onLines_free : (s.onLines f).free = s.free := rfl
@[simp] theorem State.onLines_pending : (s.onLines f).pending = s.pending := rfl
end

section
variable (s : State) (o : Offer)
@[simp] theorem State.offer_straps : (s.offer o).straps = s.straps := rfl
@[simp] theorem State.offer_image : (s.offer o).image = s.image := rfl
@[simp] theorem State.offer_hire : (s.offer o).hire = s.hire := rfl
@[simp] theorem State.offer_link : (s.offer o).link = s.link := rfl
@[simp] theorem State.offer_peer : (s.offer o).peer = s.peer := rfl
@[simp] theorem State.offer_pulse : (s.offer o).pulse = s.pulse := rfl
@[simp] theorem State.offer_clock : (s.offer o).clock = s.clock := rfl
@[simp] theorem State.offer_sign : (s.offer o).sign = s.sign := rfl
@[simp] theorem State.offer_distress : (s.offer o).distress = s.distress := rfl
@[simp] theorem State.offer_intercom : (s.offer o).intercom = s.intercom := rfl
@[simp] theorem State.offer_card : (s.offer o).card = s.card := rfl
@[simp] theorem State.offer_pay : (s.offer o).pay = s.pay := rfl
@[simp] theorem State.offer_shift : (s.offer o).shift = s.shift := rfl
@[simp] theorem State.offer_close : (s.offer o).close = s.close := rfl
@[simp] theorem State.offer_console : (s.offer o).console = s.console := rfl
@[simp] theorem State.offer_print : (s.offer o).print = s.print := rfl
@[simp] theorem State.offer_display : (s.offer o).display = s.display := rfl
@[simp] theorem State.offer_supply : (s.offer o).supply = s.supply := rfl
@[simp] theorem State.offer_lines : (s.offer o).lines = s.lines := rfl
@[simp] theorem State.offer_now : (s.offer o).now = s.now := rfl
@[simp] theorem State.offer_offers : (s.offer o).offers = s.offers ++ [o] := rfl
@[simp] theorem State.offer_free : (s.offer o).free = s.free := rfl
@[simp] theorem State.offer_pending : (s.offer o).pending = s.pending := rfl
end

theorem Quad.get_set_same {α : Type} (q : Quad α) (a : Addr) (x : α) : (q.set a x).get a = x := by
  match a with
  | 0 => rfl
  | 1 => rfl
  | 2 => rfl
  | 3 => rfl

theorem Quad.get_set_other {α : Type} (q : Quad α) (a b : Addr) (x : α) (h : b ≠ a) : (q.set a x).get b = q.get b := by
  match a, b with
  | 0, 0 => exact absurd rfl h
  | 0, 1 => rfl
  | 0, 2 => rfl
  | 0, 3 => rfl
  | 1, 0 => rfl
  | 1, 1 => exact absurd rfl h
  | 1, 2 => rfl
  | 1, 3 => rfl
  | 2, 0 => rfl
  | 2, 1 => rfl
  | 2, 2 => exact absurd rfl h
  | 2, 3 => rfl
  | 3, 0 => rfl
  | 3, 1 => rfl
  | 3, 2 => rfl
  | 3, 3 => exact absurd rfl h

/-- Reading a row after a write: the written row, or any other as before. -/
theorem Quad.get_set {α : Type} (q : Quad α) (a b : Addr) (x : α) : (q.set a x).get b = if b = a then x else q.get b := by
  by_cases h : b = a
  · subst h; simp [Quad.get_set_same]
  · simp [h, Quad.get_set_other]

@[simp] theorem Quad.get_map {α β : Type} (q : Quad α) (f : α → β) (a : Addr) : (q.map f).get a = f (q.get a) := by
  match a with
  | 0 => rfl
  | 1 => rfl
  | 2 => rfl
  | 3 => rfl

end Sys2Proof.Machine
end

