-- ==== Sys2Proof/Laws/Queue.lean ====
section
/-! SUPPORT. The transmit queue's operations keep its order and bounds (R80 to R82, R91). -/
namespace Sys2Proof.Machine
open Sys2Proof

theorem insertEntry_length (e : Entry) (q : List Entry) : (insertEntry e q).length = q.length + 1 := by
  induction q with
  | nil => rfl
  | cons x xs ih =>
    unfold insertEntry
    split
    · simp [ih]
    · simp

theorem mem_insertEntry (e a : Entry) (q : List Entry) : a ∈ insertEntry e q ↔ a = e ∨ a ∈ q := by
  induction q with
  | nil => simp [insertEntry]
  | cons x xs ih =>
    unfold insertEntry
    split
    · simp only [List.mem_cons, ih]
      constructor
      · rintro (h | h | h)
        · exact Or.inr (Or.inl h)
        · exact Or.inl h
        · exact Or.inr (Or.inr h)
      · rintro (h | h | h)
        · exact Or.inr (Or.inl h)
        · exact Or.inl h
        · exact Or.inr (Or.inr h)
    · simp

/-- Placing an entry keeps the order of keys. -/
theorem insertEntry_sorted (e : Entry) (q : List Entry) (h : q.Pairwise fun a b => a.cls ≤ b.cls) :
    (insertEntry e q).Pairwise fun a b => a.cls ≤ b.cls := by
  induction q with
  | nil => simp [insertEntry]
  | cons x xs ih =>
    unfold insertEntry
    split
    · rename_i hx
      rw [List.pairwise_cons] at h ⊢
      refine ⟨fun a ha => ?_, ih h.2⟩
      rcases (mem_insertEntry e a xs).1 ha with rfl | ha
      · exact hx
      · exact h.1 a ha
    · rename_i hx
      rw [List.pairwise_cons]
      refine ⟨fun a ha => ?_, h⟩
      rcases List.mem_cons.1 ha with rfl | ha
      · omega
      · have := (List.pairwise_cons.1 h).1 a ha
        omega

/-- Placing an entry adds it to those a test picks, or leaves them. -/
theorem insertEntry_filter_length (p : Entry → Bool) (e : Entry) (q : List Entry) :
    ((insertEntry e q).filter p).length = (q.filter p).length + bitNat (p e) := by
  induction q with
  | nil => cases hp : p e <;> simp [insertEntry, List.filter, hp, bitNat]
  | cons x xs ih =>
    unfold insertEntry
    split
    · cases hx : p x <;> simp [hx, ih] <;> omega
    · cases hp : p e <;> cases hx : p x <;> simp [hx, hp, bitNat]

/-- A change that keeps class and flight of every entry keeps the queue's order and bounds. -/
theorem Link.Ok.map_queue {l : Link} (h : l.Ok) (f : Entry → Entry) (hc : ∀ e, (f e).cls = e.cls)
    (hb : ∀ e, (f e).begun = e.begun) : ({ l with queue := l.queue.map f } : Link).Ok := by
  obtain ⟨h1, h2, h3, h4, h5, h6, h7, h8⟩ := h
  have hf : ∀ n : Nat, ((fun e : Entry => e.cls == n) ∘ f) = fun e => e.cls == n := by
    intro n; funext e; simp [hc]
  have hg : ((fun e : Entry => e.begun) ∘ f) = fun e => e.begun := by funext e; simp [hb]
  refine ⟨by simpa using h1, ?_, ?_, ?_, ?_, ?_, ?_, h8⟩
  · rw [List.pairwise_map]; simpa [hc] using h2
  · simpa [List.filter_map, hf] using h3
  · simpa [List.filter_map, hf] using h4
  · simpa [Link.flights, List.filter_map, hg] using h5
  · intro hp
    have := h6 hp
    simp [Link.flights, List.filter_map, hg] at this ⊢
    exact this
  · intro hp
    simp [h7 hp]

theorem Link.Ok.replace {l : Link} (h : l.Ok) (cls : Nat) (payload : List Byte) : (l.replace cls payload).Ok :=
  h.map_queue _ (fun e => by split <;> rfl) (fun e => by split <;> rfl)

theorem Link.Ok.setRepl {l : Link} (h : l.Ok) (r : Option Repl) : ({ l with repl := r } : Link).Ok := h

theorem Link.Ok.refresh {l : Link} (h : l.Ok) (payload : List Byte) : (l.refresh payload).Ok := by
  unfold Link.refresh
  split
  · exact h.setRepl _
  · split
    · exact h.replace 6 payload
    · exact h

theorem Link.has_false_iff (l : Link) (cls : Nat) : l.has cls = false ↔ (l.queue.filter (·.cls == cls)).length = 0 := by
  unfold Link.has
  rw [List.length_eq_zero_iff, List.filter_eq_nil_iff, List.any_eq_false]

/-- What one offer can do (R81, R82, R91): nothing is taken after a clash, and a taken one keeps the queue's bounds. -/
theorem Link.Ok.offer {l l' : Link} (h : l.Ok) {now cls : Nat} {payload : List Byte} {tag : Tag}
    (ho : l.offer now cls payload tag = some l') : l'.Ok := by
  unfold Link.offer at ho
  split at ho
  · cases ho
  split at ho
  · split at ho
    · cases ho; exact h.setRepl _
    · cases ho; exact h.replace cls payload
  split at ho
  · rename_i hcl hrep hadm
    cases ho
    obtain ⟨h1, h2, h3, h4, h5, h6, h7, h8⟩ := h
    have hlen : l.queue.length < queueSize := by
      have hle : l.queue.length ≤ 16 := h1
      have hsz : queueSize = 16 := rfl
      simp only [Link.admits, Link.freeEntries, hsz, Bool.or_eq_true, Bool.and_eq_true, decide_eq_true_eq] at hadm
      omega
    refine ⟨?_, insertEntry_sorted _ _ h2, ?_, ?_, ?_, ?_, ?_, h8⟩
    · simp only [insertEntry_length]; omega
    · show ((insertEntry _ l.queue).filter _).length ≤ 1
      rw [insertEntry_filter_length]
      by_cases hc : cls = 0
      · subst hc
        have : l.has 0 = false := by simpa [replaceable] using hrep
        rw [Link.has_false_iff] at this
        rw [this]; simp [bitNat]
      · simpa [bitNat, hc] using h3
    · show ((insertEntry _ l.queue).filter _).length ≤ 1
      rw [insertEntry_filter_length]
      by_cases hc : cls = 6
      · subst hc
        have : l.has 6 = false := by simpa [replaceable] using hrep
        rw [Link.has_false_iff] at this
        rw [this]; simp [bitNat]
      · simpa [bitNat, hc] using h4
    · show ((insertEntry _ l.queue).filter _).length ≤ 1
      rw [insertEntry_filter_length]
      simpa [bitNat, Link.flights] using h5
    · intro hp
      have h0 := h6 hp
      show (insertEntry _ l.queue).filter _ = []
      rw [← List.length_eq_zero_iff, insertEntry_filter_length]
      have : (l.queue.filter (·.begun)).length = 0 := by
        rw [List.length_eq_zero_iff]; exact h0
      rw [this]; simp [bitNat]
    · intro hp; simp_all
  · cases ho

end Sys2Proof.Machine
end

