-- ==== Sys2Proof/Laws/Keeps.lean ====
section
/-! SUPPORT. Every operation keeps the station's bounds (`State.Ok`) and the queue of commands: the updaters of the blocks. -/
namespace Sys2Proof.Machine
open Sys2Proof

/-- The station's bounds hold and these commands wait. -/
def State.OkWith (s : State) (q : List Instr) : Prop := s.Ok ∧ s.pending = q

theorem State.onStraps_ok {q : List Instr} {s : State} {f : Straps → Straps} (hk : s.OkWith q) : (s.onStraps f).OkWith q :=
  ⟨⟨hk.1.1, hk.1.2, hk.1.3, hk.1.4, hk.1.5, hk.1.6, hk.1.7, hk.1.8, hk.1.9, hk.1.10⟩, hk.2⟩

theorem State.onHire_ok {q : List Instr} {s : State} {f : HireCtl → HireCtl} (hk : s.OkWith q)
    (hf : s.hire.Ok → (f s.hire).Ok) : (s.onHire f).OkWith q :=
  ⟨{ hk.1 with hire := hf hk.1.hire }, hk.2⟩

theorem State.onLink_ok {q : List Instr} {s : State} {f : Link → Link} (hk : s.OkWith q)
    (hf : s.link.Ok → (f s.link).Ok) : (s.onLink f).OkWith q :=
  ⟨{ hk.1 with link := hf hk.1.link }, hk.2⟩

theorem State.onPeer_ok {q : List Instr} {s : State} {f : Peer → Peer} (hk : s.OkWith q) : (s.onPeer f).OkWith q :=
  ⟨⟨hk.1.1, hk.1.2, hk.1.3, hk.1.4, hk.1.5, hk.1.6, hk.1.7, hk.1.8, hk.1.9, hk.1.10⟩, hk.2⟩

theorem State.onPulse_ok {q : List Instr} {s : State} {f : Pulse → Pulse} (hk : s.OkWith q)
    (hf : s.pulse.Ok → (f s.pulse).Ok) : (s.onPulse f).OkWith q :=
  ⟨{ hk.1 with pulse := hf hk.1.pulse }, hk.2⟩

theorem State.onClock_ok {q : List Instr} {s : State} {f : Clock → Clock} (hk : s.OkWith q) : (s.onClock f).OkWith q :=
  ⟨⟨hk.1.1, hk.1.2, hk.1.3, hk.1.4, hk.1.5, hk.1.6, hk.1.7, hk.1.8, hk.1.9, hk.1.10⟩, hk.2⟩

theorem State.onSign_ok {q : List Instr} {s : State} {f : Sign → Sign} (hk : s.OkWith q)
    (hf : s.sign.Ok → (f s.sign).Ok) : (s.onSign f).OkWith q :=
  ⟨{ hk.1 with sign := hf hk.1.sign }, hk.2⟩

theorem State.onDistress_ok {q : List Instr} {s : State} {f : Distress → Distress} (hk : s.OkWith q) : (s.onDistress f).OkWith q :=
  ⟨⟨hk.1.1, hk.1.2, hk.1.3, hk.1.4, hk.1.5, hk.1.6, hk.1.7, hk.1.8, hk.1.9, hk.1.10⟩, hk.2⟩

theorem State.onIntercom_ok {q : List Instr} {s : State} {f : Intercom → Intercom} (hk : s.OkWith q)
    (hf : s.intercom.Ok → (f s.intercom).Ok) : (s.onIntercom f).OkWith q :=
  ⟨{ hk.1 with intercom := hf hk.1.intercom }, hk.2⟩

theorem State.onCard_ok {q : List Instr} {s : State} {f : Card → Card} (hk : s.OkWith q)
    (hf : s.card.Ok → (f s.card).Ok) : (s.onCard f).OkWith q :=
  ⟨{ hk.1 with card := hf hk.1.card }, hk.2⟩

theorem State.onPay_ok {q : List Instr} {s : State} {f : Pay → Pay} (hk : s.OkWith q)
    (hf : s.pay.Ok → (f s.pay).Ok) : (s.onPay f).OkWith q :=
  ⟨{ hk.1 with pay := hf hk.1.pay }, hk.2⟩

theorem State.onShift_ok {q : List Instr} {s : State} {f : Shift → Shift} (hk : s.OkWith q) : (s.onShift f).OkWith q :=
  ⟨⟨hk.1.1, hk.1.2, hk.1.3, hk.1.4, hk.1.5, hk.1.6, hk.1.7, hk.1.8, hk.1.9, hk.1.10⟩, hk.2⟩

theorem State.onClose_ok {q : List Instr} {s : State} {f : Close → Close} (hk : s.OkWith q) : (s.onClose f).OkWith q :=
  ⟨⟨hk.1.1, hk.1.2, hk.1.3, hk.1.4, hk.1.5, hk.1.6, hk.1.7, hk.1.8, hk.1.9, hk.1.10⟩, hk.2⟩

theorem State.onConsole_ok {q : List Instr} {s : State} {f : Console → Console} (hk : s.OkWith q)
    (hf : s.console.Ok → (f s.console).Ok) : (s.onConsole f).OkWith q :=
  ⟨{ hk.1 with console := hf hk.1.console }, hk.2⟩

theorem State.onPrint_ok {q : List Instr} {s : State} {f : Print → Print} (hk : s.OkWith q)
    (hf : s.print.Ok → (f s.print).Ok) : (s.onPrint f).OkWith q :=
  ⟨{ hk.1 with print := hf hk.1.print }, hk.2⟩

theorem State.onDisplay_ok {q : List Instr} {s : State} {f : Display → Display} (hk : s.OkWith q) : (s.onDisplay f).OkWith q :=
  ⟨⟨hk.1.1, hk.1.2, hk.1.3, hk.1.4, hk.1.5, hk.1.6, hk.1.7, hk.1.8, hk.1.9, hk.1.10⟩, hk.2⟩

theorem State.onSupply_ok {q : List Instr} {s : State} {f : Supply → Supply} (hk : s.OkWith q) : (s.onSupply f).OkWith q :=
  ⟨⟨hk.1.1, hk.1.2, hk.1.3, hk.1.4, hk.1.5, hk.1.6, hk.1.7, hk.1.8, hk.1.9, hk.1.10⟩, hk.2⟩

theorem State.onLines_ok {q : List Instr} {s : State} {f : Lines → Lines} (hk : s.OkWith q) : (s.onLines f).OkWith q :=
  ⟨⟨hk.1.1, hk.1.2, hk.1.3, hk.1.4, hk.1.5, hk.1.6, hk.1.7, hk.1.8, hk.1.9, hk.1.10⟩, hk.2⟩

theorem State.offer_ok {q : List Instr} {s : State} (hk : s.OkWith q) (o : Offer) : (s.offer o).OkWith q :=
  ⟨⟨hk.1.1, hk.1.2, hk.1.3, hk.1.4, hk.1.5, hk.1.6, hk.1.7, hk.1.8, hk.1.9, hk.1.10⟩, hk.2⟩

theorem State.now_ok {q : List Instr} {s : State} (hk : s.OkWith q) (os : List Offer) (n : Nat) :
    ({ s with offers := os, free := n } : State).OkWith q :=
  ⟨⟨hk.1.1, hk.1.2, hk.1.3, hk.1.4, hk.1.5, hk.1.6, hk.1.7, hk.1.8, hk.1.9, hk.1.10⟩, hk.2⟩

end Sys2Proof.Machine
end

