-- ==== Sys2Proof/Laws/KeepsShared.lean ====
section
/-! SUPPORT. For each operation: every shared operation keeps the bounds and the queue of commands. -/
namespace Sys2Proof.Machine
open Sys2Proof


/-! ### Steps of a hire keep it within the cap (R34, R35) -/

theorem HireRecord.RunningOk.stepCharge {r : HireRecord} (h : r.RunningOk) (b : Band) (k : StepKind) :
    (stepCharge b k r).RunningOk := by
  obtain ⟨h1, h2, h3, h4⟩ := h
  have hm : (b.stepAmount k * b.factor r.level + r.carry) % 1000 < 1000 := Nat.mod_lt _ (by decide)
  unfold Machine.stepCharge
  dsimp only
  split
  · exact ⟨h1, by show (0 : Nat) ≤ 999; decide, h3, h4⟩
  · split
    · refine ⟨?_, by show (0 : Nat) ≤ 999; decide, ?_, ?_⟩
      · cases k <;>
          simp only [HireRecord.running, HireRecord.addCharge, HireRecord.extrasSum, fareCap] at h1 ⊢ <;> omega
      · cases k <;> exact h3
      · cases k <;> exact h4
    · rename_i _ hc
      refine ⟨?_, ?_, ?_, ?_⟩
      · cases k <;>
          simp only [HireRecord.running, HireRecord.addCharge, HireRecord.extrasSum] at hc h1 ⊢ <;> omega
      · show _ % 1000 ≤ 999
        omega
      · cases k <;> exact h3
      · cases k <;> exact h4

theorem HireRecord.RunningOk.stepTimes (b : Band) (k : StepKind) (n : Nat) :
    ∀ {r : HireRecord}, r.RunningOk → (stepTimes b k n r).RunningOk := by
  induction n with
  | zero => exact fun h => h
  | succ n ih => exact fun h => ih (h.stepCharge b k)

theorem HireRecord.RunningOk.takeSteps {r : HireRecord} (h : r.RunningOk) (sn : Snapshot) :
    (r.takeSteps sn).RunningOk := by
  unfold HireRecord.takeSteps
  apply HireRecord.RunningOk.stepTimes
  have h1 : ({ r with accD := r.accD % sn.threshold } : HireRecord).RunningOk := h
  exact h1.stepTimes sn.band .distance _

theorem HireRecord.RunningOk.creditSlot {r : HireRecord} (h : r.RunningOk) (b : Band) (p : Nat) :
    (r.creditSlot b p).RunningOk := by
  unfold HireRecord.creditSlot
  split
  · split <;> exact h
  · exact h

theorem Hire.slotEnd_runningOk {h : Hire} (hr : h.rc.RunningOk) (tally n sum seconds : Nat) (fault : Bool) :
    (h.slotEnd tally n sum seconds fault).rc.RunningOk := by
  have h1 : ({ h.rc with level := n } : HireRecord).RunningOk := hr
  exact (h1.creditSlot h.snap.band (min tally h.snap.pmax)).takeSteps h.snap

/-! ### The due is within the cap (R39, R40) -/

theorem HireRecord.RunningOk.fixDue {r : HireRecord} (h : r.RunningOk) (fmin : Nat) (stop : Option Nat) :
    ({ r.fixDue fmin with stop := stop } : HireRecord).StoppedOk := by
  obtain ⟨h1, h2, h3, h4⟩ := h
  refine ⟨?_, h4⟩
  have ht : r.tenders.length ≤ 3 := by rw [h4]; exact Nat.zero_le _
  simp only [HireRecord.running, HireRecord.extrasSum, fareCap] at h1
  refine ⟨?_, ?_, h2, h3, ht⟩
  · simp only [HireRecord.fixDue, HireRecord.total, HireRecord.running, HireRecord.extrasSum, Option.getD_some]
    rw [Option.some_inj]
    omega
  · simp only [HireRecord.fixDue, HireRecord.total, HireRecord.running, HireRecord.extrasSum, Option.getD_some, fareCap]
    obtain ⟨x, hx⟩ : ∃ x, x = (r.extras.map (·.2)).sum := ⟨_, rfl⟩
    simp only [← hx] at h1 ⊢
    by_cases hc : 500 ≤ r.carry
    · by_cases ho : 999999 < r.flagFall + r.distCharge + r.timeCharge + 1 + x
      · simp only [hc, ho, if_true, beq_self_eq_true, decide_true, Bool.and_self, Nat.add_zero, Bool.and_eq_true,
          decide_eq_true_eq]
        split <;> omega
      · simp only [hc, ho, if_true, beq_self_eq_true, decide_false, Bool.and_false, Bool.and_eq_true,
          decide_eq_true_eq, Bool.false_eq_true, if_false]
        split <;> omega
    · simp only [hc, if_false, Bool.and_eq_true, decide_eq_true_eq]
      split <;> split <;> omega

/-! ### The log -/

theorem appendCapped_length {α : Type} (n : Nat) (xs : List α) (x : α) (h : 1 ≤ n) :
    (appendCapped n xs x).length ≤ n := by
  simp only [appendCapped, List.length_drop, List.length_append, List.length_singleton]
  omega

theorem mem_appendCapped {α : Type} {n : Nat} {xs : List α} {x a : α} (h : a ∈ appendCapped n xs x) : a ∈ xs ∨ a = x := by
  have := List.mem_of_mem_drop h
  simpa using this

theorem State.detachTalk_ok {w : List Instr} {s : State} (hk : s.OkWith w) :
    (s.detachTalk).OkWith w := by
  unfold State.detachTalk
  all_goals (repeat' (first | exact hk | assumption | apply State.onIntercom_ok | exact fun hh => hh))

theorem State.offerTaken_ok {w : List Instr} {s : State} (hk : s.OkWith w) (o : Offer) : (s.offerTaken o).OkWith w := by
  unfold State.offerTaken
  split
  case h_6 =>
    dsimp only
    split
    · exact onLink_ok (onPeer_ok (onHire_ok hk fun hh => hh)) fun hh => hh.refresh _
    · exact onHire_ok hk fun hh => hh
  all_goals first
    | exact hk
    | exact onHire_ok hk fun hh => hh
    | exact onIntercom_ok hk fun hh => hh
    | exact onShift_ok hk
    | exact onPrint_ok hk fun hh => hh

theorem State.offerRefused_ok {w : List Instr} {s : State} (hk : s.OkWith w) (x0 : Offer) :
    (s.offerRefused x0).OkWith w := by
  unfold State.offerRefused
  try dsimp only
  repeat' split
  all_goals (repeat' (first | exact hk | assumption | apply State.command_ok | apply State.onConsole_ok | apply State.detachTalk_ok | apply State.onShift_ok | apply State.onPrint_ok | exact fun hh => hh))

theorem State.tryOffer_ok {w : List Instr} {s : State} (hk : s.OkWith w) (o : Offer) : (s.tryOffer o).OkWith w := by
  unfold State.tryOffer
  split
  · exact hk
  · split
    · rename_i ho
      exact offerTaken_ok (onLink_ok hk fun hh => hh.offer ho) o
    · exact offerRefused_ok hk o

theorem flushFree_ok {w : List Instr} (n : Nat) :
    ∀ (os : List Offer) {s : State}, s.OkWith w → (flushFree n os s).OkWith w := by
  induction n with
  | zero => intro os s hk; exact hk
  | succ n ih =>
    intro os s hk
    match os with
    | [] => exact hk
    | [o] => exact State.tryOffer_ok hk o
    | a :: b :: rest => exact ih _ (State.tryOffer_ok (State.now_ok hk s.offers (s.free + 1)) _)

theorem tryAll_ok {w : List Instr} (os : List Offer) :
    ∀ {s : State}, s.OkWith w → (os.foldl State.tryOffer s).OkWith w := by
  induction os with
  | nil => intro s hk; exact hk
  | cons o os ih => intro s hk; exact ih (State.tryOffer_ok hk o)

theorem State.flushOffers_ok {w : List Instr} {s : State} (hk : s.OkWith w) : s.flushOffers.OkWith w := by
  unfold State.flushOffers
  dsimp only
  split
  · exact tryAll_ok _ (State.now_ok hk [] s.free)
  · exact flushFree_ok _ _ (State.now_ok hk [] s.free)

theorem State.account_ok {w : List Instr} {s : State} (hk : s.OkWith w) (f : Accum → Accum) :
    (s.account f).OkWith w := by
  unfold State.account
  repeat' split
  all_goals (repeat' (first | exact hk | assumption | apply State.onShift_ok | exact fun hh => hh))

theorem State.reportLampFault_ok {w : List Instr} {s : State} (hk : s.OkWith w) :
    (s.reportLampFault).OkWith w := by
  unfold State.reportLampFault
  all_goals (repeat' (first | exact hk | assumption | apply State.account_ok | exact fun hh => hh))

theorem State.reportSignSilent_ok {w : List Instr} {s : State} (hk : s.OkWith w) :
    (s.reportSignSilent).OkWith w := by
  unfold State.reportSignSilent
  all_goals (repeat' (first | exact hk | assumption | apply State.account_ok | exact fun hh => hh))

theorem State.reportStanding_ok {w : List Instr} {s : State} (hk : s.OkWith w) :
    (s.reportStanding).OkWith w := by
  unfold State.reportStanding
  try dsimp only
  repeat' split
  all_goals (repeat' (first | exact hk | assumption | apply State.reportLampFault_ok | apply State.reportSignSilent_ok | exact fun hh => hh))

theorem State.sendShift_ok {w : List Instr} {s : State} (hk : s.OkWith w) (f : ShiftFrame) :
    (s.sendShift f).OkWith w := by
  unfold State.sendShift
  repeat' split
  all_goals (repeat' (first | exact hk | assumption | apply State.onShift_ok | apply State.offer_ok | exact fun hh => hh))

theorem State.closeShift_ok {w : List Instr} {s : State} (hk : s.OkWith w) (mark : CloseMark) :
    (s.closeShift mark).OkWith w := by
  unfold State.closeShift
  all_goals (repeat' (first | exact hk | assumption | apply State.onShift_ok | exact fun hh => hh))

theorem State.adoptShift_ok {w : List Instr} {s : State} (hk : s.OkWith w) (number driver : Nat) (rejoin : Bool) :
    (s.adoptShift number driver rejoin).OkWith w :=
  onHire_ok (onShift_ok hk) fun hh => ⟨hh.1, hh.2.1, hh.2.2.1, Nat.le_refl 1, by show (1 : Nat) ≤ 9999; decide⟩

theorem State.startSummary_ok {w : List Instr} {s : State} (hk : s.OkWith w) (late : Bool) (parts : List SummaryPart) :
    (s.startSummary late parts).OkWith w := by
  unfold State.startSummary
  try dsimp only
  repeat' split
  all_goals (repeat' (first | exact hk | assumption | apply State.onShift_ok | apply State.offer_ok | exact fun hh => hh))

theorem State.startLateSummary_ok {w : List Instr} {s : State} (hk : s.OkWith w) :
    (s.startLateSummary).OkWith w := by
  unfold State.startLateSummary
  repeat' split
  all_goals (repeat' (first | exact hk | assumption | apply State.startSummary_ok | exact fun hh => hh))

theorem State.lateCloseIfDue_ok {w : List Instr} {s : State} (hk : s.OkWith w) : s.lateCloseIfDue.OkWith w := by
  unfold State.lateCloseIfDue
  split
  · split
    · exact adoptShift_ok (onShift_ok (startLateSummary_ok (closeShift_ok hk _))) _ _ _
    · exact hk
  · exact hk

theorem State.leaveClosing_ok {w : List Instr} {s : State} (hk : s.OkWith w) :
    (s.leaveClosing).OkWith w := by
  unfold State.leaveClosing
  all_goals (repeat' (first | exact hk | assumption | apply State.onShift_ok | exact fun hh => hh))

theorem State.summarySent_ok {w : List Instr} {s : State} (hk : s.OkWith w) (gen : Nat) (k : Nat) :
    (s.summarySent gen k).OkWith w := by
  unfold State.summarySent
  try dsimp only
  repeat' split
  all_goals (repeat' (first | exact hk | assumption | apply State.onShift_ok | apply State.offer_ok | exact fun hh => hh))

theorem State.lateSummarySent_ok {w : List Instr} {s : State} (hk : s.OkWith w) (gen : Nat) (k : Nat) :
    (s.lateSummarySent gen k).OkWith w := by
  unfold State.lateSummarySent
  try dsimp only
  repeat' split
  all_goals (repeat' (first | exact hk | assumption | apply State.onShift_ok | apply State.offer_ok | exact fun hh => hh))

theorem State.sendSign_ok {w : List Instr} {s : State} (hk : s.OkWith w) (m : SignMsg) :
    (s.sendSign m).OkWith w := by
  unfold State.sendSign
  try dsimp only
  repeat' split
  all_goals (repeat' (first | exact hk | assumption | apply State.onLines_ok | apply State.onSign_ok | exact fun hh => hh))

theorem State.dueSign_ok {w : List Instr} {s : State} (hk : s.OkWith w) (m : SignMsg) :
    (s.dueSign m).OkWith w := by
  unfold State.dueSign
  repeat' split
  all_goals (repeat' (first | exact hk | assumption | apply State.onSign_ok | apply State.sendSign_ok | exact fun hh => hh))

theorem State.endSignWait_ok {w : List Instr} {s : State} (hk : s.OkWith w) :
    (s.endSignWait).OkWith w := by
  unfold State.endSignWait
  try dsimp only
  repeat' split
  all_goals (repeat' (first | exact hk | assumption | apply State.onSign_ok | apply State.sendSign_ok | exact fun hh => hh))

theorem State.signUpdate_ok {w : List Instr} {s : State} (hk : s.OkWith w) :
    (s.signUpdate).OkWith w := by
  unfold State.signUpdate
  repeat' split
  all_goals (repeat' (first | exact hk | assumption | apply State.onSign_ok | apply State.dueSign_ok | exact fun hh => hh))

theorem State.settleEvent_ok {w : List Instr} {s : State} (hk : s.OkWith w) :
    (s.settleEvent).OkWith w := by
  unfold State.settleEvent
  all_goals (repeat' (first | exact hk | assumption | apply State.lateCloseIfDue_ok | apply State.flushOffers_ok | apply State.signUpdate_ok | exact fun hh => hh))

theorem State.fareSlotEnd_ok {w : List Instr} {s : State} (hk : s.OkWith w) (fault : Bool) :
    (s.fareSlotEnd fault).OkWith w := by
  unfold State.fareSlotEnd
  split
  · rename_i h heq
    dsimp only
    refine onHire_ok hk fun hh => ⟨?_, hh.2⟩
    have h1 : h.rc.RunningOk := by have := hh.1; rwa [heq] at this
    exact Hire.slotEnd_runningOk h1 _ _ _ _ _
  all_goals exact hk

theorem State.sayEvent_ok {w : List Instr} {s : State} (hk : s.OkWith w) (e : IntercomEvent) :
    (s.sayEvent e).OkWith w := by
  unfold State.sayEvent
  repeat' split
  all_goals (repeat' (first | exact hk | assumption | apply State.onIntercom_ok | apply State.offer_ok | exact fun hh => hh))

theorem State.talkHeld_ok {w : List Instr} {s : State} (hk : s.OkWith w) (t : Addr) :
    (s.talkHeld t).OkWith w := by
  unfold State.talkHeld
  repeat' split
  all_goals (repeat' (first | exact hk | assumption | apply State.onIntercom_ok | exact fun hh => hh))

theorem State.talkFreed_ok {w : List Instr} {s : State} (hk : s.OkWith w) (t : Addr) :
    (s.talkFreed t).OkWith w := by
  unfold State.talkFreed
  repeat' split
  all_goals (repeat' (first | exact hk | assumption | apply State.onIntercom_ok | exact fun hh => hh))

theorem State.saySpeakerHeld_ok {w : List Instr} {s : State} (hk : s.OkWith w) :
    (s.saySpeakerHeld).OkWith w := by
  unfold State.saySpeakerHeld
  repeat' split
  all_goals (repeat' (first | exact hk | assumption | apply State.talkHeld_ok | apply State.sayEvent_ok | exact fun hh => hh))

theorem State.saySpeakerFree_ok {w : List Instr} {s : State} (hk : s.OkWith w) :
    (s.saySpeakerFree).OkWith w := by
  unfold State.saySpeakerFree
  repeat' split
  all_goals (repeat' (first | exact hk | assumption | apply State.talkFreed_ok | apply State.sayEvent_ok | exact fun hh => hh))

theorem State.idleEnd_ok {w : List Instr} {s : State} (hk : s.OkWith w) :
    (s.idleEnd).OkWith w := by
  unfold State.idleEnd
  all_goals (repeat' (first | exact hk | assumption | apply State.onIntercom_ok | exact fun hh => hh))

theorem State.enterEnd_ok {w : List Instr} {s : State} (hk : s.OkWith w) (was : HeldState) :
    (s.enterEnd was).OkWith w := by
  unfold State.enterEnd
  try dsimp only
  repeat' split
  all_goals (repeat' (first | exact hk | assumption | apply State.onIntercom_ok | apply State.saySpeakerHeld_ok | exact fun hh => hh))

theorem State.connectEnd_ok {w : List Instr} {s : State} (hk : s.OkWith w) :
    (s.connectEnd).OkWith w := by
  unfold State.connectEnd
  repeat' split
  all_goals (repeat' (first | exact hk | assumption | apply State.enterEnd_ok | apply State.saySpeakerHeld_ok | apply State.onIntercom_ok | exact fun hh => hh))

theorem State.disconnectEnd_ok {w : List Instr} {s : State} (hk : s.OkWith w) :
    (s.disconnectEnd).OkWith w := by
  unfold State.disconnectEnd
  repeat' split
  all_goals (repeat' (first | exact hk | assumption | apply State.idleEnd_ok | exact fun hh => hh))

theorem State.listenEnd_ok {w : List Instr} {s : State} (hk : s.OkWith w) :
    (s.listenEnd).OkWith w := by
  unfold State.listenEnd
  repeat' split
  all_goals (repeat' (first | exact hk | assumption | apply State.enterEnd_ok | apply State.onIntercom_ok | exact fun hh => hh))

theorem State.listenEndEnd_ok {w : List Instr} {s : State} (hk : s.OkWith w) :
    (s.listenEndEnd).OkWith w := by
  unfold State.listenEndEnd
  repeat' split
  all_goals (repeat' (first | exact hk | assumption | apply State.idleEnd_ok | exact fun hh => hh))

theorem State.raisePrompt_ok {w : List Instr} {s : State} (hk : s.OkWith w) :
    (s.raisePrompt).OkWith w := by
  unfold State.raisePrompt
  try dsimp only
  repeat' split
  all_goals (repeat' (first | exact hk | assumption | apply State.onIntercom_ok | apply State.saySpeakerHeld_ok | exact fun hh => hh))

theorem State.releasePrompt_ok {w : List Instr} {s : State} (hk : s.OkWith w) :
    (s.releasePrompt).OkWith w := by
  unfold State.releasePrompt
  try dsimp only
  repeat' split
  all_goals (repeat' (first | exact hk | assumption | apply State.onIntercom_ok | apply State.saySpeakerFree_ok | exact fun hh => hh))

theorem State.formCommand_ok {w : List Instr} {s : State} (hk : s.OkWith w) (t : Addr) (cmd : Cmd) :
    (s.formCommand t cmd).OkWith w := by
  have h16 : ∀ n : Nat, n % 16 < 16 := fun n => Nat.mod_lt n (by decide)
  unfold State.formCommand
  dsimp only
  split
  · exact onConsole_ok hk fun hh => ⟨h16 _, hh.2⟩
  · exact offer_ok (onConsole_ok hk fun hh => ⟨h16 _, hh.2⟩) _

/-- Setting the deferred commands of a target to at most two keeps the console's bounds (R176). -/
theorem Console.Ok.setDeferred {c : Console} (h : c.Ok) (t : Addr) (xs : List Cmd) (hx : xs.length ≤ 2) :
    ({ c with deferred := c.deferred.set t xs } : Console).Ok :=
  ⟨h.1, fun a => by
    show ((c.deferred.set t xs).get a).length ≤ 2
    rw [Quad.get_set]
    split
    · exact hx
    · exact h.2 a⟩

theorem State.leaveTalk_ok {w : List Instr} {s : State} (hk : s.OkWith w) (t : Addr) : (s.leaveTalk t).OkWith w := by
  unfold State.leaveTalk
  split
  · exact detachTalk_ok hk
  · exact hk

theorem State.consoleReply_ok {w : List Instr} {s : State} (hk : s.OkWith w) (t : Addr) (seq : Nat) (r : Reply) :
    (s.consoleReply t seq r).OkWith w := by
  unfold State.consoleReply
  try dsimp only
  repeat' split
  all_goals (repeat' (first | exact hk | assumption | apply State.onConsole_ok | apply State.leaveTalk_ok | exact fun hh => hh))

theorem State.endCommand_ok {w : List Instr} {s : State} (hk : s.OkWith w) (cmd : Cmd) : (s.endCommand cmd).OkWith w := by
  unfold State.endCommand
  split
  · exact disconnectEnd_ok hk
  · exact listenEnd_ok hk
  · exact listenEndEnd_ok hk
  · exact hk

theorem State.giveCommand_ok {w : List Instr} {s : State} (hk : s.OkWith w) (t : Addr) (cmd : Cmd) :
    (s.giveCommand t cmd).OkWith w := by
  unfold State.giveCommand
  dsimp only
  split
  · exact consoleReply_ok (endCommand_ok (formCommand_ok hk t cmd) cmd) _ _ _
  · exact formCommand_ok hk t cmd

theorem State.dueCommand_ok {w : List Instr} {s : State} (hk : s.OkWith w) (t : Addr) (cmd : Cmd) :
    (s.dueCommand t cmd).OkWith w := by
  unfold State.dueCommand
  split
  · exact giveCommand_ok hk t cmd
  · split
    · rename_i hl
      exact onConsole_ok hk fun hh => hh.setDeferred t _ (by
        simp only [List.length_append, List.length_singleton]; omega)
    · exact hk

theorem Intercom.Ok.filterQueue {i : Intercom} (h : i.Ok) (p : CallEntry → Bool) :
    ({ i with queue := i.queue.filter p } : Intercom).Ok :=
  ⟨h.1, Nat.le_trans (List.length_filter_le _ _) h.2.1, h.2.2.1.sublist (List.Sublist.map _ List.filter_sublist), h.2.2.2⟩

theorem State.dropCaller_ok {w : List Instr} {s : State} (hk : s.OkWith w) (a : Addr) : (s.dropCaller a).OkWith w :=
  onIntercom_ok hk fun hh => hh.filterQueue _

theorem State.endTalk_ok {w : List Instr} {s : State} (hk : s.OkWith w) (tell : Bool) :
    (s.endTalk tell).OkWith w := by
  unfold State.endTalk
  try dsimp only
  repeat' split
  all_goals (repeat' (first | exact hk | assumption | apply State.detachTalk_ok | apply State.dueCommand_ok | exact fun hh => hh))

theorem State.endTalkWith_ok {w : List Instr} {s : State} (hk : s.OkWith w) (t : Addr) (tell : Bool) :
    (s.endTalkWith t tell).OkWith w := by
  unfold State.endTalkWith
  repeat' split
  all_goals (repeat' (first | exact hk | assumption | apply State.endTalk_ok | exact fun hh => hh))

theorem State.noAnswer_ok {w : List Instr} {s : State} (hk : s.OkWith w) (t : Addr) :
    (s.noAnswer t).OkWith w := by
  unfold State.noAnswer
  try dsimp only
  repeat' split
  all_goals (repeat' (first | exact hk | assumption | apply State.onConsole_ok | apply State.endTalkWith_ok | exact fun hh => hh))

theorem State.markClaiming_ok {w : List Instr} {s : State} (hk : s.OkWith w) (t : Addr) (seq : Nat) :
    (s.markClaiming t seq).OkWith w := by
  unfold State.markClaiming
  repeat' split
  all_goals (repeat' (first | exact hk | assumption | apply State.onConsole_ok | exact fun hh => hh))

theorem State.replyTo_ok {w : List Instr} {s : State} (hk : s.OkWith w) (src : Source) (seq : Nat) (r : Reply) :
    (s.replyTo src seq r).OkWith w := by
  unfold State.replyTo
  repeat' split
  all_goals (repeat' (first | exact hk | assumption | apply State.consoleReply_ok | apply State.onHire_ok | apply State.offer_ok | exact fun hh => hh))

theorem State.refuse_ok {w : List Instr} {s : State} (hk : s.OkWith w) (src : Source) (seq : Nat) (r : Reason) :
    (s.refuse src seq r).OkWith w := by
  unfold State.refuse
  all_goals (repeat' (first | exact hk | assumption | apply State.replyTo_ok | exact fun hh => hh))

theorem State.sayHireEvent_ok {w : List Instr} {s : State} (hk : s.OkWith w) (e : HireEvent) :
    (s.sayHireEvent e).OkWith w := by
  unfold State.sayHireEvent
  repeat' split
  all_goals (repeat' (first | exact hk | assumption | apply State.onHire_ok | apply State.offer_ok | exact fun hh => hh))

theorem State.hireChanged_ok {w : List Instr} {s : State} (hk : s.OkWith w) :
    (s.hireChanged).OkWith w := by
  unfold State.hireChanged
  all_goals (repeat' (first | exact hk | assumption | apply State.onDisplay_ok | exact fun hh => hh))

theorem State.freeSlot_ok {w : List Instr} {s : State} (hk : s.OkWith w) : s.freeSlot.OkWith w :=
  onHire_ok hk fun hh => ⟨trivial, hh.2⟩

theorem State.endClaim_ok {w : List Instr} {s : State} (hk : s.OkWith w) (c : Claim) (r : Reason) :
    (s.endClaim c r).OkWith w := by
  unfold State.endClaim
  all_goals (repeat' (first | exact hk | assumption | apply State.freeSlot_ok | apply State.refuse_ok | exact fun hh => hh))

theorem State.openClaim_ok {w : List Instr} {s : State} (hk : s.OkWith w) (kind : Kind) (party seq : Nat) (src : Source) :
    (s.openClaim kind party seq src).OkWith w :=
  State.offer_ok (State.onHire_ok (f := fun h => { h with
    slot := .claiming { kind := kind, party := party, seq := seq, src := src, id := h.claimId
                        sent := false, window := none }
    claimHeld := true
    claimId := h.claimId + 1 }) hk fun hh => ⟨trivial, hh.2⟩) _

theorem State.sendObject_ok {w : List Instr} {s : State} (hk : s.OkWith w) (t : Addr) :
    (s.sendObject t).OkWith w := by
  unfold State.sendObject
  repeat' split
  all_goals (repeat' (first | exact hk | assumption | apply State.onHire_ok | apply State.offer_ok | exact fun hh => hh))

theorem State.conflictTest_ok {w : List Instr} {s : State} (hk : s.OkWith w) : s.conflictTest.OkWith w := by
  unfold State.conflictTest
  split
  · rename_i h heq
    split
    · refine onHire_ok hk fun hh => ⟨?_, hh.2⟩
      have h1 : h.rc.RunningOk := by have := hh.1; rwa [heq] at this
      exact h1
    · exact hk
  all_goals exact hk

theorem State.closeHire_ok {w : List Instr} {s : State} (hk : s.OkWith w) (h : Hire) (o : HireOutcome)
    (hd : o = .cancelled ∨ h.rc.due.getD 0 ≤ fareCap) : (s.closeHire h o).OkWith w := by
  unfold State.closeHire
  refine sayHireEvent_ok (freeSlot_ok (account_ok (onHire_ok hk fun hh => ?_) _)) _
  refine ⟨hh.1, appendCapped_length 32 _ _ (by decide), ?_, hh.2.2.2⟩
  intro r hr
  rcases mem_appendCapped hr with hr | rfl
  · exact hh.2.2.1 r hr
  · by_cases ho : o = .cancelled
    · simp [Hire.closed, ho]
    · simpa [Hire.closed, ho] using hd.resolve_left ho

theorem HireRecord.DueOk.due_le {r : HireRecord} (h : r.DueOk) : r.due.getD 0 ≤ fareCap := by
  rw [h.1]; exact h.2.1

theorem State.toPaying_ok {w : List Instr} {s : State} (hk : s.OkWith w) : s.toPaying.OkWith w := by
  unfold State.toPaying
  split
  · rename_i h heq
    refine onHire_ok hk fun hh => ⟨?_, hh.2⟩
    have := hh.1
    rw [heq] at this
    exact this.1
  all_goals exact hk

theorem State.applyTender_ok {w : List Instr} {s : State} (hk : s.OkWith w) (t : Tender) : (s.applyTender t).OkWith w := by
  unfold State.applyTender
  split
  · rename_i h heq
    have h0 : h.rc.DueOk := by have := hk.1.hire.1; rwa [heq] at this
    split
    · rename_i hl
      dsimp only
      split
      · exact closeHire_ok hk _ _ (Or.inr h0.due_le)
      · refine onHire_ok hk fun hh => ⟨?_, hh.2⟩
        refine ⟨h0.1, h0.2.1, h0.2.2.1, h0.2.2.2.1, ?_⟩
        show (h.rc.tenders ++ [t]).length ≤ 3
        simp only [List.length_append, List.length_singleton]
        omega
    · exact hk
  all_goals exact hk

theorem State.settleNow_ok {w : List Instr} {s : State} (hk : s.OkWith w) : s.settleNow.OkWith w := by
  unfold State.settleNow
  have hp := toPaying_ok hk
  split
  · rename_i h heq
    have h0 : h.rc.DueOk := by have := hp.1.hire.1; rwa [heq] at this
    exact closeHire_ok hp _ _ (Or.inr h0.due_le)
  all_goals exact hk

theorem succHireNo_range (n : Nat) : 1 ≤ succHireNo n ∧ succHireNo n ≤ 9999 := by
  unfold succHireNo
  split <;> omega

theorem State.enterHired_ok {w : List Instr} {s : State} (hk : s.OkWith w) (c : Claim) (bandIdx : Nat) (sn : Snapshot)
    (hb : sn.band.fb ≤ fareCap) : (s.enterHired c bandIdx sn).OkWith w := by
  unfold State.enterHired
  refine replyTo_ok (sayHireEvent_ok (hireChanged_ok (onHire_ok hk fun hh => ?_)) _) _ _ _
  refine ⟨⟨?_, by show (0 : Nat) ≤ 999; decide, by show (0 : Nat) ≤ 6; decide, rfl⟩, hh.2.1, hh.2.2.1, succHireNo_range _⟩
  simpa [HireRecord.running, formRecord, HireRecord.extrasSum] using hb

/-- The flag-fall of the band in force is far below the cap (R64). -/
theorem State.bandNow_fb {s : State} (hi : ImageOk s.image) {i : Nat} {sn : Snapshot} (h : s.bandNow = some (i, sn)) :
    sn.band.fb ≤ fareCap := by
  unfold State.bandNow at h
  obtain ⟨im, him, h⟩ := Option.bind_eq_some_iff.1 h
  dsimp only at h
  obtain ⟨b, hb, h⟩ := Option.map_eq_some_iff.1 h
  have hm : some b ∈ im.bands := by
    obtain ⟨x, hx, hxb⟩ := Option.bind_eq_some_iff.1 (by simpa [Option.join] using hb)
    cases hxb
    exact List.mem_of_getElem? hx
  have ho := hi im him b hm
  cases h
  unfold bandOk at ho
  simp only [Bool.and_eq_true, decide_eq_true_eq] at ho
  show b.fb ≤ 999999
  omega

theorem State.endWindow_ok {w : List Instr} {s : State} (hk : s.OkWith w) (c : Claim) : (s.endWindow c).OkWith w := by
  unfold State.endWindow
  split
  · exact endClaim_ok hk _ _
  · split
    · rename_i hb
      exact enterHired_ok hk _ _ _ (bandNow_fb hk.1.image hb)
    · exact endClaim_ok hk _ _

theorem State.sendCard_ok {w : List Instr} {s : State} (hk : s.OkWith w) (q : CardReq) :
    (s.sendCard q).OkWith w := by
  unfold State.sendCard
  all_goals (repeat' (first | exact hk | assumption | apply State.onLines_ok | apply State.onCard_ok | exact fun hh => hh))

theorem State.showOutcome_ok {w : List Instr} {s : State} (hk : s.OkWith w) (o : ShownOutcome) :
    (s.showOutcome o).OkWith w := by
  unfold State.showOutcome
  repeat' split
  all_goals (repeat' (first | exact hk | assumption | apply State.onDisplay_ok | apply State.onIntercom_ok | exact fun hh => hh))

theorem State.showChange_ok {w : List Instr} {s : State} (hk : s.OkWith w) (change : Nat) :
    (s.showChange change).OkWith w := by
  unfold State.showChange
  all_goals (repeat' (first | exact hk | assumption | apply State.onDisplay_ok | exact fun hh => hh))

theorem State.endSession_ok {w : List Instr} {s : State} (hk : s.OkWith w) : s.endSession.OkWith w :=
  onPay_ok hk fun hh => ⟨hh.1, fun h => Bool.noConfusion h⟩

theorem State.endWith_ok {w : List Instr} {s : State} (hk : s.OkWith w) (o : ShownOutcome) :
    (s.endWith o).OkWith w := by
  unfold State.endWith
  all_goals (repeat' (first | exact hk | assumption | apply State.endSession_ok | apply State.showOutcome_ok | exact fun hh => hh))

theorem State.endQuietly_ok {w : List Instr} {s : State} (hk : s.OkWith w) :
    (s.endQuietly).OkWith w := by
  unfold State.endQuietly
  all_goals (repeat' (first | exact hk | assumption | apply State.endSession_ok | apply State.releasePrompt_ok | exact fun hh => hh))

theorem State.formRequest_ok {w : List Instr} {s : State} (hk : s.OkWith w) (h : Hire)
    (hr : s.pay.reversals.length ≤ 3) : (s.formRequest h).OkWith w := by
  unfold State.formRequest
  split
  · exact endWith_ok hk _
  · exact endWith_ok hk _
  · exact onPay_ok hk fun hh => ⟨hh.1, fun _ => hr⟩

theorem State.beginSession_ok {w : List Instr} {s : State} (hk : s.OkWith w) (h : Hire)
    (hr : s.pay.reversals.length ≤ 3) : (s.beginSession h).OkWith w := by
  unfold State.beginSession
  split
  · exact raisePrompt_ok (onPay_ok hk fun hh => ⟨hh.1, fun _ => hr⟩)
  · dsimp only
    split
    · exact raisePrompt_ok (formRequest_ok hk h hr)
    · exact formRequest_ok hk h hr

theorem State.storeTip_ok {w : List Instr} {s : State} (hk : s.OkWith w) (pct : Nat)
    (hr : s.pay.reversals.length ≤ 3) : (s.storeTip pct).OkWith w := by
  unfold State.storeTip
  split
  · rename_i h heq
    dsimp only
    refine formRequest_ok (hireChanged_ok (onHire_ok hk fun hh => ⟨?_, hh.2⟩)) _ hr
    have := hh.1
    rw [heq] at this
    exact this
  all_goals exact hk

theorem State.inDoubt_ok {w : List Instr} {s : State} (hk : s.OkWith w) (x : CardSession)
    (hr : s.pay.reversals.length ≤ 3) : (s.inDoubt x).OkWith w := by
  unfold State.inDoubt
  dsimp only
  refine showOutcome_ok (onCard_ok ?_ fun hh => hh) _
  have hp : s.pay.Ok := hk.1.pay
  refine ⟨{ hk.1 with pay := ⟨?_, fun h => Bool.noConfusion h⟩ }, hk.2⟩
  show (s.pay.reversals ++ [_]).length ≤ 4
  simp only [List.length_append, List.length_singleton]
  omega

theorem State.toEnquiry_ok {w : List Instr} {s : State} (hk : s.OkWith w) (x : CardSession)
    (hr : s.pay.reversals.length ≤ 3) : (s.toEnquiry x).OkWith w :=
  onPay_ok hk fun hh => ⟨hh.1, fun _ => hr⟩

theorem State.requestCancel_ok {w : List Instr} {s : State} (hk : s.OkWith w) : s.requestCancel.OkWith w := by
  refine onPay_ok hk fun hh => ⟨hh.1, fun h => hh.2 ?_⟩
  revert h
  cases s.pay.session <;> exact fun h => h

/-- A session with a card request is active. -/
theorem Session.active_of_card {x : Session} {c : CardSession} (h : x.card? = some c) : x.active = true := by
  cases x <;> first | rfl | cases h

/-- An active session leaves room for one more reversal (R131, R141). -/
theorem State.OkWith.room {w : List Instr} {s : State} (hk : s.OkWith w) {c : CardSession}
    (h : s.pay.session.card? = some c) : s.pay.reversals.length ≤ 3 :=
  hk.1.pay.2 (Session.active_of_card h)

theorem State.addJob_ok {w : List Instr} {s : State} (hk : s.OkWith w) (j : Job) (hf : s.print.full = false) :
    (s.addJob j).OkWith w :=
  onPrint_ok hk fun hh => ⟨by
    have hl : ¬ jobSize ≤ s.print.jobs.length := by simpa [Print.full] using hf
    show (s.print.jobs ++ [j]).length ≤ jobSize
    simp only [List.length_append, List.length_singleton]
    omega, hh.2⟩

theorem State.offerReport_ok {w : List Instr} {s : State} (hk : s.OkWith w) : s.offerReport.OkWith w := by
  unfold State.offerReport
  split
  · exact onClose_ok hk
  · rename_i h
    exact addJob_ok (onClose_ok hk) _ (by simpa using h)

theorem State.offerSlip_ok {w : List Instr} {s : State} (hk : s.OkWith w) (a : Addr) : (s.offerSlip a).OkWith w := by
  unfold State.offerSlip
  split
  · exact onClose_ok hk
  · rename_i h
    exact addJob_ok (onClose_ok hk) _ (by simpa using h)

theorem State.closeDone_ok {w : List Instr} {s : State} (hk : s.OkWith w) :
    (s.closeDone).OkWith w := by
  unfold State.closeDone
  try dsimp only
  all_goals (repeat' (first | exact hk | assumption | apply State.onClose_ok | apply State.sendShift_ok | apply State.closeShift_ok | apply State.onShift_ok | apply State.offerReport_ok | exact fun hh => hh))

theorem State.completionTest_ok {w : List Instr} {s : State} (hk : s.OkWith w) :
    (s.completionTest).OkWith w := by
  unfold State.completionTest
  repeat' split
  all_goals (repeat' (first | exact hk | assumption | apply State.closeDone_ok | exact fun hh => hh))

theorem State.callSent_ok {w : List Instr} {s : State} (hk : s.OkWith w) :
    (s.callSent).OkWith w := by
  unfold State.callSent
  repeat' split
  all_goals (repeat' (first | exact hk | assumption | apply State.collect_ok | apply State.onClose_ok | apply State.completionTest_ok | exact fun hh => hh))

theorem State.abandonClose_ok {w : List Instr} {s : State} (hk : s.OkWith w) :
    (s.abandonClose).OkWith w := by
  unfold State.abandonClose
  all_goals (repeat' (first | exact hk | assumption | apply State.onClose_ok | apply State.leaveClosing_ok | apply State.sendShift_ok | exact fun hh => hh))

theorem State.startCollect_ok {w : List Instr} {s : State} (hk : s.OkWith w) (rows : Quad CloseRow) (forced : Bool) :
    (s.startCollect rows forced).OkWith w := by
  unfold State.startCollect
  repeat' split
  all_goals (repeat' (first | exact hk | assumption | apply State.onClose_ok | apply State.onShift_ok | apply State.sendShift_ok | exact fun hh => hh))

theorem State.endTransfer_ok {w : List Instr} {s : State} (hk : s.OkWith w) (st : TransferState) :
    (s.endTransfer st).OkWith w := by
  unfold State.endTransfer
  all_goals (repeat' (first | exact hk | assumption | apply State.onPrint_ok | exact fun hh => hh))

theorem State.loseTransfer_ok {w : List Instr} {s : State} (hk : s.OkWith w) :
    (s.loseTransfer).OkWith w := by
  unfold State.loseTransfer
  repeat' split
  all_goals (repeat' (first | exact hk | assumption | apply State.endTransfer_ok | exact fun hh => hh))

theorem Link.Ok.silent (l : Link) (h : l.Ok) :
    ({ l with queue := [], repl := none, clash := true, pause := none } : Link).Ok :=
  ⟨Nat.zero_le _, List.Pairwise.nil, Nat.zero_le _, Nat.zero_le _, Nat.zero_le _, fun _ => rfl, fun _ => rfl, h.2.2.2.2.2.2.2⟩

theorem State.silenceLink_ok {w : List Instr} {s : State} (hk : s.OkWith w) : s.silenceLink.OkWith w :=
  onPrint_ok (onShift_ok (onIntercom_ok (onHire_ok (onLink_ok hk fun hh => hh.silent) fun hh => hh) fun hh => hh))
    fun hh => hh

theorem State.silenceClaim_ok {w : List Instr} {s : State} (hk : s.OkWith w) :
    (s.silenceClaim).OkWith w := by
  unfold State.silenceClaim
  repeat' split
  all_goals (repeat' (first | exact hk | assumption | apply State.endClaim_ok | exact fun hh => hh))

theorem State.clashNow_ok {w : List Instr} {s : State} (hk : s.OkWith w) :
    (s.clashNow).OkWith w := by
  unfold State.clashNow
  repeat' split
  all_goals (repeat' (first | exact hk | assumption | apply State.silenceLink_ok | apply State.silenceClaim_ok | apply State.onDistress_ok | apply State.loseTransfer_ok | apply State.callSent_ok | exact fun hh => hh))

theorem State.heardFrame_ok {w : List Instr} {s : State} (hk : s.OkWith w) : s.heardFrame.OkWith w :=
  onLink_ok hk fun hh => ⟨hh.1, hh.2.1, hh.2.2.1, hh.2.2.2.1, hh.2.2.2.2.1, fun h => Bool.noConfusion h,
    hh.2.2.2.2.2.2.1, Nat.zero_le _⟩

theorem State.hear_ok {w : List Instr} {s : State} (hk : s.OkWith w) (sender : Addr) (f : State → State) (hf : ∀ t : State, t.OkWith w → (f t).OkWith w) :
    (s.hear sender f).OkWith w := by
  unfold State.hear
  repeat' split
  all_goals (repeat' (first | exact hk | assumption | apply State.clashNow_ok | apply State.heardFrame_ok | apply hf | exact fun hh => hh))

theorem State.markHanded_ok {w : List Instr} {s : State} (hk : s.OkWith w) (seq : Nat) :
    (s.markHanded seq).OkWith w := by
  unfold State.markHanded
  repeat' split
  all_goals (repeat' (first | exact hk | assumption | apply State.onConsole_ok | exact fun hh => hh))

theorem State.command_ok {w : List Instr} {s : State} (hk : s.OkWith w) (src : Source) (seq : Nat) (f : State → State)
    (hf : ∀ t : State, t.OkWith w → (f t).OkWith w) : (s.command src seq f).OkWith w := by
  unfold State.command
  split
  · split
    · exact hf _ (markHanded_ok hk seq)
    · exact hk
  · refine hear_ok hk _ _ fun t ht => ?_
    split
    · exact hf _ ht
    · exact ht

theorem State.fromConsole_ok {w : List Instr} {s : State} (hk : s.OkWith w) (sender : Addr) (f : State → State) (hf : ∀ t : State, t.OkWith w → (f t).OkWith w) :
    (s.fromConsole sender f).OkWith w := by
  unfold State.fromConsole
  repeat' split
  all_goals (repeat' (first | exact hk | assumption | apply hf | exact fun hh => hh))

theorem State.atConsole_ok {w : List Instr} {s : State} (hk : s.OkWith w) (f : State → State) (hf : ∀ t : State, t.OkWith w → (f t).OkWith w) :
    (s.atConsole f).OkWith w := by
  unfold State.atConsole
  repeat' split
  all_goals (repeat' (first | exact hk | assumption | apply hf | exact fun hh => hh))

end Sys2Proof.Machine
end

