-- ==== Sys2Proof/Laws/KeepsMeanings.lean ====
section
/-! SUPPORT. For each operation: every command's operation keeps the bounds and the queue of commands. -/
namespace Sys2Proof.Machine
open Sys2Proof


/-- What the bounds say of the hire in the slot. -/
theorem State.OkWith.slot {w : List Instr} {s : State} (hk : s.OkWith w) {sl : Slot} (h : s.hire.slot = sl) : sl.Ok := by
  rw [← h]; exact hk.1.hire.1

theorem HireRecord.StoppedOk.running {r : HireRecord} (h : r.StoppedOk) : r.RunningOk :=
  ⟨Nat.le_trans (Nat.le_trans (Nat.le_add_right _ _) (Nat.le_add_right _ _)) h.1.2.1, h.1.2.2.1, h.1.2.2.2.1, h.2⟩

/-- A change of the record that no bound reads keeps the slot's bounds. -/
theorem Slot.Ok.mapHire {sl : Slot} (h : sl.Ok) (f : Hire → Hire) (h1 : ∀ x, x.rc.RunningOk → (f x).rc.RunningOk)
    (h2 : ∀ x, x.rc.StoppedOk → (f x).rc.StoppedOk) (h3 : ∀ x, x.rc.DueOk → (f x).rc.DueOk) : (sl.mapHire f).Ok := by
  cases sl with
  | free => trivial
  | claiming c => trivial
  | hired x => exact h1 x h
  | stopped x => exact h2 x h
  | paying x => exact h3 x h

theorem State.takeHire_ok {w : List Instr} {s : State} (hk : s.OkWith w) (src : Source) (seq : Nat) (kind : Kind) (party : Nat) :
    (s.takeHire src seq kind party).OkWith w := by
  unfold State.takeHire
  repeat' split
  all_goals (repeat' (first | exact hk | assumption | apply State.refuse_ok | apply State.openClaim_ok | exact fun hh => hh))

theorem State.takeStop_ok {w : List Instr} {s : State} (hk : s.OkWith w) (src : Source) (seq : Nat) :
    (s.takeStop src seq).OkWith w := by
  unfold State.takeStop
  split
  · rename_i h heq
    dsimp only
    refine replyTo_ok (sayHireEvent_ok (hireChanged_ok (onHire_ok hk fun hh => ?_)) _) _ _ _
    exact ⟨HireRecord.RunningOk.fixDue (hk.slot heq) _ _, hh.2⟩
  all_goals exact refuse_ok hk _ _ _

theorem State.takeResume_ok {w : List Instr} {s : State} (hk : s.OkWith w) (src : Source) (seq : Nat) :
    (s.takeResume src seq).OkWith w := by
  unfold State.takeResume
  split
  · rename_i h heq
    split
    · exact refuse_ok hk _ _ _
    · dsimp only
      refine replyTo_ok (sayHireEvent_ok (hireChanged_ok (onHire_ok hk fun hh => ?_)) _) _ _ _
      have h0 : h.rc.StoppedOk := hk.slot heq
      exact ⟨h0.running, hh.2⟩
  all_goals exact refuse_ok hk _ _ _

theorem State.takeCancel_ok {w : List Instr} {s : State} (hk : s.OkWith w) (src : Source) (seq : Nat) :
    (s.takeCancel src seq).OkWith w := by
  unfold State.takeCancel
  split
  · split
    · exact replyTo_ok (closeHire_ok hk _ _ (Or.inl rfl)) _ _ _
    · exact refuse_ok hk _ _ _
  all_goals exact refuse_ok hk _ _ _

theorem State.closeUnpaid_ok {w : List Instr} {s : State} (hk : s.OkWith w) (h : Hire) (src : Source) (seq : Nat)
    (hd : h.rc.DueOk) : (s.closeUnpaid h src seq).OkWith w := by
  unfold State.closeUnpaid
  split
  · exact refuse_ok hk _ _ _
  · have h1 : (h.mapRec HireRecord.leaveUnpaid).rc.due.getD 0 ≤ fareCap := hd.due_le
    exact replyTo_ok (closeHire_ok hk _ _ (Or.inr h1)) _ _ _

theorem State.takeUnpaid_ok {w : List Instr} {s : State} (hk : s.OkWith w) (src : Source) (seq : Nat) :
    (s.takeUnpaid src seq).OkWith w := by
  unfold State.takeUnpaid
  split
  · rename_i h heq
    have h0 : h.rc.StoppedOk := hk.slot heq
    exact closeUnpaid_ok hk _ _ _ h0.1
  · rename_i h heq
    exact closeUnpaid_ok hk _ _ _ (hk.slot heq)
  all_goals exact refuse_ok hk _ _ _

/-- Extras of a hire with these amounts, at most 6 and within the cap. -/
theorem State.extrasHired_ok {w : List Instr} {s : State} (hk : s.OkWith w) (h : Hire) (extras : List (Nat × Nat))
    (hr : ({ h.rc with extras := extras } : HireRecord).RunningOk) : (s.extrasHired h extras).OkWith w :=
  hireChanged_ok (onHire_ok hk fun hh => ⟨hr, hh.2⟩)

theorem State.extrasStopped_ok {w : List Instr} {s : State} (hk : s.OkWith w) (h : Hire) (extras : List (Nat × Nat))
    (hr : ({ h.rc with extras := extras } : HireRecord).refixDue.StoppedOk) : (s.extrasStopped h extras).OkWith w := by
  unfold State.extrasStopped
  dsimp only
  refine sayHireEvent_ok (hireChanged_ok (onHire_ok hk fun hh => ?_)) _
  exact ⟨hr, hh.2⟩

/-- The checks of an EXTRA leave room for it: fewer than 6 stand, and with it the cap is not passed (R41, R42). -/
theorem checkExtra_room {image : Option Image} {r : HireRecord} {stopped : Bool} {code amount a : Nat}
    (h : checkExtra image r stopped code amount = .ok a) : r.extras.length < 6 ∧ r.capBase stopped + a ≤ fareCap := by
  unfold checkExtra at h
  repeat' split at h
  all_goals first
    | contradiction
    | (cases h; constructor <;> omega)

theorem HireRecord.RunningOk.addExtra {r : HireRecord} (h : r.RunningOk) {code a : Nat} (hl : r.extras.length < 6)
    (hc : r.running + a ≤ fareCap) : ({ r with extras := r.extras ++ [(code, a)] } : HireRecord).RunningOk := by
  refine ⟨?_, h.2.1, ?_, h.2.2.2⟩
  · simp only [HireRecord.running, HireRecord.extrasSum, List.map_append, List.sum_append] at hc ⊢
    simp only [List.map_cons, List.map_nil, List.sum_cons, List.sum_nil]
    omega
  · show (r.extras ++ [(code, a)]).length ≤ 6
    simp only [List.length_append, List.length_singleton]
    omega

/-- The due of a hire in STOPPED, computed again after a change of the extras (R40). -/
theorem HireRecord.StoppedOk.setExtras {r : HireRecord} (h : r.StoppedOk) {xs : List (Nat × Nat)} (hl : xs.length ≤ 6)
    (hc : r.metered + r.topUp.getD 0 + (xs.map (·.2)).sum ≤ fareCap) :
    ({ r with extras := xs } : HireRecord).refixDue.StoppedOk := by
  refine ⟨⟨?_, ?_, h.1.2.2.1, hl, h.1.2.2.2.2⟩, h.2⟩
  · simp only [HireRecord.refixDue, HireRecord.total, HireRecord.metered, HireRecord.running, HireRecord.extrasSum]
    rw [Option.some_inj]
    omega
  · simp only [HireRecord.refixDue, HireRecord.total, HireRecord.metered, HireRecord.running,
      HireRecord.extrasSum] at hc ⊢
    omega

theorem State.takeExtra_ok {w : List Instr} {s : State} (hk : s.OkWith w) (src : Source) (seq code amount : Nat) :
    (s.takeExtra src seq code amount).OkWith w := by
  unfold State.takeExtra
  split
  · rename_i h heq
    have h0 : h.rc.RunningOk := hk.slot heq
    split
    · exact refuse_ok hk _ _ _
    · rename_i hc
      obtain ⟨h1, h2⟩ := checkExtra_room hc
      exact replyTo_ok (extrasHired_ok hk _ _ (h0.addExtra h1 h2)) _ _ _
  · rename_i h heq
    have h0 : h.rc.StoppedOk := hk.slot heq
    split
    · exact refuse_ok hk _ _ _
    · rename_i a hc
      obtain ⟨h1, h2⟩ := checkExtra_room hc
      refine replyTo_ok (extrasStopped_ok hk _ _ (h0.setExtras ?_ ?_)) _ _ _
      · simp only [List.length_append, List.length_singleton]; omega
      · have hd := h0.1.1
        simp only [HireRecord.capBase, if_true, hd, Option.getD_some, HireRecord.total, HireRecord.running,
          HireRecord.extrasSum] at h2
        simp only [HireRecord.metered, List.map_append, List.map_cons, List.map_nil, List.sum_append, List.sum_cons,
          List.sum_nil]
        omega
  all_goals exact refuse_ok hk _ _ _

theorem dropLast_sum_le : ∀ xs : List (Nat × Nat), (xs.dropLast.map (·.2)).sum ≤ (xs.map (·.2)).sum
  | [] => Nat.le_refl _
  | [_] => Nat.zero_le _
  | x :: y :: ys => by
    have h := dropLast_sum_le (y :: ys)
    rw [List.dropLast_cons_cons, List.map_cons, List.sum_cons, List.map_cons, List.sum_cons]
    omega

theorem State.takeExtraRemove_ok {w : List Instr} {s : State} (hk : s.OkWith w) (src : Source) (seq : Nat) :
    (s.takeExtraRemove src seq).OkWith w := by
  unfold State.takeExtraRemove
  split
  · rename_i h heq
    have h0 : h.rc.RunningOk := hk.slot heq
    split
    · exact refuse_ok hk _ _ _
    · refine replyTo_ok (extrasHired_ok hk h h.rc.extras.dropLast ⟨?_, h0.2.1, ?_, h0.2.2.2⟩) _ _ _
      · have h1 := h0.1
        have h2 := dropLast_sum_le h.rc.extras
        simp only [HireRecord.running, HireRecord.extrasSum] at h1 ⊢
        omega
      · exact Nat.le_trans (by simp) h0.2.2.1
  · rename_i h heq
    have h0 : h.rc.StoppedOk := hk.slot heq
    split
    · exact refuse_ok hk _ _ _
    · refine replyTo_ok (extrasStopped_ok hk _ _ (h0.setExtras ?_ ?_)) _ _ _
      · exact Nat.le_trans (by simp) h0.1.2.2.2.1
      · have h1 := h0.1.2.1
        have h2 := dropLast_sum_le h.rc.extras
        simp only [HireRecord.total, HireRecord.metered, HireRecord.running, HireRecord.extrasSum] at h1 ⊢
        omega
  all_goals exact refuse_ok hk _ _ _

theorem State.takeClaim_ok {w : List Instr} {s : State} (hk : s.OkWith w) (sender : Addr) (kind : Kind) (seq : Nat) :
    (s.takeClaim sender kind seq).OkWith w := by
  unfold State.takeClaim
  try dsimp only
  repeat' split
  all_goals (repeat' (first | exact hk | assumption | apply State.markClaiming_ok | apply State.sendObject_ok | apply State.endClaim_ok | exact fun hh => hh))

theorem State.takeObject_ok {w : List Instr} {s : State} (hk : s.OkWith w) (target : Addr) :
    (s.takeObject target).OkWith w := by
  unfold State.takeObject
  repeat' split
  all_goals (repeat' (first | exact hk | assumption | apply State.endClaim_ok | exact fun hh => hh))

theorem State.takeWindowEnd_ok {w : List Instr} {s : State} (hk : s.OkWith w) :
    (s.takeWindowEnd).OkWith w := by
  unfold State.takeWindowEnd
  repeat' split
  all_goals (repeat' (first | exact hk | assumption | apply State.endWindow_ok | exact fun hh => hh))

theorem State.claimSent_ok {w : List Instr} {s : State} (hk : s.OkWith w) (id : Nat) : (s.claimSent id).OkWith w := by
  unfold State.claimSent
  split
  · rename_i c _
    have h1 : (s.onHire fun h => { h with slot := .claiming { c with sent := true, window := startTimer (ms 300) } }).OkWith w :=
      onHire_ok hk fun hh => ⟨trivial, hh.2⟩
    split
    · dsimp only
      split
      · exact markClaiming_ok h1 _ _
      · exact h1
    · exact hk
  all_goals exact hk

theorem State.commandSent_ok {w : List Instr} {s : State} (hk : s.OkWith w) (t : Addr) (seq : Nat) :
    (s.commandSent t seq).OkWith w := by
  unfold State.commandSent
  repeat' split
  all_goals (repeat' (first | exact hk | assumption | apply State.onConsole_ok | exact fun hh => hh))

theorem State.querySent_ok {w : List Instr} {s : State} (hk : s.OkWith w) (gen : Nat) :
    (s.querySent gen).OkWith w := by
  unfold State.querySent
  repeat' split
  all_goals (repeat' (first | exact hk | assumption | apply State.onPrint_ok | exact fun hh => hh))

theorem State.partSent_ok {w : List Instr} {s : State} (hk : s.OkWith w) (gen : Nat) (k : Nat) :
    (s.partSent gen k).OkWith w := by
  unfold State.partSent
  repeat' split
  all_goals (repeat' (first | exact hk | assumption | apply State.onPrint_ok | apply State.offer_ok | exact fun hh => hh))

theorem State.sentReport_ok {w : List Instr} {s : State} (hk : s.OkWith w) (x0 : Tag) :
    (s.sentReport x0).OkWith w := by
  unfold State.sentReport
  repeat' split
  all_goals (repeat' (first | exact hk | assumption | apply State.claimSent_ok | apply State.command_ok | apply State.commandSent_ok | apply State.callSent_ok | apply State.summarySent_ok | apply State.lateSummarySent_ok | apply State.querySent_ok | apply State.partSent_ok | exact fun hh => hh))

theorem State.offerRepl_ok {w : List Instr} {s : State} (hk : s.OkWith w) (e : Entry) (r : Option Repl) :
    (s.offerRepl e r).OkWith w := by
  unfold State.offerRepl
  split
  · split
    · exact hk
    · split
      · rename_i ho
        exact onLink_ok hk fun hh => hh.offer ho
      · exact hk
  · exact hk

/-- A part of the queue keeps its order and bounds. -/
theorem Link.Ok.sub {l : Link} (h : l.Ok) {q : List Entry} (hs : q.Sublist l.queue) {r : Option Repl} {n : Nat}
    (hn : n ≤ 6) : ({ l with queue := q, repl := r, fairness := n } : Link).Ok := by
  obtain ⟨h1, h2, h3, h4, h5, h6, h7, h8⟩ := h
  refine ⟨Nat.le_trans hs.length_le h1, h2.sublist hs, Nat.le_trans (hs.filter _).length_le h3,
    Nat.le_trans (hs.filter _).length_le h4, Nat.le_trans (hs.filter _).length_le h5, ?_, ?_, hn⟩
  · intro hp
    have h0 := h6 hp
    have hq := hs.filter (·.begun)
    unfold Link.flights at h0
    rw [h0] at hq
    exact List.sublist_nil.1 hq
  · intro hp
    have hq := hs
    rw [h7 hp] at hq
    exact List.sublist_nil.1 hq

theorem Link.Ok.dropFlying {l : Link} (h : l.Ok) (e : Entry) : (l.dropFlying e).Ok := by
  refine h.sub List.filter_sublist ?_
  have h8 := h.2.2.2.2.2.2.2
  split <;> omega

theorem State.takeSent_ok {w : List Instr} {s : State} (hk : s.OkWith w) : s.takeSent.OkWith w := by
  unfold State.takeSent
  split
  · exact sentReport_ok (offerRepl_ok (onLink_ok (onLines_ok hk) fun hh => hh.dropFlying _) _ _) _
  · exact hk

theorem State.override_ok {w : List Instr} {s : State} (hk : s.OkWith w) (sender : Addr) (f : Option Override → Override) :
    (s.override sender f).OkWith w := by
  unfold State.override
  try dsimp only
  repeat' split
  all_goals (repeat' (first | exact hk | assumption | apply State.onPeer_ok | apply State.conflictTest_ok | exact fun hh => hh))

theorem State.storeBeacon_ok {w : List Instr} {s : State} (hk : s.OkWith w) (sender : Addr) (b : Beacon) :
    (s.storeBeacon sender b).OkWith w := by
  unfold State.storeBeacon
  try dsimp only
  all_goals (repeat' (first | exact hk | assumption | apply State.onPeer_ok | exact fun hh => hh))

theorem State.beaconPrivacy_ok {w : List Instr} {s : State} (hk : s.OkWith w) (sender : Addr) (b : Beacon) :
    (s.beaconPrivacy sender b).OkWith w := by
  unfold State.beaconPrivacy
  all_goals (repeat' (first | exact hk | assumption | apply State.onConsole_ok | exact fun hh => hh))

theorem State.repeatOpen_ok {w : List Instr} {s : State} (hk : s.OkWith w) (b : Beacon) :
    (s.repeatOpen b).OkWith w := by
  unfold State.repeatOpen
  repeat' split
  all_goals (repeat' (first | exact hk | assumption | apply State.onShift_ok | apply State.offer_ok | exact fun hh => hh))

theorem State.consoleBeacon_ok {w : List Instr} {s : State} (hk : s.OkWith w) (sender : Addr) (firstSeen : Bool) (b : Beacon) :
    (s.consoleBeacon sender firstSeen b).OkWith w := by
  unfold State.consoleBeacon
  try dsimp only
  repeat' split
  all_goals (repeat' (first | exact hk | assumption | apply State.beaconPrivacy_ok | apply State.dueCommand_ok | apply State.repeatOpen_ok | exact fun hh => hh))

theorem State.takeBeacon_ok {w : List Instr} {s : State} (hk : s.OkWith w) (sender : Addr) (b : Beacon) :
    (s.takeBeacon sender b).OkWith w := by
  unfold State.takeBeacon
  try dsimp only
  repeat' split
  all_goals (repeat' (first | exact hk | assumption | apply State.storeBeacon_ok | apply State.conflictTest_ok | apply State.consoleBeacon_ok | apply State.onClock_ok | exact fun hh => hh))

theorem State.loseRow_ok {w : List Instr} {s : State} (hk : s.OkWith w) (a : Addr) :
    (s.loseRow a).OkWith w := by
  unfold State.loseRow
  all_goals (repeat' (first | exact hk | assumption | apply State.onPeer_ok | exact fun hh => hh))

theorem State.afterLoss_ok {w : List Instr} {s : State} (hk : s.OkWith w) (a : Addr) :
    (s.afterLoss a).OkWith w := by
  unfold State.afterLoss
  repeat' split
  all_goals (repeat' (first | exact hk | assumption | apply State.dropCaller_ok | apply State.endTalkWith_ok | apply State.disconnectEnd_ok | exact fun hh => hh))

theorem State.openOwnTalk_ok {w : List Instr} {s : State} (hk : s.OkWith w) :
    (s.openOwnTalk).OkWith w := by
  unfold State.openOwnTalk
  exact onIntercom_ok (dropCaller_ok hk 0) fun hh => hh

theorem State.showRefusal_ok {w : List Instr} {s : State} (hk : s.OkWith w) (src : Source) :
    (s.showRefusal src).OkWith w := by
  unfold State.showRefusal
  split
  · exact onConsole_ok hk fun hh => hh
  · exact hk

theorem State.takeConnect_ok {w : List Instr} {s : State} (hk : s.OkWith w) (src : Source) (seq : Nat) :
    (s.takeConnect src seq).OkWith w := by
  unfold State.takeConnect
  try dsimp only
  repeat' split
  all_goals (repeat' (first | exact hk | assumption | apply State.showRefusal_ok | apply State.refuse_ok | apply State.connectEnd_ok | apply State.openOwnTalk_ok | apply State.replyTo_ok | exact fun hh => hh))

theorem State.showPrivacy_ok {w : List Instr} {s : State} (hk : s.OkWith w) (a : Addr) (on : Bool) :
    (s.showPrivacy a on).OkWith w := by
  unfold State.showPrivacy
  all_goals (repeat' (first | exact hk | assumption | apply State.onConsole_ok | exact fun hh => hh))

/-- A caller joins the queue once, and only while it holds fewer than 4 (R111). -/
theorem Intercom.Ok.addCall {i : Intercom} (h : i.Ok) (a : Addr) : (i.addCall a).Ok := by
  unfold Intercom.addCall
  split
  · exact h
  · split
    · have hm : (i.queue.map fun e => if e.addr = a then { e with left := callTime } else e).map (·.addr)
          = i.queue.map (·.addr) := by
        rw [List.map_map]
        apply List.map_congr_left
        intro e _
        simp only [Function.comp]
        split <;> rfl
      exact ⟨h.1, by simpa using h.2.1, by rw [hm]; exact h.2.2.1, h.2.2.2⟩
    · split
      · exact h
      · rename_i hn hl
        refine ⟨h.1, ?_, ?_, h.2.2.2⟩
        · simp only [List.length_append, List.length_singleton]; omega
        · have hx : ∀ x ∈ i.queue, x.addr ≠ a := by
            intro x hx hc
            exact hn (List.any_eq_true.2 ⟨x, hx, by simp [hc]⟩)
          simp only [List.map_append, List.map_cons, List.map_nil]
          rw [List.nodup_append]
          refine ⟨h.2.2.1, by simp, ?_⟩
          intro b hb c hc
          obtain ⟨x, hxm, rfl⟩ := List.mem_map.1 hb
          simp only [List.mem_singleton] at hc
          subst hc
          exact hx x hxm

theorem State.startCall_ok {w : List Instr} {s : State} (hk : s.OkWith w) : s.startCall.OkWith w := by
  unfold State.startCall
  dsimp only
  split
  · exact onIntercom_ok (onIntercom_ok hk fun hh => hh) fun hh => hh.addCall 0
  · exact sayEvent_ok (onIntercom_ok hk fun hh => hh) _

theorem State.withdrawCall_ok {w : List Instr} {s : State} (hk : s.OkWith w) :
    (s.withdrawCall).OkWith w := by
  unfold State.withdrawCall
  try dsimp only
  repeat' split
  all_goals (repeat' (first | exact hk | assumption | apply State.idleEnd_ok | apply State.dropCaller_ok | apply State.endTalkWith_ok | apply State.sayEvent_ok | exact fun hh => hh))

theorem State.shortPress_ok {w : List Instr} {s : State} (hk : s.OkWith w) :
    (s.shortPress).OkWith w := by
  unfold State.shortPress
  repeat' split
  all_goals (repeat' (first | exact hk | assumption | apply State.startCall_ok | apply State.withdrawCall_ok | exact fun hh => hh))

theorem State.withButtons_ok {w : List Instr} {s : State} (hk : s.OkWith w) (f : State → State) (hf : ∀ t : State, t.OkWith w → (f t).OkWith w) :
    (s.withButtons f).OkWith w := by
  unfold State.withButtons
  repeat' split
  all_goals (repeat' (first | exact hk | assumption | apply hf | exact fun hh => hh))

theorem State.takePress_ok {w : List Instr} {s : State} (hk : s.OkWith w) (f : State → State) (hf : ∀ t : State, t.OkWith w → (f t).OkWith w) :
    (s.takePress f).OkWith w := by
  unfold State.takePress
  repeat' split
  all_goals (repeat' (first | exact hk | assumption | apply State.onIntercom_ok | apply hf | exact fun hh => hh))

theorem State.setPrivacy_ok {w : List Instr} {s : State} (hk : s.OkWith w) (on : Bool) : (s.setPrivacy on).OkWith w :=
  onHire_ok hk fun hh => ⟨hh.1.mapHire _ (fun _ h => h) (fun _ h => h) (fun _ h => h), hh.2⟩

theorem State.privacyEnd_ok {w : List Instr} {s : State} (hk : s.OkWith w) :
    (s.privacyEnd).OkWith w := by
  unfold State.privacyEnd
  try dsimp only
  repeat' split
  all_goals (repeat' (first | exact hk | assumption | apply State.idleEnd_ok | apply State.dropCaller_ok | apply State.endTalkWith_ok | exact fun hh => hh))

theorem State.longPressed_ok {w : List Instr} {s : State} (hk : s.OkWith w) :
    (s.longPressed).OkWith w := by
  unfold State.longPressed
  repeat' split
  all_goals (repeat' (first | exact hk | assumption | apply State.setPrivacy_ok | apply State.sayEvent_ok | apply State.privacyEnd_ok | exact fun hh => hh))

theorem State.openTalk_ok {w : List Instr} {s : State} (hk : s.OkWith w) (t : Addr) :
    (s.openTalk t).OkWith w := by
  unfold State.openTalk
  split
  · exact takeConnect_ok (formCommand_ok hk 0 _) _ _
  · exact formCommand_ok (onIntercom_ok (dropCaller_ok hk t) fun hh => hh) t _

theorem State.talkTo_ok {w : List Instr} {s : State} (hk : s.OkWith w) (t : Addr) : (s.talkTo t).OkWith w := by
  unfold State.talkTo
  split
  · exact openTalk_ok hk t
  · exact onConsole_ok hk fun hh => hh

theorem State.takeTalk_ok {w : List Instr} {s : State} (hk : s.OkWith w) : s.takeTalk.OkWith w := by
  unfold State.takeTalk
  split
  · exact hk
  · exact endTalk_ok hk _
  · exact endTalk_ok hk _
  · split
    · exact talkTo_ok hk _
    · dsimp only
      split
      · exact onConsole_ok hk fun hh => hh
      · exact talkTo_ok hk _

theorem State.offerListen_ok {w : List Instr} {s : State} (hk : s.OkWith w) (t : Addr) :
    (s.offerListen t).OkWith w := by
  unfold State.offerListen
  try dsimp only
  repeat' split
  all_goals (repeat' (first | exact hk | assumption | apply State.dueCommand_ok | apply State.onIntercom_ok | exact fun hh => hh))

theorem fold_ok {α : Type} {w : List Instr} {f : State → α → State} (hf : ∀ t x, t.OkWith w → (f t x).OkWith w)
    (xs : List α) : ∀ {s : State}, s.OkWith w → (xs.foldl f s).OkWith w := by
  induction xs with
  | nil => intro s hk; exact hk
  | cons x xs ih => intro s hk; exact ih (hf s x hk)

theorem State.takeAnnounce_ok {w : List Instr} {s : State} (hk : s.OkWith w) : s.takeAnnounce.OkWith w := by
  unfold State.takeAnnounce
  split
  · exact fold_ok (fun t x ht => offerListen_ok ht x) _
      (onIntercom_ok hk fun hh => ⟨hh.1, hh.2.1, hh.2.2.1, List.filter_sublist⟩)
  · exact onConsole_ok hk fun hh => hh
  · exact onConsole_ok hk fun hh => hh
  · exact hk

theorem State.endListen_ok {w : List Instr} {s : State} (hk : s.OkWith w) (t : Addr) : (s.endListen t).OkWith w := by
  unfold State.endListen
  split
  · exact dueCommand_ok hk _ _
  · exact onConsole_ok hk fun hh => hh.setDeferred t _ (Nat.le_trans (List.length_filter_le _ _) (hh.2 t))

theorem State.endAnnounce_ok {w : List Instr} {s : State} (hk : s.OkWith w) : s.endAnnounce.OkWith w := by
  unfold State.endAnnounce
  split
  · exact onIntercom_ok (fold_ok (fun t x ht => endListen_ok ht x) _ hk) fun hh =>
      ⟨hh.1, hh.2.1, hh.2.2.1, List.nil_sublist _⟩
  · exact hk

theorem State.payGate_ok {w : List Instr} {s : State} (hk : s.OkWith w) (src : Source) (seq : Nat) (f : Hire → State) (hf : ∀ x : Hire, (f x).OkWith w) :
    (s.payGate src seq f).OkWith w := by
  unfold State.payGate
  repeat' split
  all_goals (repeat' (first | exact hk | assumption | apply State.refuse_ok | apply hf | exact fun hh => hh))

theorem State.takePayment_ok {w : List Instr} {s : State} (hk : s.OkWith w) (src : Source) (seq : Nat) (f : Hire → State)
    (hf : ∀ x : Hire, (f x).OkWith w) : (s.takePayment src seq f).OkWith w := by
  unfold State.takePayment
  refine payGate_ok hk _ _ _ fun x => ?_
  split
  · exact refuse_ok hk _ _ _
  · split
    · exact replyTo_ok (settleNow_ok hk) _ _ _
    · exact hf x

theorem State.tender_ok {w : List Instr} {s : State} (hk : s.OkWith w) (t : Tender) :
    (s.tender t).OkWith w := by
  unfold State.tender
  all_goals (repeat' (first | exact hk | assumption | apply State.toPaying_ok | apply State.hireChanged_ok | apply State.applyTender_ok | exact fun hh => hh))

theorem State.takeCash_ok {w : List Instr} {s : State} (hk : s.OkWith w) (src : Source) (seq tendered : Nat) :
    (s.takeCash src seq tendered).OkWith w := by
  unfold State.takeCash
  refine takePayment_ok hk _ _ _ fun x => ?_
  split
  · exact refuse_ok hk _ _ _
  · exact replyTo_ok (showChange_ok (tender_ok hk _) _) _ _ _

theorem State.takeAccount_ok {w : List Instr} {s : State} (hk : s.OkWith w) (src : Source) (seq digits number : Nat) :
    (s.takeAccount src seq digits number).OkWith w := by
  unfold State.takeAccount
  refine takePayment_ok hk _ _ _ fun x => ?_
  split
  · exact refuse_ok hk _ _ _
  · exact replyTo_ok (tender_ok hk _) _ _ _

theorem State.toPaying_pay (s : State) : s.toPaying.pay = s.pay := by
  unfold State.toPaying
  split <;> rfl

theorem State.takeCard_ok {w : List Instr} {s : State} (hk : s.OkWith w) (src : Source) (seq : Nat) :
    (s.takeCard src seq).OkWith w := by
  unfold State.takeCard
  refine takePayment_ok hk _ _ _ fun x => ?_
  split
  · exact refuse_ok hk _ _ _
  · split
    · exact refuse_ok hk _ _ _
    · refine replyTo_ok (beginSession_ok (hireChanged_ok (toPaying_ok hk)) _ ?_) _ _ _
      show s.toPaying.pay.reversals.length ≤ 3
      rw [toPaying_pay]
      omega

theorem State.cancelSession_ok {w : List Instr} {s : State} (hk : s.OkWith w) :
    (s.cancelSession).OkWith w := by
  unfold State.cancelSession
  repeat' split
  all_goals (repeat' (first | exact hk | assumption | apply State.endQuietly_ok | apply State.requestCancel_ok | exact fun hh => hh))

theorem State.takeCardCancel_ok {w : List Instr} {s : State} (hk : s.OkWith w) (src : Source) (seq : Nat) :
    (s.takeCardCancel src seq).OkWith w := by
  unfold State.takeCardCancel
  repeat' split
  all_goals (repeat' (first | exact hk | assumption | apply State.cancelSession_ok | apply State.replyTo_ok | apply State.refuse_ok | exact fun hh => hh))

theorem State.setVolume_ok {w : List Instr} {s : State} (hk : s.OkWith w) (v : Nat) (hv : v ≤ 7) :
    (s.setVolume v).OkWith w := by
  unfold State.setVolume
  split
  · exact hk
  · exact onDisplay_ok (onIntercom_ok hk fun hh => ⟨hv, hh.2⟩)

/-- A cursor of the tip step keeps the session active. -/
theorem Pay.Ok.tipCursor {p : Pay} (h : p.Ok) (ha : p.session.active = true) (c : Nat) :
    ({ p with session := .tipSelect c } : Pay).Ok := ⟨h.1, fun _ => h.2 ha⟩

theorem State.pressUp_ok {w : List Instr} {s : State} (hk : s.OkWith w) : s.pressUp.OkWith w := by
  unfold State.pressUp
  split
  · rename_i heq
    exact onPay_ok hk fun hh => hh.tipCursor (by rw [heq]; rfl) _
  all_goals exact setVolume_ok hk _ (Nat.min_le_left _ _)

theorem State.pressDown_ok {w : List Instr} {s : State} (hk : s.OkWith w) : s.pressDown.OkWith w := by
  unfold State.pressDown
  have hv : s.intercom.volume - 1 ≤ 7 := Nat.le_trans (Nat.sub_le _ _) hk.1.intercom.1
  split
  · rename_i heq
    exact onPay_ok hk fun hh => hh.tipCursor (by rw [heq]; rfl) _
  all_goals exact setVolume_ok hk _ hv

theorem State.pressOk_ok {w : List Instr} {s : State} (hk : s.OkWith w) : s.pressOk.OkWith w := by
  unfold State.pressOk
  split
  · rename_i heq
    exact storeTip_ok hk _ (hk.1.pay.2 (by rw [heq]; rfl))
  all_goals exact hk

theorem State.tipExpires_ok {w : List Instr} {s : State} (hk : s.OkWith w) : s.tipExpires.OkWith w := by
  unfold State.tipExpires
  split
  · rename_i heq
    exact storeTip_ok hk _ (hk.1.pay.2 (by rw [heq]; rfl))
  all_goals exact hk

theorem State.reoffer_ok {w : List Instr} {s : State} (hk : s.OkWith w) : s.reoffer.OkWith w := by
  unfold State.reoffer
  exact fold_ok (fun t x ht => offer_ok ht x) _ (onShift_ok hk)

theorem State.reofferJobs_ok {w : List Instr} {s : State} (hk : s.OkWith w) : s.reofferJobs.OkWith w := by
  unfold State.reofferJobs
  dsimp only
  refine fold_ok (fun t x ht => offerSlip_ok ht x) _ ?_
  split
  · exact offerReport_ok hk
  · exact hk

theorem PulseFault.Ok.next {f : PulseFault} (h : f.Ok) (clamped : Bool) : (f.next clamped).Ok := by
  cases f with
  | clear run =>
    have h1 : run ≤ 19 := h
    cases clamped with
    | false => exact Nat.zero_le _
    | true =>
      simp only [PulseFault.next, if_true]
      split
      · exact ⟨Nat.zero_le _, by decide⟩
      · show run + 1 ≤ 19
        omega
  | raised clean tenths =>
    obtain ⟨h1, h2⟩ := h
    have ht : (if 9 ≤ tenths then 0 else tenths + 1) ≤ 9 := by split <;> omega
    cases clamped with
    | true => exact ⟨Nat.zero_le _, ht⟩
    | false =>
      simp only [PulseFault.next, Bool.false_eq_true, if_false]
      split
      · exact Nat.zero_le _
      · exact ⟨by omega, ht⟩

theorem State.countSlot_ok {w : List Instr} {s : State} (hk : s.OkWith w) : s.countSlot.OkWith w := by
  unfold State.countSlot
  refine onPulse_ok hk fun hh => ⟨Nat.zero_le _, ?_, hh.2.2.next _⟩
  have := hh.2.1
  simp only [List.length_append, List.length_drop, List.length_singleton, this]

theorem State.slotEnd_ok {w : List Instr} {s : State} (hk : s.OkWith w) : s.slotEnd.OkWith w := by
  unfold State.slotEnd
  exact reofferJobs_ok (reoffer_ok (account_ok (fareSlotEnd_ok (countSlot_ok hk) _) _))

theorem State.takeSlotEnd_ok {w : List Instr} {s : State} (hk : s.OkWith w) :
    (s.takeSlotEnd).OkWith w := by
  unfold State.takeSlotEnd
  repeat' split
  all_goals (repeat' (first | exact hk | assumption | apply State.slotEnd_ok | exact fun hh => hh))

theorem State.pendLate_ok {w : List Instr} {s : State} (hk : s.OkWith w) (number : Nat) (driver : Nat) :
    (s.pendLate number driver).OkWith w := by
  unfold State.pendLate
  repeat' split
  all_goals (repeat' (first | exact hk | assumption | apply State.onShift_ok | exact fun hh => hh))

theorem State.takeShiftOpen_ok {w : List Instr} {s : State} (hk : s.OkWith w) (rejoin : Bool) (number : Nat) (driver : Nat) :
    (s.takeShiftOpen rejoin number driver).OkWith w := by
  unfold State.takeShiftOpen
  repeat' split
  all_goals (repeat' (first | exact hk | assumption | apply State.adoptShift_ok | apply State.onShift_ok | apply State.pendLate_ok | apply State.leaveClosing_ok | exact fun hh => hh))

theorem State.answerCall_ok {w : List Instr} {s : State} (hk : s.OkWith w) :
    (s.answerCall).OkWith w := by
  unfold State.answerCall
  all_goals (repeat' (first | exact hk | assumption | apply State.onShift_ok | apply State.startSummary_ok | exact fun hh => hh))

theorem State.takeShiftCall_ok {w : List Instr} {s : State} (hk : s.OkWith w) (number : Nat) :
    (s.takeShiftCall number).OkWith w := by
  unfold State.takeShiftCall
  repeat' split
  all_goals (repeat' (first | exact hk | assumption | apply State.onShift_ok | apply State.sendShift_ok | apply State.refuse_ok | apply State.answerCall_ok | exact fun hh => hh))

theorem State.takeShiftDone_ok {w : List Instr} {s : State} (hk : s.OkWith w) (forced : Bool) (number : Nat) (addrs : List Addr) :
    (s.takeShiftDone forced number addrs).OkWith w := by
  unfold State.takeShiftDone
  repeat' split
  all_goals (repeat' (first | exact hk | assumption | apply State.leaveClosing_ok | apply State.closeShift_ok | exact fun hh => hh))

theorem State.takeShiftAbandon_ok {w : List Instr} {s : State} (hk : s.OkWith w) (number : Nat) :
    (s.takeShiftAbandon number).OkWith w := by
  unfold State.takeShiftAbandon
  repeat' split
  all_goals (repeat' (first | exact hk | assumption | apply State.leaveClosing_ok | exact fun hh => hh))

theorem State.takeSummary_ok {w : List Instr} {s : State} (hk : s.OkWith w) (sender : Addr) (p : SummaryPart) :
    (s.takeSummary sender p).OkWith w := by
  unfold State.takeSummary
  try dsimp only
  repeat' split
  all_goals (repeat' (first | exact hk | assumption | apply State.onClose_ok | apply State.completionTest_ok | exact fun hh => hh))

theorem State.takeLatePart_ok {w : List Instr} {s : State} (hk : s.OkWith w) (sender : Addr) (p : SummaryPart) :
    (s.takeLatePart sender p).OkWith w := by
  unfold State.takeLatePart
  try dsimp only
  repeat' split
  all_goals (repeat' (first | exact hk | assumption | apply State.onClose_ok | apply State.offerSlip_ok | exact fun hh => hh))

theorem State.setRow_ok {w : List Instr} {s : State} (hk : s.OkWith w) (a : Addr) (st : RowState) :
    (s.setRow a st).OkWith w := by
  unfold State.setRow
  all_goals (repeat' (first | exact hk | assumption | apply State.onClose_ok | exact fun hh => hh))

theorem State.takeRefuse_ok {w : List Instr} {s : State} (hk : s.OkWith w) (sender : Addr) (reason : RefuseReason) :
    (s.takeRefuse sender reason).OkWith w := by
  unfold State.takeRefuse
  try dsimp only
  repeat' split
  all_goals (repeat' (first | exact hk | assumption | apply State.setRow_ok | apply State.abandonClose_ok | exact fun hh => hh))

theorem State.collectEnds_ok {w : List Instr} {s : State} (hk : s.OkWith w) :
    (s.collectEnds).OkWith w := by
  unfold State.collectEnds
  repeat' split
  all_goals (repeat' (first | exact hk | assumption | apply State.collect_ok | apply State.onClose_ok | apply State.closeDone_ok | apply State.abandonClose_ok | exact fun hh => hh))

theorem State.openShift_ok {w : List Instr} {s : State} (hk : s.OkWith w) (driver : Nat) : (s.openShift driver).OkWith w := by
  unfold State.openShift
  exact reportStanding_ok (sendShift_ok (onHire_ok (onShift_ok hk) fun hh =>
    ⟨hh.1, hh.2.1, hh.2.2.1, Nat.le_refl 1, by show (1 : Nat) ≤ 9999; decide⟩) _)

theorem State.repeatDue_ok {w : List Instr} {s : State} (hk : s.OkWith w) :
    (s.repeatDue).OkWith w := by
  unfold State.repeatDue
  repeat' split
  all_goals (repeat' (first | exact hk | assumption | apply State.onSign_ok | apply State.dueSign_ok | exact fun hh => hh))

theorem State.takeLamps_ok {w : List Instr} {s : State} (hk : s.OkWith w) (l : Lamps) : (s.takeLamps l).OkWith w := by
  have h1 : (s.onSign fun g => { g with lamps := some l, silent := 0, signSilent := false }).OkWith w :=
    onSign_ok hk fun _ => ⟨Nat.zero_le _, by show false = true ↔ (0 : Nat) = 3; decide⟩
  unfold State.takeLamps
  dsimp only
  split
  · exact endSignWait_ok (reportLampFault_ok h1)
  · exact endSignWait_ok h1

theorem State.takeSignReply_ok {w : List Instr} {s : State} (hk : s.OkWith w) (b0 : Byte) (b1 : Byte) (b2 : Byte) :
    (s.takeSignReply b0 b1 b2).OkWith w := by
  unfold State.takeSignReply
  repeat' split
  all_goals (repeat' (first | exact hk | assumption | apply State.takeLamps_ok | exact fun hh => hh))

theorem State.missSign_ok {w : List Instr} {s : State} (hk : s.OkWith w) : s.missSign.OkWith w := by
  unfold State.missSign
  split
  · exact reportSignSilent_ok (onSign_ok hk fun _ => ⟨by show (3 : Nat) ≤ 3; decide, by show true = true ↔ (3 : Nat) = 3; decide⟩)
  · rename_i hn
    refine onSign_ok hk fun hh => ⟨Nat.min_le_left _ _, ?_⟩
    have h1 := hh.1
    show s.sign.signSilent = true ↔ min 3 (s.sign.silent + 1) = 3
    rw [hh.2]
    omega

theorem State.signTimeout_ok {w : List Instr} {s : State} (hk : s.OkWith w) :
    (s.signTimeout).OkWith w := by
  unfold State.signTimeout
  repeat' split
  all_goals (repeat' (first | exact hk | assumption | apply State.missSign_ok | apply State.endSignWait_ok | exact fun hh => hh))

theorem State.endTest_ok {w : List Instr} {s : State} (hk : s.OkWith w) :
    (s.endTest).OkWith w := by
  unfold State.endTest
  repeat' split
  all_goals (repeat' (first | exact hk | assumption | apply State.onSign_ok | apply State.dueSign_ok | exact fun hh => hh))

theorem State.startTest_ok {w : List Instr} {s : State} (hk : s.OkWith w) :
    (s.startTest).OkWith w := by
  unfold State.startTest
  all_goals (repeat' (first | exact hk | assumption | apply State.onSign_ok | apply State.dueSign_ok | exact fun hh => hh))

theorem State.startHold_ok {w : List Instr} {s : State} (hk : s.OkWith w) :
    (s.startHold).OkWith w := by
  unfold State.startHold
  repeat' split
  all_goals (repeat' (first | exact hk | assumption | apply State.onDistress_ok | exact fun hh => hh))

theorem State.sendDistress_ok {w : List Instr} {s : State} (hk : s.OkWith w) :
    (s.sendDistress).OkWith w := by
  unfold State.sendDistress
  repeat' split
  all_goals (repeat' (first | exact hk | assumption | apply State.onDistress_ok | apply State.offer_ok | exact fun hh => hh))

theorem State.setLatch_ok {w : List Instr} {s : State} (hk : s.OkWith w) :
    (s.setLatch).OkWith w := by
  unfold State.setLatch
  all_goals (repeat' (first | exact hk | assumption | apply State.onDistress_ok | apply State.account_ok | apply State.sendDistress_ok | exact fun hh => hh))

theorem State.clearLatch_ok {w : List Instr} {s : State} (hk : s.OkWith w) (digits : List Nat) :
    (s.clearLatch digits).OkWith w := by
  unfold State.clearLatch
  repeat' split
  all_goals (repeat' (first | exact hk | assumption | apply State.onDistress_ok | apply State.startHold_ok | exact fun hh => hh))

theorem succTxn_range (n : Nat) : 1 ≤ succTxn n ∧ succTxn n ≤ 65535 := by
  unfold succTxn
  split <;> omega

theorem State.sendPay_ok {w : List Instr} {s : State} (hk : s.OkWith w) : s.sendPay.OkWith w := by
  unfold State.sendPay
  split
  · rename_i heq
    split
    · dsimp only
      refine sendCard_ok (onCard_ok (onPay_ok hk ?_) ?_) _
      · exact fun hh => ⟨hh.1, fun _ => hh.2 (by rw [heq]; rfl)⟩
      · exact fun _ => succTxn_range _
    · exact hk
  all_goals exact hk

theorem Session.cancelIsSent_active (x : Session) : x.cancelIsSent.active = x.active := by cases x <;> rfl

theorem State.sendCancel_ok {w : List Instr} {s : State} (hk : s.OkWith w) : s.sendCancel.OkWith w := by
  unfold State.sendCancel
  split
  · refine sendCard_ok (onPay_ok hk fun hh => ⟨hh.1, fun h => hh.2 ?_⟩) _
    rwa [Session.cancelIsSent_active] at h
  · exact hk

theorem State.takeTick_ok {w : List Instr} {s : State} (hk : s.OkWith w) : s.takeTick.OkWith w := by
  have h1 : (s.onCard fun c => { c with poll := startTimer c.pollInterval }).OkWith w := onCard_ok hk fun hh => hh
  unfold State.takeTick
  split
  · dsimp only
    split
    · split
      · exact sendCard_ok h1 _
      · exact h1
    · exact h1
  · exact hk

theorem State.requestSent_ok {w : List Instr} {s : State} (hk : s.OkWith w) :
    (s.requestSent).OkWith w := by
  unfold State.requestSent
  repeat' split
  all_goals (repeat' (first | exact hk | assumption | apply State.onCard_ok | exact fun hh => hh))

theorem State.moduleFound_ok {w : List Instr} {s : State} (hk : s.OkWith w) :
    (s.moduleFound).OkWith w := by
  unfold State.moduleFound
  repeat' split
  all_goals (repeat' (first | exact hk | assumption | apply State.onCard_ok | exact fun hh => hh))

theorem State.answered_ok {w : List Instr} {s : State} (hk : s.OkWith w) :
    (s.answered).OkWith w := by
  unfold State.answered
  all_goals (repeat' (first | exact hk | assumption | apply State.onCard_ok | exact fun hh => hh))

theorem State.sessionEnquires_ok {w : List Instr} {s : State} (hk : s.OkWith w) : s.sessionEnquires.OkWith w := by
  unfold State.sessionEnquires
  split
  · rename_i h
    exact toEnquiry_ok hk _ (hk.room h)
  · exact hk

theorem State.takeStatus_ok {w : List Instr} {s : State} (hk : s.OkWith w) (txn : Nat) (st : CardStatus) :
    (s.takeStatus txn st).OkWith w := by
  unfold State.takeStatus
  try dsimp only
  repeat' split
  all_goals (repeat' (first | exact hk | assumption | apply State.onCard_ok | apply State.answered_ok | apply State.sessionEnquires_ok | exact fun hh => hh))

theorem State.approve_ok {w : List Instr} {s : State} (hk : s.OkWith w) (x : CardSession) (a scheme lastFour : Nat)
    (auth : List Nat) (hr : s.pay.reversals.length ≤ 3) : (s.approve x a scheme lastFour auth).OkWith w := by
  unfold State.approve
  split
  · exact endWith_ok hk _
  · split
    · exact inDoubt_ok hk _ hr
    · exact endWith_ok (applyTender_ok (hireChanged_ok hk) _) _

theorem State.sessionResult_ok {w : List Instr} {s : State} (hk : s.OkWith w) (x : CardSession) (o : CardOutcome)
    (a scheme lastFour : Nat) (auth : List Nat) (hr : s.pay.reversals.length ≤ 3) :
    (s.sessionResult x o a scheme lastFour auth).OkWith w := by
  unfold State.sessionResult
  split
  · exact approve_ok hk _ _ _ _ _ hr
  · exact approve_ok hk _ _ _ _ _ hr
  all_goals exact endWith_ok hk _

theorem State.takeResult_ok {w : List Instr} {s : State} (hk : s.OkWith w) (txn : Nat) (o : CardOutcome)
    (a scheme lastFour : Nat) (auth : List Nat) : (s.takeResult txn o a scheme lastFour auth).OkWith w := by
  have h1 := moduleFound_ok hk
  unfold State.takeResult
  dsimp only
  split
  · split
    · rename_i h
      exact sessionResult_ok (answered_ok h1) _ _ _ _ _ _ (h1.room h)
    · exact answered_ok h1
  · exact h1

theorem State.dropReversal_ok {w : List Instr} {s : State} (hk : s.OkWith w) (txn : Nat) :
    (s.dropReversal txn).OkWith w :=
  onPay_ok hk fun hh => ⟨Nat.le_trans (List.length_filter_le _ _) hh.1, fun h =>
    Nat.le_trans (List.length_filter_le _ _) (hh.2 h)⟩

theorem State.takeNotFound_ok {w : List Instr} {s : State} (hk : s.OkWith w) (txn : Nat) :
    (s.takeNotFound txn).OkWith w := by
  have h1 := moduleFound_ok hk
  unfold State.takeNotFound
  dsimp only
  split
  · exact dropReversal_ok (answered_ok h1) _
  · split
    · split
      · exact endWith_ok (answered_ok h1) _
      · exact answered_ok h1
    · exact h1

theorem State.takeReversed_ok {w : List Instr} {s : State} (hk : s.OkWith w) (txn : Nat) :
    (s.takeReversed txn).OkWith w := by
  unfold State.takeReversed
  try dsimp only
  repeat' split
  all_goals (repeat' (first | exact hk | assumption | apply State.moduleFound_ok | apply State.answered_ok | apply State.dropReversal_ok | exact fun hh => hh))

theorem State.missIdle_ok {w : List Instr} {s : State} (hk : s.OkWith w) :
    (s.missIdle).OkWith w := by
  unfold State.missIdle
  repeat' split
  all_goals (repeat' (first | exact hk | assumption | apply State.onCard_ok | exact fun hh => hh))

theorem State.countAttempt_ok {w : List Instr} {s : State} (hk : s.OkWith w) (txn : Nat) :
    (s.countAttempt txn).OkWith w :=
  onPay_ok hk fun hh => ⟨by simpa using hh.1, fun h => by simpa using hh.2 h⟩

theorem State.missSession_ok {w : List Instr} {s : State} (hk : s.OkWith w) : s.missSession.OkWith w := by
  have h1 : (s.onCard fun c => { c with out := none, missed := c.missed + 1 }).OkWith w := onCard_ok hk fun hh => hh
  unfold State.missSession
  dsimp only
  split
  · rename_i h
    split
    · exact inDoubt_ok h1 _ (h1.room h)
    · exact toEnquiry_ok h1 _ (h1.room h)
  · exact h1

theorem State.takeMiss_ok {w : List Instr} {s : State} (hk : s.OkWith w) :
    (s.takeMiss).OkWith w := by
  unfold State.takeMiss
  repeat' split
  all_goals (repeat' (first | exact hk | assumption | apply State.missIdle_ok | apply State.countAttempt_ok | apply State.missSession_ok | exact fun hh => hh))

theorem State.signOff_ok {w : List Instr} {s : State} (hk : s.OkWith w) :
    (s.signOff).OkWith w := by
  unfold State.signOff
  repeat' split
  all_goals (repeat' (first | exact hk | assumption | apply State.onSign_ok | apply State.dueSign_ok | exact fun hh => hh))

theorem State.signOn_ok {w : List Instr} {s : State} (hk : s.OkWith w) :
    (s.signOn).OkWith w := by
  unfold State.signOn
  repeat' split
  all_goals (repeat' (first | exact hk | assumption | apply State.onSign_ok | apply State.dueSign_ok | exact fun hh => hh))

theorem State.enterLow_ok {w : List Instr} {s : State} (hk : s.OkWith w) :
    (s.enterLow).OkWith w := by
  unfold State.enterLow
  all_goals (repeat' (first | exact hk | assumption | apply State.onSupply_ok | apply State.onConsole_ok | apply State.signOff_ok | exact fun hh => hh))

theorem State.enterNormal_ok {w : List Instr} {s : State} (hk : s.OkWith w) :
    (s.enterNormal).OkWith w := by
  unfold State.enterNormal
  all_goals (repeat' (first | exact hk | assumption | apply State.onSupply_ok | apply State.onPrint_ok | apply State.signOn_ok | exact fun hh => hh))

theorem State.halt_ok {w : List Instr} {s : State} (hk : s.OkWith w) (cause : StopCause) (cut : Bool) :
    (s.halt cause cut).OkWith w := by
  unfold State.halt
  repeat' split
  all_goals (repeat' (first | exact hk | assumption | apply State.onSupply_ok | exact fun hh => hh))

theorem Link.cold_ok : Link.cold.Ok := by
  refine ⟨?_, ?_, ?_, ?_, ?_, ?_, ?_, ?_⟩ <;> simp [Link.cold, Link.flights]

theorem Pulse.cold_ok : Pulse.cold.Ok := ⟨Nat.zero_le _, rfl, Nat.zero_le _⟩

theorem Sign.cold_ok : Sign.cold.Ok := ⟨Nat.zero_le _, by decide⟩

theorem Console.cold_ok : Console.cold.Ok := ⟨by decide, by decide⟩

theorem State.dropVolatile_ok {w : List Instr} {s : State} (hk : s.OkWith w) : s.dropVolatile.OkWith w :=
  ⟨{ image := hk.1.image
     hire := hk.1.hire
     link := Link.cold_ok
     pulse := Pulse.cold_ok
     sign := Sign.cold_ok
     intercom := ⟨hk.1.intercom.1, Nat.zero_le _, List.nodup_nil, List.nil_sublist _⟩
     card := hk.1.card
     pay := hk.1.pay
     console := Console.cold_ok
     print := ⟨Nat.zero_le _, Nat.zero_le _⟩ }, hk.2⟩

theorem State.coldDomain_ok {w : List Instr} {s : State} (hk : s.OkWith w) : s.coldDomain.OkWith w :=
  ⟨{ image := hk.1.image
     hire := ⟨trivial, Nat.zero_le _, fun _ h => absurd h List.not_mem_nil, Nat.le_refl 1, by show (1 : Nat) ≤ 9999; decide⟩
     link := hk.1.link
     pulse := hk.1.pulse
     sign := hk.1.sign
     intercom := ⟨by show (4 : Nat) ≤ 7; decide, hk.1.intercom.2⟩
     card := ⟨Nat.le_refl 1, by show (1 : Nat) ≤ 65535; decide⟩
     pay := ⟨Nat.zero_le _, fun h => Bool.noConfusion h⟩
     console := hk.1.console
     print := hk.1.print }, hk.2⟩

theorem State.restorePay_ok {w : List Instr} {s : State} (hk : s.OkWith w) : s.restorePay.OkWith w := by
  have h1 : (s.onPay fun p => { p with session := p.session.restore }).OkWith w :=
    onPay_ok hk fun hh => ⟨hh.1, fun h => hh.2 (by
      revert h
      cases s.pay.session <;> intro h <;> first | rfl | exact h)⟩
  unfold State.restorePay
  dsimp only
  split
  · rename_i x heq
    split
    · exact h1
    · exact inDoubt_ok h1 _ (h1.1.pay.2 (by rw [heq]; rfl))
  all_goals exact h1

theorem State.restoreShift_ok {w : List Instr} {s : State} (hk : s.OkWith w) :
    (s.restoreShift).OkWith w := by
  unfold State.restoreShift
  try dsimp only
  repeat' split
  all_goals (repeat' (first | exact hk | assumption | apply State.onShift_ok | apply State.sendShift_ok | apply State.account_ok | exact fun hh => hh))

theorem Slot.Ok.restore {sl : Slot} (h : sl.Ok) (seconds : Nat) : (sl.restore seconds).Ok := by
  cases sl with
  | free => trivial
  | claiming c => trivial
  | hired x => exact h
  | stopped x => exact h
  | paying x => exact h

theorem State.restoreDomain_ok {w : List Instr} {s : State} (hk : s.OkWith w) : s.restoreDomain.OkWith w := by
  unfold State.restoreDomain
  exact restoreShift_ok (restorePay_ok (onHire_ok hk fun hh => ⟨hh.1.restore _, hh.2⟩))

theorem State.domainAt_ok {w : List Instr} {s : State} (hk : s.OkWith w) (cause : StartCause) :
    (s.domainAt cause).OkWith w := by
  unfold State.domainAt
  repeat' split
  all_goals (repeat' (first | exact hk | assumption | apply State.coldDomain_ok | apply State.restoreDomain_ok | exact fun hh => hh))

theorem State.firstSign_ok {w : List Instr} {s : State} (hk : s.OkWith w) :
    (s.firstSign).OkWith w := by
  unfold State.firstSign
  repeat' split
  all_goals (repeat' (first | exact hk | assumption | apply State.onSign_ok | apply State.sendSign_ok | exact fun hh => hh))

theorem State.consoleFirstSlot_ok {w : List Instr} {s : State} (hk : s.OkWith w) :
    (s.consoleFirstSlot).OkWith w := by
  unfold State.consoleFirstSlot
  try dsimp only
  repeat' split
  all_goals (repeat' (first | exact hk | assumption | apply State.onDistress_ok | apply State.offer_ok | apply State.firstSign_ok | exact fun hh => hh))

theorem State.payFirstSlot_ok {w : List Instr} {s : State} (hk : s.OkWith w) :
    (s.payFirstSlot).OkWith w := by
  unfold State.payFirstSlot
  repeat' split
  all_goals (repeat' (first | exact hk | assumption | apply State.onPay_ok | apply State.raisePrompt_ok | exact fun hh => hh))

theorem State.firstSlot_ok {w : List Instr} {s : State} (hk : s.OkWith w) (cause : StartCause) :
    (s.firstSlot cause).OkWith w := by
  unfold State.firstSlot
  try dsimp only
  repeat' split
  all_goals (repeat' (first | exact hk | assumption | apply State.onSupply_ok | apply State.onPulse_ok | apply State.onPeer_ok | apply State.onCard_ok | apply State.payFirstSlot_ok | apply State.consoleFirstSlot_ok | apply State.onIntercom_ok | exact fun hh => hh))

theorem allSome_mem {α : Type} : ∀ {xs : List (Option α)} {ys : List α}, allSome xs = some ys → ∀ y ∈ ys, some y ∈ xs
  | [], ys, h, y, hy => by cases h; cases hy
  | none :: _, ys, h, y, hy => by cases h
  | some x :: xs, ys, h, y, hy => by
    unfold allSome at h
    obtain ⟨zs, hz, rfl⟩ := Option.map_eq_some_iff.1 h
    rcases List.mem_cons.1 hy with rfl | hy
    · exact List.mem_cons_self
    · exact List.mem_cons_of_mem _ (allSome_mem hz y hy)

theorem parseBand_ok {e : List Byte} {b : Band} (h : parseBand e = some (some b)) : bandOk b = true := by
  unfold parseBand at h
  split at h
  · cases h
  · dsimp only at h
    split at h
    · split at h
      · rename_i hb; cases h; exact hb
      · cases h
    · split at h
      · rename_i hb; cases h; exact hb
      · cases h
    · cases h

/-- Every band of a validated image is in its ranges (R64). -/
theorem validateImage_ok (read : Option (List Byte)) : ImageOk (validateImage read) := by
  intro im h b hb
  unfold validateImage at h
  split at h
  · cases h
  · split at h
    · rename_i hr
      split at h
      · cases h
        unfold readImage at hr
        dsimp only at hr
        split at hr
        · rename_i h1 _
          split at hr
          · cases hr
            obtain ⟨e, _, he⟩ := List.mem_map.1 (allSome_mem h1 _ hb)
            exact parseBand_ok he
          · cases hr
        · cases hr
      · cases h
    · cases h

theorem State.readStart_ok {w : List Instr} {s : State} (hk : s.OkWith w) (pins : StrapPins)
    (image : Option (List Byte)) : (s.readStart pins image).OkWith w := by
  unfold State.readStart
  apply dropVolatile_ok
  exact ⟨{ hk.1 with image := validateImage_ok image }, hk.2⟩

theorem State.startWhole_ok {w : List Instr} {s : State} (hk : s.OkWith w) (pins : StrapPins) (image : Option (List Byte)) :
    (s.startWhole pins image).OkWith w := by
  unfold State.startWhole
  try dsimp only
  all_goals (repeat' (first | exact hk | assumption | apply State.readStart_ok | apply State.domainAt_ok | apply State.firstSlot_ok | apply State.settleEvent_ok | exact fun hh => hh))

theorem State.restoreCut_ok {w : List Instr} {s : State} (hk : s.OkWith w) (short : Bool) :
    (s.restoreCut short).OkWith w := by
  unfold State.restoreCut
  split
  · exact onSupply_ok hk
  · exact now_ok (restoreDomain_ok hk) [] _

theorem State.startCut_ok {w : List Instr} {s : State} (hk : s.OkWith w) (pins : StrapPins) (image : Option (List Byte))
    (c : StopCause) (short : Bool) : (s.startCut pins image c short).OkWith w := by
  have h1 := restoreCut_ok (readStart_ok hk pins image) short
  unfold State.startCut
  split
  · exact onSupply_ok hk
  · exact onSupply_ok h1
  · exact onSupply_ok h1

theorem itemEntries_length (n : Nat) (x : PrintLabel × List Nat) : (itemEntries n x).length ≤ n := by
  unfold itemEntries
  rw [List.length_map]
  exact List.length_take_le _ _

theorem lineEntries_length (x : PrintLabel × List Nat) (last : Bool) : (lineEntries x last).length ≤ lineSize := by
  unfold lineEntries
  have h1 := itemEntries_length (lineSize - 1) x
  have h2 : lineSize = 48 := rfl
  simp only [List.length_append, List.length_singleton]
  omega

theorem Print.write_jobs (p : Print) (es : List PrintEntry) : (p.write es).jobs = p.jobs := by
  unfold Print.write
  dsimp only
  split <;> rfl

theorem Print.write_queue (p : Print) (es : List PrintEntry) : (p.write es).queue = p.queue ++ es := by
  unfold Print.write
  dsimp only
  split <;> rfl

/-- A builder writes within the print queue (R181). -/
theorem State.writeLine_ok {w : List Instr} {s : State} (hk : s.OkWith w) (es : List PrintEntry) (b : Builder)
    (hl : s.print.queue.length + es.length + Builder.reserve (some b) ≤ printSize) : (s.writeLine es b).OkWith w := by
  refine onPrint_ok hk fun hh => ⟨?_, ?_⟩
  · show (s.print.write es).jobs.length ≤ jobSize
    rw [Print.write_jobs]
    exact hh.1
  · show (s.print.write es).queue.length + _ ≤ printSize
    rw [Print.write_queue, List.length_append]
    exact hl

theorem Print.hasRoom_le {p : Print} (h : p.hasRoom = true) : p.queue.length ≤ 384 := by
  have h1 : printSize = 512 := rfl
  have h2 : lineRoom = 128 := rfl
  simp only [Print.hasRoom, decide_eq_true_eq] at h
  omega

theorem Builder.reserve_le (b : Option Builder) : Builder.reserve b ≤ 25 := by
  unfold Builder.reserve
  split <;> omega

theorem State.buildLine_ok {w : List Instr} {s : State} (hk : s.OkWith w) (b : Builder) (i : Nat)
    (lines : List (PrintLabel × List Nat)) (hr : s.print.queue.length ≤ 384) : (s.buildLine b i lines).OkWith w := by
  have h1 : printSize = 512 := rfl
  have h2 : lineSize = 48 := rfl
  unfold State.buildLine
  dsimp only
  split
  · rename_i x _
    refine writeLine_ok hk _ _ ?_
    have h3 := lineEntries_length x (decide (lines.length ≤ i + 1))
    have h4 := Builder.reserve_le (some { b with line := b.line + 1, finished := decide (lines.length ≤ i + 1) })
    omega
  · refine writeLine_ok hk _ _ ?_
    have h4 := Builder.reserve_le (some { b with finished := true })
    simp only [List.length_singleton]
    omega

theorem State.buildReceipt_ok {w : List Instr} {s : State} (hk : s.OkWith w) (station : Addr) (hireNo : Nat)
    (b : Builder) (hb : s.print.builder = some b) : (s.buildReceipt station hireNo b).OkWith w := by
  have h1 : printSize = 512 := rfl
  have hp := hk.1.print.2
  rw [hb] at hp
  unfold State.buildReceipt
  dsimp only
  split
  · rename_i ho
    simp only [Builder.reserve, Option.map_some, Option.getD_some, ho, if_true] at hp
    split
    · exact hk
    · refine writeLine_ok hk _ _ ?_
      simp only [Builder.reserve, Option.map_some, Option.getD_some, Bool.false_eq_true, if_false, List.length_singleton]
      omega
    · rename_i r _
      refine writeLine_ok hk _ _ ?_
      have h3 := itemEntries_length 24 r.head
      simp only [Builder.reserve, Option.map_some, Option.getD_some, Bool.false_eq_true, if_false, List.length_append,
        List.length_singleton]
      omega
  · split
    · rename_i hroom
      have hr := Print.hasRoom_le hroom
      split
      · refine writeLine_ok hk _ _ ?_
        have h3 := itemEntries_length 23 (.headingStart, [station.val, hireNo])
        simp only [Builder.reserve, Option.map_some, Option.getD_some, if_true]
        omega
      · split
        · exact hk
        · exact buildLine_ok hk _ _ _ hr
        · exact buildLine_ok hk _ _ _ hr
    · exact hk

theorem State.buildListed_ok {w : List Instr} {s : State} (hk : s.OkWith w) (b : Builder)
    (lines : List (PrintLabel × List Nat)) : (s.buildListed b lines).OkWith w := by
  unfold State.buildListed
  split
  · rename_i hroom
    exact buildLine_ok hk _ _ _ (Print.hasRoom_le hroom)
  · exact hk

theorem State.releaseLate_ok {w : List Instr} {s : State} (hk : s.OkWith w) (a : Addr) :
    (s.releaseLate a).OkWith w := by
  unfold State.releaseLate
  repeat' split
  all_goals (repeat' (first | exact hk | assumption | apply State.onClose_ok | exact fun hh => hh))

theorem State.build_ok {w : List Instr} {s : State} (hk : s.OkWith w) : s.build.OkWith w := by
  unfold State.build
  split
  · rename_i b _ hb
    split
    · exact hk
    · split
      · exact buildReceipt_ok hk _ _ _ hb
      · exact buildListed_ok hk _ _
      · exact buildListed_ok hk _ _
      · exact releaseLate_ok (buildListed_ok hk _ _) _
  · exact hk

theorem State.openTransfer_ok {w : List Instr} {s : State} (hk : s.OkWith w) (t : Addr) (hireNo : Nat) :
    (s.openTransfer t hireNo).OkWith w := by
  unfold State.openTransfer
  try dsimp only
  repeat' split
  all_goals (repeat' (first | exact hk | assumption | apply State.onPrint_ok | apply State.offer_ok | exact fun hh => hh))

theorem State.activateJob_ok {w : List Instr} {s : State} (hk : s.OkWith w) : s.activateJob.OkWith w := by
  unfold State.activateJob
  split
  · rename_i hn
    have h1 : ∀ r : Option HireRecord, (s.onPrint fun p =>
        { p with builder := some { record := r, line := 0, headOpen := false, finished := false } }).OkWith w := by
      intro r
      refine onPrint_ok hk fun hh => ⟨hh.1, ?_⟩
      exact Nat.le_trans (Nat.le_add_right _ _) hh.2
    dsimp only
    split
    · split
      · exact h1 _
      · exact openTransfer_ok (h1 none) _ _
    · exact h1 none
    · exact h1 none
    · exact h1 none
  · exact hk

theorem Print.Ok.dropQueue {p : Print} (h : p.Ok) (n m : Nat) :
    ({ p with queue := p.queue.drop n, given := m } : Print).Ok :=
  ⟨h.1, Nat.le_trans (Nat.add_le_add_right (by simp) _) h.2⟩

theorem Print.Ok.jobDone {p : Print} (h : p.Ok) : p.jobDone.Ok := by
  unfold Print.jobDone
  split
  · exact ⟨Nat.le_trans (by simp) h.1, Nat.le_trans (Nat.le_add_right _ _) h.2⟩
  · exact h

theorem Print.Ok.take {p : Print} (h : p.Ok) (e : PrintEntry) : (p.take e).Ok := by
  unfold Print.take
  split
  · exact (h.dropQueue _ _).jobDone
  · exact h

theorem State.printerTakes_ok {w : List Instr} {s : State} (hk : s.OkWith w) : s.printerTakes.OkWith w := by
  unfold State.printerTakes
  split
  · exact hk
  · split
    · exact onPrint_ok (onLines_ok hk) fun hh => hh.take _
    · exact hk

theorem State.requery_ok {w : List Instr} {s : State} (hk : s.OkWith w) (t : Transfer) :
    (s.requery t).OkWith w := by
  unfold State.requery
  try dsimp only
  repeat' split
  all_goals (repeat' (first | exact hk | assumption | apply State.onPrint_ok | apply State.offer_ok | apply State.endTransfer_ok | exact fun hh => hh))

theorem State.takePart_ok {w : List Instr} {s : State} (hk : s.OkWith w) (t : Transfer) (k : Nat) (m : Nat) (hireNo : Nat) (data : List Byte) :
    (s.takePart t k m hireNo data).OkWith w := by
  unfold State.takePart
  try dsimp only
  repeat' split
  all_goals (repeat' (first | exact hk | assumption | apply State.endTransfer_ok | apply State.onPrint_ok | apply State.requery_ok | exact fun hh => hh))

theorem State.takeRecordPart_ok {w : List Instr} {s : State} (hk : s.OkWith w) (sender : Addr) (k : Nat) (m : Nat) (hireNo : Nat) (data : List Byte) :
    (s.takeRecordPart sender k m hireNo data).OkWith w := by
  unfold State.takeRecordPart
  repeat' split
  all_goals (repeat' (first | exact hk | assumption | apply State.takePart_ok | apply State.onPrint_ok | exact fun hh => hh))

theorem State.partLimit_ok {w : List Instr} {s : State} (hk : s.OkWith w) :
    (s.partLimit).OkWith w := by
  unfold State.partLimit
  repeat' split
  all_goals (repeat' (first | exact hk | assumption | apply State.requery_ok | exact fun hh => hh))

theorem State.serveRecord_ok {w : List Instr} {s : State} (hk : s.OkWith w) (hireNo : Nat) (first : Nat) :
    (s.serveRecord hireNo first).OkWith w := by
  unfold State.serveRecord
  try dsimp only
  repeat' split
  all_goals (repeat' (first | exact hk | assumption | apply State.onPrint_ok | apply State.offer_ok | exact fun hh => hh))

theorem State.endKeys_ok {w : List Instr} {s : State} (hk : s.OkWith w) :
    (s.endKeys).OkWith w := by
  unfold State.endKeys
  all_goals (repeat' (first | exact hk | assumption | apply State.onConsole_ok | exact fun hh => hh))

theorem State.say_ok {w : List Instr} {s : State} (hk : s.OkWith w) (m : Message) :
    (s.say m).OkWith w := by
  unfold State.say
  all_goals (repeat' (first | exact hk | assumption | apply State.onConsole_ok | exact fun hh => hh))

theorem State.formSelected_ok {w : List Instr} {s : State} (hk : s.OkWith w) (cmd : Cmd) :
    (s.formSelected cmd).OkWith w := by
  unfold State.formSelected
  repeat' split
  all_goals (repeat' (first | exact hk | assumption | apply State.formCommand_ok | apply State.say_ok | exact fun hh => hh))

theorem State.selectStation_ok {w : List Instr} {s : State} (hk : s.OkWith w) (a : Addr) :
    (s.selectStation a).OkWith w := by
  unfold State.selectStation
  all_goals (repeat' (first | exact hk | assumption | apply State.onConsole_ok | exact fun hh => hh))

theorem State.takeOpenKeyed_ok {w : List Instr} {s : State} (hk : s.OkWith w) (driver : Nat) :
    (s.takeOpenKeyed driver).OkWith w := by
  unfold State.takeOpenKeyed
  repeat' split
  all_goals (repeat' (first | exact hk | assumption | apply State.say_ok | apply State.openShift_ok | exact fun hh => hh))

theorem State.takeClockSetting_ok {w : List Instr} {s : State} (hk : s.OkWith w) (year : Nat) (month : Nat) (day : Nat) (hour : Nat) (minute : Nat) :
    (s.takeClockSetting year month day hour minute).OkWith w := by
  unfold State.takeClockSetting
  repeat' split
  all_goals (repeat' (first | exact hk | assumption | apply State.say_ok | apply State.onClock_ok | exact fun hh => hh))

theorem State.takeLampTest_ok {w : List Instr} {s : State} (hk : s.OkWith w) :
    (s.takeLampTest).OkWith w := by
  unfold State.takeLampTest
  repeat' split
  all_goals (repeat' (first | exact hk | assumption | apply State.startTest_ok | apply State.say_ok | exact fun hh => hh))

theorem State.takeServicePage_ok {w : List Instr} {s : State} (hk : s.OkWith w) :
    (s.takeServicePage).OkWith w := by
  unfold State.takeServicePage
  all_goals (repeat' (first | exact hk | assumption | apply State.onConsole_ok | exact fun hh => hh))

theorem State.keyJob_ok {w : List Instr} {s : State} (hk : s.OkWith w) (j : Job) : (s.keyJob j).OkWith w := by
  unfold State.keyJob
  split
  · exact say_ok hk _
  · rename_i h
    exact addJob_ok hk _ (by simpa using h)

theorem State.takeLastReport_ok {w : List Instr} {s : State} (hk : s.OkWith w) :
    (s.takeLastReport).OkWith w := by
  unfold State.takeLastReport
  repeat' split
  all_goals (repeat' (first | exact hk | assumption | apply State.keyJob_ok | apply State.say_ok | exact fun hh => hh))

theorem State.takeForcedClose_ok {w : List Instr} {s : State} (hk : s.OkWith w) :
    (s.takeForcedClose).OkWith w := by
  unfold State.takeForcedClose
  repeat' split
  all_goals (repeat' (first | exact hk | assumption | apply State.startCollect_ok | apply State.say_ok | exact fun hh => hh))

theorem State.takeClose_ok {w : List Instr} {s : State} (hk : s.OkWith w) :
    (s.takeClose).OkWith w := by
  unfold State.takeClose
  repeat' split
  all_goals (repeat' (first | exact hk | assumption | apply State.say_ok | apply State.startCollect_ok | exact fun hh => hh))

theorem State.takePrint_ok {w : List Instr} {s : State} (hk : s.OkWith w) (hireNo : Nat) :
    (s.takePrint hireNo).OkWith w := by
  unfold State.takePrint
  all_goals (repeat' (first | exact hk | assumption | apply State.keyJob_ok | exact fun hh => hh))

theorem State.collect_ok {w : List Instr} {s : State} (hk : s.OkWith w) (k : KeySeq) :
    (s.collect k).OkWith w := by
  unfold State.collect
  all_goals (repeat' (first | exact hk | assumption | apply State.onConsole_ok | exact fun hh => hh))

theorem State.openSeq_ok {w : List Instr} {s : State} (hk : s.OkWith w) (k : KeySeq) :
    (s.openSeq k).OkWith w := by
  unfold State.openSeq
  all_goals (repeat' (first | exact hk | assumption | apply State.collect_ok | apply State.onConsole_ok | exact fun hh => hh))

theorem State.ignoreKey_ok {w : List Instr} {s : State} (hk : s.OkWith w) :
    (s.ignoreKey).OkWith w := by
  unfold State.ignoreKey
  all_goals (repeat' (first | exact hk | assumption | apply State.collect_ok | exact fun hh => hh))

theorem State.invalid_ok {w : List Instr} {s : State} (hk : s.OkWith w) :
    (s.invalid).OkWith w := by
  unfold State.invalid
  all_goals (repeat' (first | exact hk | assumption | apply State.endKeys_ok | apply State.say_ok | exact fun hh => hh))

theorem State.takeClear_ok {w : List Instr} {s : State} (hk : s.OkWith w) :
    (s.takeClear).OkWith w := by
  unfold State.takeClear
  all_goals (repeat' (first | exact hk | assumption | apply State.endKeys_ok | exact fun hh => hh))

theorem State.idleKey_ok {w : List Instr} {s : State} (hk : s.OkWith w) (x0 : Key) :
    (s.idleKey x0).OkWith w := by
  unfold State.idleKey
  repeat' split
  all_goals (repeat' (first | exact hk | assumption | apply State.openSeq_ok | apply State.account_ok | apply State.endKeys_ok | apply State.formSelected_ok | apply State.takeTalk_ok | apply State.takeAnnounce_ok | apply State.takeClose_ok | apply State.takeClear_ok | apply State.onConsole_ok | exact fun hh => hh))

theorem State.selectDigit_ok {w : List Instr} {s : State} (hk : s.OkWith w) (d : Fin 10) :
    (s.selectDigit d).OkWith w := by
  unfold State.selectDigit
  repeat' split
  all_goals (repeat' (first | exact hk | assumption | apply State.endKeys_ok | apply State.selectStation_ok | apply State.collect_ok | exact fun hh => hh))

theorem State.hireKey_ok {w : List Instr} {s : State} (hk : s.OkWith w) (kind : Kind) (party : Option Nat) (x0 : Key) :
    (s.hireKey kind party x0).OkWith w := by
  unfold State.hireKey
  repeat' split
  all_goals (repeat' (first | exact hk | assumption | apply State.collect_ok | apply State.ignoreKey_ok | apply State.endKeys_ok | apply State.formSelected_ok | apply State.invalid_ok | exact fun hh => hh))

theorem State.extraKey_ok {w : List Instr} {s : State} (hk : s.OkWith w) (code : Option Nat) (amount : List Nat) (x0 : Key) :
    (s.extraKey code amount x0).OkWith w := by
  unfold State.extraKey
  repeat' split
  all_goals (repeat' (first | exact hk | assumption | apply State.collect_ok | apply State.ignoreKey_ok | apply State.invalid_ok | apply State.endKeys_ok | apply State.formSelected_ok | exact fun hh => hh))

theorem State.payKey_ok {w : List Instr} {s : State} (hk : s.OkWith w) (x0 : Key) :
    (s.payKey x0).OkWith w := by
  unfold State.payKey
  repeat' split
  all_goals (repeat' (first | exact hk | assumption | apply State.endKeys_ok | apply State.formSelected_ok | apply State.ignoreKey_ok | exact fun hh => hh))

theorem State.cashKey_ok {w : List Instr} {s : State} (hk : s.OkWith w) (ds : List Nat) (x0 : Key) :
    (s.cashKey ds x0).OkWith w := by
  unfold State.cashKey
  repeat' split
  all_goals (repeat' (first | exact hk | assumption | apply State.collect_ok | apply State.ignoreKey_ok | apply State.invalid_ok | apply State.endKeys_ok | apply State.formSelected_ok | exact fun hh => hh))

theorem State.accountKey_ok {w : List Instr} {s : State} (hk : s.OkWith w) (ds : List Nat) (x0 : Key) :
    (s.accountKey ds x0).OkWith w := by
  unfold State.accountKey
  repeat' split
  all_goals (repeat' (first | exact hk | assumption | apply State.collect_ok | apply State.account_ok | apply State.ignoreKey_ok | apply State.invalid_ok | apply State.endKeys_ok | apply State.formSelected_ok | exact fun hh => hh))

theorem State.printKey_ok {w : List Instr} {s : State} (hk : s.OkWith w) (ds : List Nat) (x0 : Key) :
    (s.printKey ds x0).OkWith w := by
  unfold State.printKey
  repeat' split
  all_goals (repeat' (first | exact hk | assumption | apply State.collect_ok | apply State.ignoreKey_ok | apply State.endKeys_ok | apply State.takePrint_ok | exact fun hh => hh))

theorem State.enterFunction_ok {w : List Instr} {s : State} (hk : s.OkWith w) (n : Nat) (ds : List Nat) :
    (s.enterFunction n ds).OkWith w := by
  unfold State.enterFunction
  try dsimp only
  repeat' split
  all_goals (repeat' (first | exact hk | assumption | apply State.invalid_ok | apply State.endKeys_ok | apply State.takeOpenKeyed_ok | apply State.takeClockSetting_ok | apply State.takeLampTest_ok | apply State.takeServicePage_ok | apply State.takeLastReport_ok | apply State.takeForcedClose_ok | apply State.clearLatch_ok | apply State.ignoreKey_ok | exact fun hh => hh))

theorem State.functionKey_ok {w : List Instr} {s : State} (hk : s.OkWith w) (n : Option Nat) (ds : List Nat) (x0 : Key) :
    (s.functionKey n ds x0).OkWith w := by
  unfold State.functionKey
  repeat' split
  all_goals (repeat' (first | exact hk | assumption | apply State.collect_ok | apply State.ignoreKey_ok | apply State.enterFunction_ok | exact fun hh => hh))

theorem State.seqKey_ok {w : List Instr} {s : State} (hk : s.OkWith w) (k : Key) :
    (s.seqKey k).OkWith w := by
  unfold State.seqKey
  repeat' split
  all_goals (repeat' (first | exact hk | assumption | apply State.idleKey_ok | apply State.selectDigit_ok | apply State.ignoreKey_ok | apply State.hireKey_ok | apply State.extraKey_ok | apply State.payKey_ok | apply State.cashKey_ok | apply State.account_ok | apply State.accountKey_ok | apply State.printKey_ok | apply State.functionKey_ok | exact fun hh => hh))

theorem State.pressKey_ok {w : List Instr} {s : State} (hk : s.OkWith w) (k : Key) :
    (s.pressKey k).OkWith w := by
  unfold State.pressKey
  repeat' split
  all_goals (repeat' (first | exact hk | assumption | apply State.takeClear_ok | apply State.seqKey_ok | exact fun hh => hh))

theorem State.offerDeferred_ok {w : List Instr} {s : State} (hk : s.OkWith w) (t : Addr) : (s.offerDeferred t).OkWith w := by
  unfold State.offerDeferred
  split
  · rename_i cmd rest _ hd
    have h1 : (s.onConsole fun c => { c with deferred := c.deferred.set t rest }).OkWith w :=
      onConsole_ok hk fun hh => hh.setDeferred t _ (by
        have := hh.2 t
        rw [hd, List.length_cons] at this
        omega)
    dsimp only
    split
    · exact onIntercom_ok (giveCommand_ok h1 _ _) fun hh => hh
    · exact giveCommand_ok h1 _ _
  · exact hk

end Sys2Proof.Machine
end

