-- ==== Sys2Proof/Laws/KeepsEvents.lean ====
section
/-! SUPPORT. The ways a command is taken, the line events of the link controller and the passing of time keep the bounds and
the queue of commands. -/
namespace Sys2Proof.Machine
open Sys2Proof

/-- What one taken command answers, when its operation keeps the bounds. -/
theorem event_ok {w : List Instr} {f : State → State} (hf : ∀ t : State, t.OkWith w → (f t).OkWith w) {s t : State}
    (hk : s.OkWith w) (h : event f s = .next t) : t.OkWith w := by
  unfold event at h
  cases h
  split
  · exact State.settleEvent_ok (hf s hk)
  · exact hk

theorem frameEvent_ok {w : List Instr} {sender : Addr} {f : State → State}
    (hf : ∀ t : State, t.OkWith w → (f t).OkWith w) {s t : State} (hk : s.OkWith w)
    (h : frameEvent sender f s = .next t) : t.OkWith w :=
  event_ok (fun _ ht => State.hear_ok ht _ _ hf) hk h

theorem commandEvent_ok {w : List Instr} {src : Source} {seq : Nat} {f : State → State}
    (hf : ∀ t : State, t.OkWith w → (f t).OkWith w) {s t : State} (hk : s.OkWith w)
    (h : commandEvent src seq f s = .next t) : t.OkWith w :=
  event_ok (fun _ ht => State.command_ok ht _ _ _ hf) hk h

theorem keyEvent_ok {w : List Instr} {f : State → State} (hf : ∀ t : State, t.OkWith w → (f t).OkWith w) {s t : State}
    (hk : s.OkWith w) (h : keyEvent f s = .next t) : t.OkWith w :=
  event_ok (fun u hu => by
    show (if u.keysTaken = true then f u else u).OkWith w
    split
    · exact hf u hu
    · exact hu) hk h

theorem sequenceEvent_ok {w : List Instr} {own : KeySeq → Bool} {f : State → State}
    (hf : ∀ t : State, t.OkWith w → (f t).OkWith w) {s t : State} (hk : s.OkWith w)
    (h : sequenceEvent own f s = .next t) : t.OkWith w :=
  keyEvent_ok (fun u hu => by
    show (if u.console.keys = .idle ∨ own u.console.keys = true then f u.endKeys else u).OkWith w
    split
    · exact hf _ (State.endKeys_ok hu)
    · exact hu) hk h

theorem cardEvent_ok {w : List Instr} {f : State → State} (hf : ∀ t : State, t.OkWith w → (f t).OkWith w) {s t : State}
    (hk : s.OkWith w) (h : cardEvent f s = .next t) : t.OkWith w :=
  event_ok (fun u hu => by
    show (if u.card.moduleState = .notFitted then u else f (u.onCard fun c => { c with rxOpen := false })).OkWith w
    split
    · exact hu
    · exact hf _ (State.onCard_ok hu fun hh => hh)) hk h

theorem inputEvent_ok {w : List Instr} {active : Bool} {f : State → State}
    (hf : ∀ t : State, t.OkWith w → (f t).OkWith w) {s t : State} (hk : s.OkWith w)
    (h : inputEvent active f s = .next t) : t.OkWith w :=
  event_ok hf (State.onDistress_ok hk) h

/-! ### Line events -/

theorem Link.Ok.beginHead {l : Link} (h : l.Ok) (hn : l.flights = []) (hp : l.pause = none) : l.beginHead.Ok := by
  unfold Link.beginHead
  split
  · exact h
  · rename_i e es hq
    obtain ⟨h1, h2, h3, h4, h5, h6, h7, h8⟩ := h
    rw [hq] at h1 h2 h3 h4 h7
    have hf : (e :: es).filter (·.begun) = [] := by rw [← hq]; exact hn
    have he : es.filter (·.begun) = [] := by
      rw [List.filter_eq_nil_iff] at hf ⊢
      exact fun a ha => hf a (List.mem_cons_of_mem _ ha)
    refine ⟨h1, ?_, ?_, ?_, ?_, ?_, ?_, h8⟩
    · rw [List.pairwise_cons] at h2 ⊢; exact h2
    · have h := h3
      show (List.filter _ ({ e with begun := true } :: es)).length ≤ 1
      rw [List.filter_cons] at h ⊢
      dsimp only
      split at h <;> simp_all
    · have h := h4
      show (List.filter _ ({ e with begun := true } :: es)).length ≤ 1
      rw [List.filter_cons] at h ⊢
      dsimp only
      split at h <;> simp_all
    · show (List.filter _ ({ e with begun := true } :: es)).length ≤ 1
      rw [List.filter_cons]
      simp [he]
    · intro hs
      have : l.pause.isSome = true := hs
      rw [hp] at this
      cases this
    · intro hc
      cases h7 hc

theorem Link.Ok.setPause {l : Link} (h : l.Ok) (t : Timer) (hn : l.flights = [] ∨ t = none) (sync : Bool) :
    ({ l with synced := sync, pause := t } : Link).Ok := by
  obtain ⟨h1, h2, h3, h4, h5, h6, h7, h8⟩ := h
  refine ⟨h1, h2, h3, h4, h5, ?_, h7, h8⟩
  intro hs
  rcases hn with hn | hn
  · exact hn
  · subst hn; cases hs

theorem Link.Ok.idle {l : Link} (h : l.Ok) : l.idle.Ok := by
  have h0 := h.setPause none (Or.inr rfl) true
  unfold Link.idle
  dsimp only
  split
  · exact h0
  · rename_i hb
    have hn : ({ l with synced := true, pause := none } : Link).flights = [] := by
      show l.queue.filter (·.begun) = []
      rw [List.filter_eq_nil_iff]
      intro a ha hc
      exact hb (List.any_eq_true.2 ⟨a, ha, hc⟩)
    split
    · exact h0
    · split
      · exact h.setPause _ (Or.inl hn) true
      · exact h0.beginHead hn rfl

theorem Link.Ok.setFairness {l : Link} (h : l.Ok) (n : Nat) (hn : n ≤ 6) : ({ l with fairness := n } : Link).Ok :=
  ⟨h.1, h.2.1, h.2.2.1, h.2.2.2.1, h.2.2.2.2.1, h.2.2.2.2.2.1, h.2.2.2.2.2.2.1, hn⟩

theorem Link.Ok.endPause {l : Link} (h : l.Ok) : l.endPause.Ok := by
  unfold Link.endPause
  split
  · rename_i hp
    have hn : l.flights = [] := h.2.2.2.2.2.1 hp
    have h0 := h.setPause none (Or.inr rfl) l.synced
    dsimp only
    split
    · split
      · exact h0
      · split
        · exact h0.beginHead hn rfl
        · exact (h0.beginHead hn rfl).setFairness 0 (Nat.zero_le _)
    · exact h0
  · exact h

/-- A change that takes every entry out of flight and keeps its class. -/
theorem Link.Ok.ground {l : Link} (h : l.Ok) (f : Entry → Entry) (hc : ∀ e, (f e).cls = e.cls)
    (hb : ∀ e, (f e).begun = false) : ({ l with queue := l.queue.map f, repl := none } : Link).Ok := by
  obtain ⟨h1, h2, h3, h4, h5, h6, h7, h8⟩ := h
  have hf : (l.queue.map f).filter (·.begun) = [] := by
    simp [List.filter_map, Function.comp_def, hb]
  refine ⟨by simpa using h1, ?_, ?_, ?_, ?_, ?_, ?_, h8⟩
  · rw [List.pairwise_map]; simpa [hc] using h2
  · simpa [List.filter_map, Function.comp_def, hc] using h3
  · simpa [List.filter_map, Function.comp_def, hc] using h4
  · show ((l.queue.map f).filter (·.begun)).length ≤ 1
    rw [hf]
    exact Nat.zero_le _
  · exact fun _ => hf
  · intro hp
    simp [h7 hp]

theorem Link.Ok.attemptEnds {l : Link} (h : l.Ok) : l.attemptEnds.Ok := by
  refine h.ground _ ?_ ?_
  · intro e
    split <;> rfl
  · intro e
    split
    · rfl
    · rename_i hn
      simpa using hn

/-- An odometer pulse and a touch of the tally (R46). -/
theorem Pulse.Ok.count {p : Pulse} (h : p.Ok) : ({ p with raw := min 4095 (p.raw + 1) } : Pulse).Ok :=
  ⟨Nat.min_le_left _ _, h.2⟩

/-! ### Time -/

theorem State.tickRunning_ok {w : List Instr} {s : State} (hk : s.OkWith w) : s.tickRunning.OkWith w := by
  have hl : ({ s.link with pause := s.link.pause.dec } : Link).Ok := by
    obtain ⟨h1, h2, h3, h4, h5, h6, h7, h8⟩ := hk.1.link
    refine ⟨h1, h2, h3, h4, h5, ?_, h7, h8⟩
    intro hs
    apply h6
    revert hs
    show (s.link.pause.dec).isSome = true → _
    unfold Timer.dec
    cases s.link.pause <;> simp
  have hq : ∀ q : List CallEntry, (q.map fun e : CallEntry => { e with left := e.left - 1 }).map (·.addr) = q.map (·.addr) := by
    intro q; rw [List.map_map]; rfl
  have hs : s.hire.slot.tick.Ok := by
    have h0 := hk.1.hire.1
    revert h0
    cases s.hire.slot <;> exact fun h => h
  refine ⟨{ hk.1 with
    hire := ⟨hs, hk.1.hire.2⟩
    link := hl
    intercom := ⟨hk.1.intercom.1, ?_, ?_, hk.1.intercom.2.2.2⟩
    console := hk.1.console
    print := hk.1.print }, hk.2⟩
  · show (s.intercom.queue.map _).length ≤ callSize
    rw [List.length_map]; exact hk.1.intercom.2.1
  · show ((s.intercom.queue.map _).map _).Nodup
    rw [hq]; exact hk.1.intercom.2.2.1

theorem State.tick_ok {w : List Instr} {s : State} (hk : s.OkWith w) : s.tick.OkWith w := by
  unfold State.tick
  dsimp only
  split
  · exact tickRunning_ok (onClock_ok hk)
  · exact onSupply_ok (onClock_ok hk)

end Sys2Proof.Machine
end

