-- ==== Sys2Proof/Laws/Settle.lean ====
section
/-! SUPPORT. What completes every event (R81, R94, R153) keeps all but the items that `State.Kept` leaves out, and loses no reply
and no hire event. -/
namespace Sys2Proof.Machine
open Sys2Proof

theorem State.Kept.refl (s : State) : s.Kept s := by
  constructor <;> first
      | rfl | (intro h; exact ⟨rfl, rfl, rfl, rfl, rfl, rfl, rfl, rfl, h, rfl, rfl, rfl⟩) | exact fun _ _ _ _ h => h

theorem State.Kept.trans {a b c : State} (h : a.Kept b) (g : b.Kept c) : a.Kept c := by
  constructor
  case shift =>
    intro hp
    obtain ⟨a1, a2, a3, a4, a5, a6, a7, a8, a9, a10, a11, a12⟩ := h.shift hp
    obtain ⟨b1, b2, b3, b4, b5, b6, b7, b8, b9, b10, b11, b12⟩ := g.shift a9
    exact ⟨b1.trans a1, b2.trans a2, b3.trans a3, b4.trans a4, b5.trans a5, b6.trans a6, b7.trans a7, b8.trans a8, b9,
      b10.trans a10, b11.trans a11, b12.trans a12⟩
  case queued => exact fun c p h0 h6 hc => g.queued c p h0 h6 (h.queued c p h0 h6 hc)
  all_goals first
    | exact g.straps.trans h.straps | exact g.image.trans h.image | exact g.rows.trans h.rows
    | exact g.period.trans h.period | exact g.pulse.trans h.pulse | exact g.clock.trans h.clock
    | exact g.distress.trans h.distress | exact g.slot.trans h.slot | exact g.log.trans h.log
    | exact g.resume.trans h.resume | exact g.tally.trans h.tally | exact g.speed.trans h.speed
    | exact g.claimId.trans h.claimId | exact g.endState.trans h.endState | exact g.callTimer.trans h.callTimer
    | exact g.endTimer.trans h.endTimer | exact g.volume.trans h.volume | exact g.prompt.trans h.prompt
    | exact g.promptTimer.trans h.promptTimer | exact g.press.trans h.press | exact g.callers.trans h.callers
    | exact g.announceTimer.trans h.announceTimer | exact g.listenSet.trans h.listenSet
    | exact g.announced.trans h.announced | exact g.withdrawDue.trans h.withdrawDue | exact g.card.trans h.card
    | exact g.pay.trans h.pay | exact g.close.trans h.close | exact g.keys.trans h.keys
    | exact g.keyTimer.trans h.keyTimer | exact g.selected.trans h.selected | exact g.deferred.trans h.deferred
    | exact g.nextSeq.trans h.nextSeq | exact g.page.trans h.page | exact g.privacyInd.trans h.privacyInd
    | exact g.jobs.trans h.jobs | exact g.builder.trans h.builder | exact g.printQueue.trans h.printQueue
    | exact g.given.trans h.given | exact g.released.trans h.released | exact g.flush.trans h.flush
    | exact g.paperOut.trans h.paperOut | exact g.display.trans h.display | exact g.supply.trans h.supply
    | exact g.cabLine.trans h.cabLine | exact g.cardLine.trans h.cardLine | exact g.printerLine.trans h.printerLine
    | exact g.now.trans h.now | exact g.clash.trans h.clash | exact g.synced.trans h.synced
    | exact g.pending.trans h.pending

/-! ### Offers -/

theorem Link.offer_flags {l l' : Link} {now cls : Nat} {payload : List Byte} {tag : Tag}
    (h : l.offer now cls payload tag = some l') :
    l'.clash = l.clash ∧ l'.synced = l.synced ∧ l'.fairness = l.fairness ∧ l'.pause = l.pause := by
  unfold Link.offer at h
  repeat' split at h
  all_goals first
    | contradiction
    | (cases h; exact ⟨rfl, rfl, rfl, rfl⟩)

theorem Link.refresh_flags (l : Link) (payload : List Byte) :
    (l.refresh payload).clash = l.clash ∧ (l.refresh payload).synced = l.synced
      ∧ (l.refresh payload).fairness = l.fairness ∧ (l.refresh payload).pause = l.pause := by
  unfold Link.refresh
  repeat' split
  all_goals exact ⟨rfl, rfl, rfl, rfl⟩

theorem Link.replace_carries {l : Link} {c : Nat} {p : List Byte} (h : l.Carries c p) (n : Nat) (q : List Byte)
    (hn : c ≠ n) : (l.replace n q).Carries c p := by
  obtain ⟨e, he, h1, h2⟩ := h
  refine ⟨e, List.mem_map.2 ⟨e, he, ?_⟩, h1, h2⟩
  rw [if_neg]
  rw [h1]
  exact hn

theorem Link.refresh_carries {l : Link} {c : Nat} {p : List Byte} (h : l.Carries c p) (q : List Byte) (hn : c ≠ 6) :
    (l.refresh q).Carries c p := by
  unfold Link.refresh
  split
  · exact h
  · split
    · exact replace_carries h 6 q hn
    · exact h

theorem mem_insertEntry_self (e : Entry) (q : List Entry) : e ∈ insertEntry e q := by
  induction q with
  | nil => exact List.mem_cons_self
  | cons x xs ih =>
    unfold insertEntry
    split
    · exact List.mem_cons_of_mem _ ih
    · exact List.mem_cons_self

theorem mem_insertEntry_old (e a : Entry) (q : List Entry) (h : a ∈ q) : a ∈ insertEntry e q := by
  induction q with
  | nil => cases h
  | cons x xs ih =>
    unfold insertEntry
    split
    · rcases List.mem_cons.1 h with rfl | h
      · exact List.mem_cons_self
      · exact List.mem_cons_of_mem _ (ih h)
    · exact List.mem_cons_of_mem _ h

/-- A frame that is not of a replaced class stays queued when another is offered (R81, R82). -/
theorem Link.offer_carries {l l' : Link} {now cls : Nat} {payload : List Byte} {tag : Tag}
    (ho : l.offer now cls payload tag = some l') {c : Nat} {p : List Byte} (h : l.Carries c p) (h0 : c ≠ 0) (h6 : c ≠ 6) :
    l'.Carries c p := by
  unfold Link.offer at ho
  split at ho
  · cases ho
  split at ho
  · rename_i hr
    split at ho
    · cases ho; exact h
    · cases ho
      refine replace_carries h cls payload ?_
      rintro rfl
      simp [replaceable, h0, h6] at hr
  split at ho
  · cases ho
    obtain ⟨e, he, h1, h2⟩ := h
    exact ⟨e, mem_insertEntry_old _ _ _ he, h1, h2⟩
  · cases ho

theorem State.onLink_kept (s : State) {f : Link → Link} (hc : (f s.link).clash = s.link.clash)
    (hs : (f s.link).synced = s.link.synced)
    (hq : ∀ c p, c ≠ 0 → c ≠ 6 → s.link.Carries c p → (f s.link).Carries c p) : s.Kept (s.onLink f) := by
  constructor <;> first
    | rfl | exact hc | exact hs | exact hq
    | (intro h; exact ⟨rfl, rfl, rfl, rfl, rfl, rfl, rfl, rfl, h, rfl, rfl, rfl⟩) | exact fun _ _ _ _ h => h

theorem State.detachTalk_kept (s : State) : s.Kept s.detachTalk := by
  constructor <;> first
      | rfl | (intro h; exact ⟨rfl, rfl, rfl, rfl, rfl, rfl, rfl, rfl, h, rfl, rfl, rfl⟩) | exact fun _ _ _ _ h => h

theorem State.offerTaken_kept (s : State) (o : Offer) : s.Kept (s.offerTaken o) := by
  cases o
  case hireEvent =>
    unfold State.offerTaken
    dsimp only
    split
    · have h := Link.refresh_flags s.link
      constructor <;> first
        | rfl | exact (h _).1 | exact (h _).2.1 | exact fun _ _ _ h6 hc => Link.refresh_carries hc _ h6
        | (intro h; exact ⟨rfl, rfl, rfl, rfl, rfl, rfl, rfl, rfl, h, rfl, rfl, rfl⟩) | exact fun _ _ _ _ h => h
    · constructor <;> first
      | rfl | (intro h; exact ⟨rfl, rfl, rfl, rfl, rfl, rfl, rfl, rfl, h, rfl, rfl, rfl⟩) | exact fun _ _ _ _ h => h
  all_goals
    constructor <;> first
      | rfl | (intro h; exact ⟨rfl, rfl, rfl, rfl, rfl, rfl, rfl, rfl, h, rfl, rfl, rfl⟩) | exact fun _ _ _ _ h => h

theorem State.offerRefused_kept (s : State) (o : Offer) : s.Kept (s.offerRefused o) := by
  cases o
  case command t =>
    unfold State.offerRefused
    dsimp only
    split <;>
      (constructor <;> first
      | rfl | (intro h; exact ⟨rfl, rfl, rfl, rfl, rfl, rfl, rfl, rfl, h, rfl, rfl, rfl⟩) | exact fun _ _ _ _ h => h)
  all_goals
    constructor <;> first
      | rfl | (intro h; exact ⟨rfl, rfl, rfl, rfl, rfl, rfl, rfl, rfl, h, rfl, rfl, rfl⟩) | exact fun _ _ _ _ h => h

/-- One offer keeps what `State.Kept` lists. -/
theorem State.tryOffer_kept (s : State) (o : Offer) : s.Kept (s.tryOffer o) := by
  unfold State.tryOffer
  split
  · exact .refl s
  · split
    · rename_i ho
      have h := Link.offer_flags ho
      exact (onLink_kept s h.1 h.2.1 fun _ _ h0 h6 hc => Link.offer_carries ho hc h0 h6).trans (offerTaken_kept _ o)
    · exact offerRefused_kept s o

theorem State.setFree_kept (s : State) (os : List Offer) (n : Nat) : s.Kept { s with offers := os, free := n } := by
  constructor <;> first
      | rfl | (intro h; exact ⟨rfl, rfl, rfl, rfl, rfl, rfl, rfl, rfl, h, rfl, rfl, rfl⟩) | exact fun _ _ _ _ h => h

/-- Offers of one moment, in whatever order they are admitted, keep what `State.Kept` lists. -/
theorem flushFree_kept (n : Nat) : ∀ (os : List Offer) (s : State), s.Kept (flushFree n os s) := by
  induction n with
  | zero => exact fun _ s => .refl s
  | succ n ih =>
    intro os s
    match os with
    | [] => exact .refl s
    | [o] => exact State.tryOffer_kept s o
    | a :: b :: rest =>
      exact ((State.setFree_kept s s.offers (s.free + 1)).trans (State.tryOffer_kept _ _)).trans (ih _ _)

theorem tryAll_kept (os : List Offer) : ∀ s : State, s.Kept (os.foldl State.tryOffer s) := by
  induction os with
  | nil => exact fun s => .refl s
  | cons o os ih => exact fun s => (State.tryOffer_kept s o).trans (ih _)

theorem State.flushOffers_kept (s : State) : s.Kept s.flushOffers := by
  unfold State.flushOffers
  dsimp only
  split
  · exact (setFree_kept s [] s.free).trans (tryAll_kept _ _)
  · exact (setFree_kept s [] s.free).trans (flushFree_kept _ _ _)

/-! ### The sign and the late close -/

theorem State.sendSign_kept (s : State) (m : SignMsg) : s.Kept (s.sendSign m) := by
  constructor <;> first
      | rfl | (intro h; exact ⟨rfl, rfl, rfl, rfl, rfl, rfl, rfl, rfl, h, rfl, rfl, rfl⟩) | exact fun _ _ _ _ h => h

theorem State.onSign_kept (s : State) (f : Sign → Sign) : s.Kept (s.onSign f) := by
  constructor <;> first
      | rfl | (intro h; exact ⟨rfl, rfl, rfl, rfl, rfl, rfl, rfl, rfl, h, rfl, rfl, rfl⟩) | exact fun _ _ _ _ h => h

theorem State.dueSign_kept (s : State) (m : SignMsg) : s.Kept (s.dueSign m) := by
  unfold State.dueSign
  split
  · exact onSign_kept s _
  · exact sendSign_kept s m

theorem State.signUpdate_kept (s : State) : s.Kept s.signUpdate := by
  unfold State.signUpdate
  split
  · exact (onSign_kept s _).trans (dueSign_kept _ _)
  · exact .refl s

theorem State.startLateSummary_form (s : State) :
    ∃ sh os, s.startLateSummary = ({ s with shift := sh, offers := os } : State) := by
  unfold State.startLateSummary
  split
  · exact ⟨_, _, rfl⟩
  · exact ⟨_, _, rfl⟩

/-- What a late close can change (R153): the shift, what is offered, and the next hire number. -/
theorem State.lateCloseIfDue_form (s : State) (h : s.shift.pendingLate ≠ none) :
    ∃ sh os n, s.lateCloseIfDue = ({ s with shift := sh, offers := os, hire := { s.hire with nextNo := n } } : State) := by
  unfold State.lateCloseIfDue
  split
  · split
    · obtain ⟨sh, os, h1⟩ := startLateSummary_form (s.closeShift .late)
      dsimp only
      rw [h1]
      exact ⟨_, _, _, rfl⟩
    · exact ⟨s.shift, s.offers, s.hire.nextNo, rfl⟩
  · rename_i hn
    exact absurd hn h

theorem State.lateCloseIfDue_none (s : State) (h : s.shift.pendingLate = none) : s.lateCloseIfDue = s := by
  unfold State.lateCloseIfDue
  rw [h]

theorem State.lateCloseIfDue_kept (s : State) : s.Kept s.lateCloseIfDue := by
  by_cases h : s.shift.pendingLate = none
  · rw [lateCloseIfDue_none s h]
    exact .refl s
  · obtain ⟨sh, os, n, h1⟩ := lateCloseIfDue_form s h
    rw [h1]
    constructor <;> first | rfl | exact (fun _ _ _ _ h => h) | (intro h0; exact absurd h0 h)

/-- The end of an event keeps what `State.Kept` lists. -/
theorem State.settleEvent_kept (s : State) : s.Kept s.settleEvent :=
  ((lateCloseIfDue_kept s).trans (flushOffers_kept _)).trans (signUpdate_kept _)

/-! ### Nothing is left to offer -/

theorem State.tryOffer_offers (s : State) (o : Offer) : (s.tryOffer o).offers = s.offers := by
  unfold State.tryOffer
  split
  · rfl
  · split
    · cases o <;> first
        | rfl
        | (show (State.offerTaken _ _).offers = _
           unfold State.offerTaken
           dsimp only
           split <;> rfl)
    · cases o <;> first
        | rfl
        | (show (State.offerRefused _ _).offers = _
           unfold State.offerRefused
           dsimp only
           split <;> rfl)

theorem flushFree_offers (n : Nat) : ∀ (os : List Offer) (s : State), (flushFree n os s).offers = s.offers := by
  induction n with
  | zero => exact fun _ _ => rfl
  | succ n ih =>
    intro os s
    match os with
    | [] => rfl
    | [o] => exact State.tryOffer_offers s o
    | a :: b :: rest => exact (ih _ _).trans (State.tryOffer_offers _ _)

theorem tryAll_offers (os : List Offer) : ∀ s : State, (os.foldl State.tryOffer s).offers = s.offers := by
  induction os with
  | nil => exact fun _ => rfl
  | cons o os ih => exact fun s => (ih _).trans (State.tryOffer_offers s o)

theorem State.signUpdate_offers (s : State) : s.signUpdate.offers = s.offers := by
  unfold State.signUpdate
  split
  · unfold State.dueSign
    split <;> rfl
  · rfl

/-- After an event nothing is left to offer (R81). -/
theorem State.settleEvent_offers (s : State) : s.settleEvent.offers = [] := by
  unfold State.settleEvent
  rw [signUpdate_offers]
  unfold State.flushOffers
  dsimp only
  split
  · rw [tryAll_offers]
  · rw [flushFree_offers]

/-! ### No reply and no hire event is lost -/

/-- A taken frame of a class that is not replaced is queued (R81). -/
theorem Link.offer_new {l l' : Link} {now cls : Nat} {payload : List Byte} {tag : Tag}
    (ho : l.offer now cls payload tag = some l') (hr : replaceable cls = false) : l'.Carries cls payload := by
  unfold Link.offer at ho
  rw [hr] at ho
  repeat' split at ho
  all_goals first
    | contradiction
    | (cases ho; exact ⟨_, mem_insertEntry_self _ _, rfl, rfl⟩)

/-- The hire event is held or queued. -/
def State.HasEvent (s : State) (e : HireEvent) : Prop := s.hire.event = some e ∨ s.link.Carries 4 (encHireEvent e)

/-- The reply is held or queued. -/
def State.HasReply (s : State) (seq : Nat) (r : Reply) : Prop :=
  s.hire.reply = some (seq, r) ∨ s.link.Carries 3 (encReply seq r)

theorem State.tryOffer_event {s : State} {e : HireEvent} (h : s.HasEvent e) (o : Offer) : (s.tryOffer o).HasEvent e := by
  unfold State.tryOffer
  split
  · exact h
  · rename_i payload tag hp
    split
    · rename_i l ho
      have hc : s.hire.event = some e → o = .hireEvent → l.Carries 4 (encHireEvent e) := by
        rintro he rfl
        simp only [State.offered, he, Option.map_some, Option.some.injEq, Prod.mk.injEq] at hp
        obtain ⟨rfl, rfl⟩ := hp
        exact Link.offer_new ho rfl
      have hq : s.link.Carries 4 (encHireEvent e) → l.Carries 4 (encHireEvent e) := fun h =>
        Link.offer_carries ho h (by decide) (by decide)
      cases o
      case hireEvent =>
        have h4 : l.Carries 4 (encHireEvent e) := h.elim (fun he => hc he rfl) hq
        refine Or.inr ?_
        show (State.offerTaken _ _).link.Carries _ _
        unfold State.offerTaken
        dsimp only
        split
        · exact Link.refresh_carries h4 _ (by decide)
        · exact h4
      all_goals exact h.elim Or.inl fun h => Or.inr (hq h)
    · cases o
      case command t =>
        unfold State.offerRefused
        dsimp only
        split <;> exact h
      all_goals exact h

theorem State.tryOffer_reply {s : State} {seq : Nat} {r : Reply} (h : s.HasReply seq r) (o : Offer) :
    (s.tryOffer o).HasReply seq r := by
  unfold State.tryOffer
  split
  · exact h
  · rename_i payload tag hp
    split
    · rename_i l ho
      have hc : s.hire.reply = some (seq, r) → o = .reply → l.Carries 3 (encReply seq r) := by
        rintro he rfl
        simp only [State.offered, he, Option.map_some, Option.some.injEq, Prod.mk.injEq] at hp
        obtain ⟨rfl, rfl⟩ := hp
        exact Link.offer_new ho rfl
      have hq : s.link.Carries 3 (encReply seq r) → l.Carries 3 (encReply seq r) := fun h =>
        Link.offer_carries ho h (by decide) (by decide)
      cases o
      case reply => exact Or.inr (h.elim (fun he => hc he rfl) hq)
      case hireEvent =>
        show (State.offerTaken _ _).HasReply _ _
        unfold State.offerTaken
        dsimp only
        split
        · exact h.elim Or.inl fun h => Or.inr (Link.refresh_carries (hq h) _ (by decide))
        · exact h.elim Or.inl fun h => Or.inr (hq h)
      all_goals exact h.elim Or.inl fun h => Or.inr (hq h)
    · cases o
      case command t =>
        unfold State.offerRefused
        dsimp only
        split <;> exact h
      all_goals exact h

/-- What holds through every single offer holds through the offers of one moment. -/
theorem flush_keeps {P : State → Prop} (hp : ∀ s o, P s → P (State.tryOffer s o))
    (hf : ∀ (s : State) os n, P s → P { s with offers := os, free := n }) {s : State} (h : P s) : P s.flushOffers := by
  have hfree : ∀ (n : Nat) (os : List Offer) (s : State), P s → P (flushFree n os s) := by
    intro n
    induction n with
    | zero => exact fun _ _ h => h
    | succ n ih =>
      intro os s h
      match os with
      | [] => exact h
      | [o] => exact hp s o h
      | a :: b :: rest => exact ih _ _ (hp _ _ (hf s s.offers (s.free + 1) h))
  have hall : ∀ (os : List Offer) (s : State), P s → P (os.foldl State.tryOffer s) := by
    intro os
    induction os with
    | nil => exact fun _ h => h
    | cons o os ih => exact fun s h => ih _ (hp s o h)
  unfold State.flushOffers
  dsimp only
  split
  · exact hall _ _ (hf s [] s.free h)
  · exact hfree _ _ _ (hf s [] s.free h)

/-- What a list of offers still to be made has in common with the state holds to the end, whichever offer is made next: every
offer of the moment is made, and made once. -/
theorem flush_tracks {P : List Offer → State → Prop}
    (hp : ∀ os o os' s, P (os ++ o :: os') s → P (os ++ os') (State.tryOffer s o))
    (hf : ∀ os (s : State) os' n, P os s → P os { s with offers := os', free := n }) {s : State} (h : P s.offers s) :
    P [] s.flushOffers := by
  have hfree : ∀ (n : Nat) (os : List Offer) (s : State), os.length ≤ n → P os s → P [] (flushFree n os s) := by
    intro n
    induction n with
    | zero =>
      intro os s hl h
      rw [List.length_eq_zero_iff.1 (Nat.le_zero.1 hl)] at h
      exact h
    | succ n ih =>
      intro os s hl h
      match os, hl, h with
      | [], _, h => exact h
      | [o], _, h => exact hp [] o [] s h
      | a :: b :: rest, hl, h =>
        have hi : Config.offerOrder s.free % (a :: b :: rest).length < (a :: b :: rest).length := Nat.mod_lt _ (by simp)
        unfold flushFree
        dsimp only
        generalize Config.offerOrder s.free % (a :: b :: rest).length = i at hi ⊢
        refine ih _ _ ?_ ?_
        · rw [List.length_eraseIdx_of_lt hi]
          simp only [List.length_cons] at hl ⊢
          omega
        · rw [List.eraseIdx_eq_take_drop_succ]
          refine hp _ _ _ _ (hf _ s s.offers (s.free + 1) ?_)
          rw [List.getD_eq_getElem _ _ hi, List.getElem_cons_drop, List.take_append_drop]
          exact h
  have hall : ∀ (os : List Offer) (s : State), P os s → P [] (os.foldl State.tryOffer s) := by
    intro os
    induction os with
    | nil => exact fun _ h => h
    | cons o os ih => exact fun s h => ih _ (hp [] o os s h)
  unfold State.flushOffers
  dsimp only
  split
  · exact hall _ _ (hf _ s [] s.free h)
  · exact hfree _ _ _ (Nat.le_refl _) (hf _ s [] s.free h)

theorem State.signUpdate_hire (s : State) : s.signUpdate.hire = s.hire ∧ s.signUpdate.link = s.link := by
  unfold State.signUpdate
  split
  · unfold State.dueSign
    split <;> exact ⟨rfl, rfl⟩
  · exact ⟨rfl, rfl⟩

theorem State.lateCloseIfDue_held (s : State) :
    s.lateCloseIfDue.hire.event = s.hire.event ∧ s.lateCloseIfDue.hire.reply = s.hire.reply
      ∧ s.lateCloseIfDue.link = s.link := by
  by_cases h : s.shift.pendingLate = none
  · rw [lateCloseIfDue_none s h]
    exact ⟨rfl, rfl, rfl⟩
  · obtain ⟨sh, os, n, h1⟩ := lateCloseIfDue_form s h
    rw [h1]
    exact ⟨rfl, rfl, rfl⟩

theorem State.settleEvent_event {s : State} {e : HireEvent} (h : s.HasEvent e) : s.settleEvent.HasEvent e := by
  unfold State.settleEvent
  have h1 : s.lateCloseIfDue.HasEvent e := by
    obtain ⟨a, _, c⟩ := lateCloseIfDue_held s
    unfold State.HasEvent
    rw [a, c]
    exact h
  have h2 := flush_keeps (P := fun s => s.HasEvent e) (fun s o h => tryOffer_event h o) (fun _ _ _ h => h) h1
  unfold State.HasEvent at h2 ⊢
  rw [(signUpdate_hire _).1, (signUpdate_hire _).2]
  exact h2

theorem State.settleEvent_reply {s : State} {seq : Nat} {r : Reply} (h : s.HasReply seq r) :
    s.settleEvent.HasReply seq r := by
  unfold State.settleEvent
  have h1 : s.lateCloseIfDue.HasReply seq r := by
    obtain ⟨_, b, c⟩ := lateCloseIfDue_held s
    unfold State.HasReply
    rw [b, c]
    exact h
  have h2 := flush_keeps (P := fun s => s.HasReply seq r) (fun s o h => tryOffer_reply h o) (fun _ _ _ h => h) h1
  unfold State.HasReply at h2 ⊢
  rw [(signUpdate_hire _).1, (signUpdate_hire _).2]
  exact h2

/-! ### The console's replies -/

theorem State.tryOffer_lastReply (s : State) (o : Offer) : (s.tryOffer o).console.lastReply = s.console.lastReply := by
  unfold State.tryOffer
  split
  · rfl
  · split
    · cases o <;> first
        | rfl
        | (show (State.offerTaken _ _).console.lastReply = _
           unfold State.offerTaken
           dsimp only
           split <;> rfl)
    · cases o <;> first
        | rfl
        | (show (State.offerRefused _ _).console.lastReply = _
           unfold State.offerRefused
           dsimp only
           split <;> rfl)

/-- Offers never form a command: a target with none pending has none after them. -/
theorem State.tryOffer_noCmd {s : State} {t : Addr} (h : s.console.cmds.get t = none) (o : Offer) :
    (s.tryOffer o).console.cmds.get t = none := by
  unfold State.tryOffer
  split
  · exact h
  · split
    · cases o <;> first
        | exact h
        | (show ((State.offerTaken _ _).console.cmds.get t) = _
           unfold State.offerTaken
           dsimp only
           split <;> exact h)
    · cases o
      case command a =>
        unfold State.offerRefused
        dsimp only
        split <;>
          (simp only [State.onConsole_console, State.detachTalk, State.onIntercom_console, Quad.get_set]
           split
           · rfl
           · exact h)
      all_goals exact h

theorem State.lateCloseIfDue_console (s : State) : s.lateCloseIfDue.console = s.console := by
  by_cases h : s.shift.pendingLate = none
  · rw [lateCloseIfDue_none s h]
  · obtain ⟨sh, os, n, h1⟩ := lateCloseIfDue_form s h
    rw [h1]

theorem State.signUpdate_console (s : State) : s.signUpdate.console = s.console := by
  unfold State.signUpdate
  split
  · unfold State.dueSign
    split <;> rfl
  · rfl

theorem State.settleEvent_lastReply (s : State) : s.settleEvent.console.lastReply = s.console.lastReply := by
  unfold State.settleEvent
  rw [signUpdate_console]
  have h := flush_keeps (P := fun u => u.console.lastReply = s.console.lastReply)
    (fun u o h => (tryOffer_lastReply u o).trans h) (fun _ _ _ h => h) (s := s.lateCloseIfDue)
    (by rw [lateCloseIfDue_console])
  exact h

theorem State.settleEvent_noCmd {s : State} {t : Addr} (h : s.console.cmds.get t = none) :
    s.settleEvent.console.cmds.get t = none := by
  unfold State.settleEvent
  rw [signUpdate_console]
  exact flush_keeps (P := fun u => u.console.cmds.get t = none) (fun u o h => tryOffer_noCmd h o) (fun _ _ _ h => h)
    (by rw [lateCloseIfDue_console]; exact h)

end Sys2Proof.Machine
end

