-- ==== Sys2Proof/Laws/Taken.lean ====
section
/-! SUPPORT. How a command is taken, said once: the state its operation starts from, its reply and its hire event, and the shared
operations that change only what `State.Kept` leaves out. -/
namespace Sys2Proof.Machine
open Sys2Proof

/-- The state in which the operation of a command begins: a local command is marked as handed over, a good frame from another station
has reset the fairness count. -/
def State.took (s : State) (src : Source) (seq : Nat) : State :=
  match src with
  | .localKey => s.markHanded seq
  | .frame _ _ => s.heardFrame

theorem event_next {f : State → State} {s : State} (h : s.supply.running = true) :
    event f s = .next (f s).settleEvent := by
  unfold event
  rw [if_pos h]

theorem event_stopped {f : State → State} {s : State} (h : s.supply.running = false) : event f s = .next s := by
  unfold event
  rw [h]
  rfl

theorem State.isConsole_iff (s : State) : s.isConsole = true ↔ s.addr = 0 := by
  unfold State.isConsole
  exact beq_iff_eq

theorem State.hear_other {s : State} {sender : Addr} (h : s.HearsFrom sender) (f : State → State) :
    s.hear sender f = f s.heardFrame := by
  unfold State.hear
  rw [if_pos h.1, if_neg h.2]

theorem frameEvent_next {f : State → State} {s : State} {sender : Addr} (h : s.supply.running = true)
    (hs : s.HearsFrom sender) : frameEvent sender f s = .next (f s.heardFrame).settleEvent := by
  unfold frameEvent
  rw [event_next h, State.hear_other hs]

theorem State.command_heard {s : State} {src : Source} {seq : Nat} (hs : s.Hears src) (f : State → State) :
    s.command src seq f = f (s.took src seq) := by
  cases src with
  | localKey =>
    have h0 : s.isConsole = true := s.isConsole_iff.2 hs
    unfold State.command
    dsimp only
    rw [if_pos h0]
    rfl
  | frame sender target =>
    obtain ⟨h1, h2, h3, h4⟩ := hs
    have h5 : s.HearsFrom sender := ⟨h1, by rw [h2]; exact Ne.symm h3⟩
    have h6 : s.heardFrame.isConsole = false := by
      have h7 : ¬ s.isConsole = true := fun h => h3 (s.isConsole_iff.1 h)
      have h8 : s.heardFrame.isConsole = s.isConsole := rfl
      rw [h8]
      simpa using h7
    unfold State.command
    dsimp only
    rw [hear_other h5, if_pos ⟨h2, by rw [h6]; rfl, h4⟩]
    rfl

theorem commandEvent_next {f : State → State} {s : State} {src : Source} {seq : Nat} (h : s.supply.running = true)
    (hs : s.Hears src) : commandEvent src seq f s = .next (f (s.took src seq)).settleEvent := by
  unfold commandEvent
  rw [event_next h, State.command_heard hs]

/-! ### What taking a command changes -/

section
variable (s : State) (src : Source) (seq : Nat)
@[simp] theorem State.took_straps : (s.took src seq).straps = s.straps := by cases src <;> rfl
@[simp] theorem State.took_image : (s.took src seq).image = s.image := by cases src <;> rfl
@[simp] theorem State.took_hire : (s.took src seq).hire = s.hire := by cases src <;> rfl
@[simp] theorem State.took_peer : (s.took src seq).peer = s.peer := by cases src <;> rfl
@[simp] theorem State.took_clock : (s.took src seq).clock = s.clock := by cases src <;> rfl
@[simp] theorem State.took_intercom : (s.took src seq).intercom = s.intercom := by cases src <;> rfl
@[simp] theorem State.took_card : (s.took src seq).card = s.card := by cases src <;> rfl
@[simp] theorem State.took_pay : (s.took src seq).pay = s.pay := by cases src <;> rfl
@[simp] theorem State.took_shift : (s.took src seq).shift = s.shift := by cases src <;> rfl
@[simp] theorem State.took_display : (s.took src seq).display = s.display := by cases src <;> rfl
@[simp] theorem State.took_clash : (s.took src seq).link.clash = s.link.clash := by cases src <;> rfl

theorem State.took_silent : (s.took src seq).silent = s.silent := s.took_clash src seq

theorem State.took_kept : s.Kept (s.took src seq) := by
  cases src <;>
    (constructor <;> first
      | rfl | (intro h; exact ⟨rfl, rfl, rfl, rfl, rfl, rfl, rfl, rfl, h, rfl, rfl, rfl⟩) | exact fun _ _ _ _ h => h)
end

theorem State.heardFrame_kept (s : State) : s.Kept s.heardFrame := by
  constructor <;> first
      | rfl | (intro h; exact ⟨rfl, rfl, rfl, rfl, rfl, rfl, rfl, rfl, h, rfl, rfl, rfl⟩) | exact fun _ _ _ _ h => h

/-! ### Shared operations that change only what `State.Kept` leaves out -/

theorem State.offer_kept (s : State) (o : Offer) : s.Kept (s.offer o) := by
  constructor <;> first
      | rfl | (intro h; exact ⟨rfl, rfl, rfl, rfl, rfl, rfl, rfl, rfl, h, rfl, rfl, rfl⟩) | exact fun _ _ _ _ h => h

theorem State.sayHireEvent_kept (s : State) (e : HireEvent) : s.Kept (s.sayHireEvent e) := by
  unfold State.sayHireEvent
  split
  · exact .refl s
  · constructor <;> first
      | rfl | (intro h; exact ⟨rfl, rfl, rfl, rfl, rfl, rfl, rfl, rfl, h, rfl, rfl, rfl⟩) | exact fun _ _ _ _ h => h

theorem State.sendObject_kept (s : State) (a : Addr) : s.Kept (s.sendObject a) := by
  unfold State.sendObject
  split
  · exact .refl s
  · constructor <;> first
      | rfl | (intro h; exact ⟨rfl, rfl, rfl, rfl, rfl, rfl, rfl, rfl, h, rfl, rfl, rfl⟩) | exact fun _ _ _ _ h => h

theorem State.sayEvent_kept (s : State) (e : IntercomEvent) : s.Kept (s.sayEvent e) := by
  unfold State.sayEvent
  split
  · exact .refl s
  · constructor <;> first
      | rfl | (intro h; exact ⟨rfl, rfl, rfl, rfl, rfl, rfl, rfl, rfl, h, rfl, rfl, rfl⟩) | exact fun _ _ _ _ h => h

theorem State.sendShift_kept (s : State) (f : ShiftFrame) : s.Kept (s.sendShift f) := by
  unfold State.sendShift
  split
  · exact .refl s
  · constructor <;> first
      | rfl | (intro h; exact ⟨rfl, rfl, rfl, rfl, rfl, rfl, rfl, rfl, h, rfl, rfl, rfl⟩) | exact fun _ _ _ _ h => h

theorem State.talkHeld_kept (s : State) (a : Addr) : s.Kept (s.talkHeld a) := by
  unfold State.talkHeld
  split
  · constructor <;> first
      | rfl | (intro h; exact ⟨rfl, rfl, rfl, rfl, rfl, rfl, rfl, rfl, h, rfl, rfl, rfl⟩) | exact fun _ _ _ _ h => h
  · exact .refl s

theorem State.talkFreed_kept (s : State) (a : Addr) : s.Kept (s.talkFreed a) := by
  unfold State.talkFreed
  split
  · constructor <;> first
      | rfl | (intro h; exact ⟨rfl, rfl, rfl, rfl, rfl, rfl, rfl, rfl, h, rfl, rfl, rfl⟩) | exact fun _ _ _ _ h => h
  · exact .refl s

theorem State.saySpeakerHeld_kept (s : State) : s.Kept s.saySpeakerHeld := by
  unfold State.saySpeakerHeld
  split
  · exact talkHeld_kept s 0
  · exact sayEvent_kept s _

theorem State.saySpeakerFree_kept (s : State) : s.Kept s.saySpeakerFree := by
  unfold State.saySpeakerFree
  split
  · exact talkFreed_kept s 0
  · exact sayEvent_kept s _

theorem State.leaveTalk_kept (s : State) (a : Addr) : s.Kept (s.leaveTalk a) := by
  unfold State.leaveTalk
  split
  · exact detachTalk_kept s
  · exact .refl s

theorem State.consoleReply_kept (s : State) (a : Addr) (seq : Nat) (r : Reply) : s.Kept (s.consoleReply a seq r) := by
  have h : ∀ f : Console → Console, (f s.console).keys = s.console.keys → (f s.console).keyTimer = s.console.keyTimer →
      (f s.console).selected = s.console.selected → (f s.console).deferred = s.console.deferred →
      (f s.console).nextSeq = s.console.nextSeq → (f s.console).page = s.console.page →
      (f s.console).privacyInd = s.console.privacyInd → s.Kept (s.onConsole f) := by
    intro f h1 h2 h3 h4 h5 h6 h7
    constructor <;> first
      | rfl | exact h1 | exact h2 | exact h3 | exact h4 | exact h5 | exact h6 | exact h7
      | (intro h; exact ⟨rfl, rfl, rfl, rfl, rfl, rfl, rfl, rfl, h, rfl, rfl, rfl⟩) | exact fun _ _ _ _ h => h
  unfold State.consoleReply
  split
  · split
    · dsimp only
      split
      · exact (h _ rfl rfl rfl rfl rfl rfl rfl).trans (leaveTalk_kept _ _)
      · exact h _ rfl rfl rfl rfl rfl rfl rfl
    · exact .refl s
  · exact .refl s

theorem State.replyTo_kept (s : State) (src : Source) (seq : Nat) (r : Reply) : s.Kept (s.replyTo src seq r) := by
  unfold State.replyTo
  split
  · exact consoleReply_kept s _ _ _
  · split
    · exact .refl s
    · constructor <;> first
      | rfl | (intro h; exact ⟨rfl, rfl, rfl, rfl, rfl, rfl, rfl, rfl, h, rfl, rfl, rfl⟩) | exact fun _ _ _ _ h => h

theorem State.markClaiming_kept (s : State) (a : Addr) (seq : Nat) : s.Kept (s.markClaiming a seq) := by
  unfold State.markClaiming
  repeat' split
  all_goals
    constructor <;> first
      | rfl | (intro h; exact ⟨rfl, rfl, rfl, rfl, rfl, rfl, rfl, rfl, h, rfl, rfl, rfl⟩) | exact fun _ _ _ _ h => h

/-! ### Replies and hire events reach the queue or stay held -/

theorem State.leaveTalk_other (s : State) (a : Addr) :
    (s.leaveTalk a).hire = s.hire ∧ (s.leaveTalk a).link = s.link ∧ (s.leaveTalk a).console = s.console := by
  unfold State.leaveTalk
  split <;> exact ⟨rfl, rfl, rfl⟩

theorem State.replyTo_held (s : State) (src : Source) (seq : Nat) (r : Reply) :
    (s.replyTo src seq r).hire.event = s.hire.event ∧ (s.replyTo src seq r).link = s.link := by
  unfold State.replyTo
  split
  · unfold State.consoleReply
    split
    · split
      · dsimp only
        split
        · exact ⟨by rw [(leaveTalk_other _ _).1]; rfl, by rw [(leaveTalk_other _ _).2.1]; rfl⟩
        · exact ⟨rfl, rfl⟩
      · exact ⟨rfl, rfl⟩
    · exact ⟨rfl, rfl⟩
  · split <;> exact ⟨rfl, rfl⟩

/-- The hire event said in an event stands after it, with a reply or without (R22). -/
theorem State.announced {s v : State} (hv : v.silent = s.silent) (e : HireEvent) (src : Source) (seq : Nat) (r : Reply) :
    s.Announced ((v.sayHireEvent e).replyTo src seq r).settleEvent e := by
  intro h
  rw [← hv] at h
  have h1 : (v.sayHireEvent e).HasEvent e := by
    unfold State.sayHireEvent
    rw [h]
    exact Or.inl rfl
  refine settleEvent_event ?_
  unfold State.HasEvent
  rw [(replyTo_held _ _ _ _).1, (replyTo_held _ _ _ _).2]
  exact h1

theorem State.announced_alone {s v : State} (hv : v.silent = s.silent) (e : HireEvent) :
    s.Announced (v.sayHireEvent e).settleEvent e := by
  intro h
  rw [← hv] at h
  refine settleEvent_event ?_
  unfold State.sayHireEvent
  rw [h]
  exact Or.inl rfl

theorem State.markHanded_pending {s : State} {seq : Nat} {p : PendCmd} (h : s.console.cmds.get 0 = some p) (hp : p.seq = seq) :
    ∃ p', (s.markHanded seq).console.cmds.get 0 = some p' ∧ p'.seq = seq := by
  refine ⟨{ p with handed := true }, ?_, hp⟩
  unfold State.markHanded
  simp only [State.onConsole_console, Quad.get_set_same, h, Option.map_some, hp, if_true]

/-- The command pending for station 0 with this sequence number, if any, is pending in `v` still. -/
def State.StillPending (s v : State) (seq : Nat) : Prop :=
  ∀ p, s.console.cmds.get 0 = some p → p.seq = seq → ∃ p', v.console.cmds.get 0 = some p' ∧ p'.seq = seq

theorem State.StillPending.of_eq {s v : State} {seq : Nat} (h : v.console.cmds = s.console.cmds) : s.StillPending v seq :=
  fun p h0 hp => ⟨p, by rw [h]; exact h0, hp⟩

theorem State.took_pending {s v : State} {src : Source} {seq : Nat} (h : v.console.cmds = (s.took src seq).console.cmds) :
    s.StillPending v seq := by
  intro p h0 hp
  rw [h]
  cases src with
  | localKey => exact markHanded_pending h0 hp
  | frame a b => exact ⟨p, h0, hp⟩

/-- The reply given at the end of a command stands after its event (R6, R174). -/
theorem State.replied {s v : State} {src : Source} {seq : Nat} (hc : s.StillPending v seq) (hv : v.silent = s.silent)
    (r : Reply) : s.Replied (v.replyTo src seq r).settleEvent src seq r := by
  cases src with
  | localKey =>
    intro p h0 hp
    obtain ⟨p', h2, hp'⟩ := hc p h0 hp
    have h3 : (v.replyTo .localKey seq r).console.cmds.get 0 = none
        ∧ (v.replyTo .localKey seq r).console.lastReply.get 0 = some (.reply r) := by
      show (v.consoleReply 0 seq r).console.cmds.get 0 = none ∧ _
      unfold State.replyTo State.consoleReply
      simp only [h2, hp', if_true]
      split <;> simp only [(leaveTalk_other _ _).2.2, State.onConsole_console, Quad.get_set_same, and_self]
    exact ⟨settleEvent_noCmd h3.1, by rw [settleEvent_lastReply]; exact h3.2⟩
  | frame a b =>
    intro h
    rw [← hv] at h
    refine settleEvent_reply (Or.inl ?_)
    show ((if v.silent = true then v else _ : State)).hire.reply = _
    rw [h]
    rfl

/-! ### The end of an event that offers nothing, or one frame -/

/-- A late close that may not be made now changes nothing (R153). -/
theorem State.lateCloseIfDue_waits {v : State} (h : v.NoLateClose) : v.lateCloseIfDue = v := by
  unfold State.lateCloseIfDue
  split
  · rename_i hp
    rw [if_neg]
    rcases h with h | h | h
    · rw [h] at hp
      cases hp
    · cases hs : v.hire.slot <;> simp_all [Slot.isFree]
    · cases hs : v.pay.session <;> simp_all [Session.active]
  · rfl

/-- With nothing offered and no late close to make an event ends with the sign's recompute alone. -/
theorem State.settleEvent_quiet {v : State} (h : v.Quiet) : v.settleEvent = v.signUpdate := by
  unfold State.settleEvent
  rw [lateCloseIfDue_waits h.2]
  obtain ⟨ho, -⟩ := h
  obtain ⟨_, _, _, _, _, _, _, _, _, _, _, _, _, _, _, _, _, _, _, _, offers, _, _⟩ := v
  subst ho
  rfl

/-- With one offer and no late close to make an event ends with that offer and the sign's recompute. -/
theorem State.settleEvent_one {v : State} {o : Offer} (h : v.offers = [o]) (hp : v.NoLateClose) :
    v.settleEvent = (({ v with offers := [] } : State).tryOffer o).signUpdate := by
  unfold State.settleEvent
  rw [lateCloseIfDue_waits hp]
  unfold State.flushOffers
  rw [h]
  rfl

/-- A command that offers nothing ends in its own effect and the sign's recompute. -/
theorem event_quiet {f : State → State} {s t : State} (hr : s.supply.running = true) (hf : f s = t) (hq : t.Quiet) :
    event f s = .next t.signUpdate := by
  rw [event_next hr, hf, State.settleEvent_quiet hq]

/-- A command with one offer ends in its own effect, that offer answered, and the sign's recompute. -/
theorem event_one {f : State → State} {s u : State} {o : Offer} (hr : s.supply.running = true) (hf : f s = u.offer o)
    (hq : u.Quiet) : event f s = .next (u.tryOffer o).signUpdate := by
  have h1 : (u.offer o).offers = [o] := by
    show u.offers ++ [o] = _
    rw [hq.1]
    rfl
  have h2 : ({ u.offer o with offers := [] } : State) = u := by
    obtain ⟨ho, -⟩ := hq
    obtain ⟨_, _, _, _, _, _, _, _, _, _, _, _, _, _, _, _, _, _, _, _, offers, _, _⟩ := u
    subst ho
    rfl
  rw [event_next hr, hf, State.settleEvent_one (v := u.offer o) h1 hq.2, h2]

/-- What an event keeps of the state its operation leaves. -/
theorem event_kept {f : State → State} {s e : State} (hr : s.supply.running = true) (h : e.Kept (f s)) :
    ∃ t, event f s = .next t ∧ e.Kept t := ⟨_, event_next hr, h.trans (State.settleEvent_kept _)⟩

theorem frameEvent_kept {f : State → State} {s e : State} {a : Addr} (hr : s.supply.running = true) (hs : s.HearsFrom a)
    (h : e.Kept (f s.heardFrame)) : ∃ t, frameEvent a f s = .next t ∧ e.Kept t :=
  ⟨_, frameEvent_next hr hs, h.trans (State.settleEvent_kept _)⟩

/-! ### Held frames reach the queue or stay held -/

/-- A frame of this kind is held in `get` or queued, and stays so through the end of an event, when no offer can take it from where
it is held without queueing it. -/
theorem State.settleEvent_held {held : State → Prop} {cls : Nat} {payload : List Byte} (h0 : cls ≠ 0) (h6 : cls ≠ 6)
    (hs : ∀ s : State, held s → held s.lateCloseIfDue)
    (ht : ∀ (s : State) (l : Link) (o : Offer) p tag, held s → s.offered o = some (p, tag) →
      s.link.offer s.now o.cls p tag = some l →
      held ((s.onLink fun _ => l).offerTaken o) ∨ (o.cls = cls ∧ p = payload))
    (hr : ∀ (s : State) (o : Offer), held s → held (s.offerRefused o))
    (hf : ∀ (s : State) os n, held s → held { s with offers := os, free := n })
    (hg : ∀ s : State, held s → held s.signUpdate)
    {s : State} (h : held s ∨ s.link.Carries cls payload) :
    held s.settleEvent ∨ s.settleEvent.link.Carries cls payload := by
  unfold State.settleEvent
  have h1 : held s.lateCloseIfDue ∨ s.lateCloseIfDue.link.Carries cls payload := by
    refine h.imp (hs s) fun h => ?_
    rw [(lateCloseIfDue_held s).2.2]
    exact h
  have h2 := flush_keeps (P := fun s => held s ∨ s.link.Carries cls payload)
    (fun s o h => by
      rcases h with h | h
      · unfold State.tryOffer
        split
        · exact Or.inl h
        · rename_i p tag hp
          split
          · rename_i l hl
            rcases ht s l o p tag h hp hl with h | ⟨hc, rfl⟩
            · exact Or.inl h
            · have h6' : replaceable cls = false := by simp [replaceable, h0, h6]
              rw [hc] at hl
              exact Or.inr ((offerTaken_kept (s.onLink fun _ => l) o).queued cls p h0 h6 (Link.offer_new hl h6'))
          · exact Or.inl (hr s o h)
      · exact Or.inr ((tryOffer_kept s o).queued cls payload h0 h6 h))
    (fun s os n h => h.imp (hf s os n) id) h1
  refine h2.imp (hg _) fun h => ?_
  rw [(signUpdate_hire _).2]
  exact h

theorem State.lateCloseIfDue_form' (s : State) :
    ∃ sh os n, s.lateCloseIfDue = ({ s with shift := sh, offers := os, hire := { s.hire with nextNo := n } } : State) := by
  by_cases h : s.shift.pendingLate = none
  · exact ⟨s.shift, s.offers, s.hire.nextNo, lateCloseIfDue_none s h⟩
  · exact lateCloseIfDue_form s h

/-- What only the hire controller, the intercom or another block but the sign holds is kept by the sign's recompute. -/
theorem State.signUpdate_blocks (s : State) :
    s.signUpdate.hire = s.hire ∧ s.signUpdate.link = s.link ∧ s.signUpdate.intercom = s.intercom
      ∧ s.signUpdate.shift = s.shift ∧ s.signUpdate.console = s.console ∧ s.signUpdate.print = s.print
      ∧ s.signUpdate.peer = s.peer := by
  unfold State.signUpdate
  split
  · unfold State.dueSign
    split <;> exact ⟨rfl, rfl, rfl, rfl, rfl, rfl, rfl⟩
  · exact ⟨rfl, rfl, rfl, rfl, rfl, rfl, rfl⟩

/-- An open claim's CLAIM is held or queued (R8). -/
theorem State.settleEvent_claim {c : Claim} {s : State}
    (h : (s.hire.slot = .claiming c ∧ s.hire.claimHeld = true) ∨ s.link.Carries 1 (encClaim c.kind c.party c.seq)) :
    (s.settleEvent.hire.slot = .claiming c ∧ s.settleEvent.hire.claimHeld = true)
      ∨ s.settleEvent.link.Carries 1 (encClaim c.kind c.party c.seq) := by
  refine settleEvent_held (held := fun s => s.hire.slot = .claiming c ∧ s.hire.claimHeld = true) (by decide) (by decide)
    ?_ ?_ ?_ ?_ ?_ h
  · intro s h
    obtain ⟨sh, os, n, h1⟩ := lateCloseIfDue_form' s
    rw [h1]
    exact h
  · intro s l o p tag h hp hl
    cases o
    case claim =>
      simp only [State.offered, h.1, h.2, if_true, Option.some.injEq, Prod.mk.injEq] at hp
      exact Or.inr ⟨rfl, hp.1.symm⟩
    case hireEvent =>
      refine Or.inl ?_
      unfold State.offerTaken
      dsimp only
      split <;> exact h
    all_goals exact Or.inl h
  · intro s o h
    cases o
    case command t =>
      unfold State.offerRefused
      dsimp only
      split <;> exact h
    all_goals exact h
  · exact fun _ _ _ h => h
  · intro s h
    rw [(signUpdate_hire s).1]
    exact h

/-- An OBJECT is held or queued (R11, R12). -/
theorem State.settleEvent_object {a : Addr} {s : State} (h : a ∈ s.hire.objects ∨ s.link.Carries 1 (encObject a)) :
    a ∈ s.settleEvent.hire.objects ∨ s.settleEvent.link.Carries 1 (encObject a) := by
  refine settleEvent_held (held := fun s => a ∈ s.hire.objects) (by decide) (by decide) ?_ ?_ ?_ ?_ ?_ h
  · intro s h
    obtain ⟨sh, os, n, h1⟩ := lateCloseIfDue_form' s
    rw [h1]
    exact h
  · intro s l o p tag h hp hl
    cases o
    case object b =>
      by_cases hb : a = b
      · subst hb
        simp only [State.offered, List.contains_iff_mem, h, if_true, Option.some.injEq, Prod.mk.injEq] at hp
        exact Or.inr ⟨rfl, hp.1.symm⟩
      · exact Or.inl ((List.mem_erase_of_ne hb).2 h)
    case hireEvent =>
      refine Or.inl ?_
      unfold State.offerTaken
      dsimp only
      split <;> exact h
    all_goals exact Or.inl h
  · intro s o h
    cases o
    case command t =>
      unfold State.offerRefused
      dsimp only
      split <;> exact h
    all_goals exact h
  · exact fun _ _ _ h => h
  · intro s h
    show a ∈ s.signUpdate.hire.objects
    rw [(signUpdate_hire s).1]
    exact h

/-- An intercom event is held or queued (R110). -/
theorem State.settleEvent_said {e : IntercomEvent} {s : State}
    (h : e ∈ s.intercom.events ∨ s.link.Carries 4 (encIntercomEvent e)) :
    e ∈ s.settleEvent.intercom.events ∨ s.settleEvent.link.Carries 4 (encIntercomEvent e) := by
  refine settleEvent_held (held := fun s => e ∈ s.intercom.events) (by decide) (by decide) ?_ ?_ ?_ ?_ ?_ h
  · intro s h
    obtain ⟨sh, os, n, h1⟩ := lateCloseIfDue_form' s
    rw [h1]
    exact h
  · intro s l o p tag h hp hl
    cases o
    case intercom =>
      cases he : s.intercom.events with
      | nil => rw [he] at h; cases h
      | cons x xs =>
        simp only [State.offered, he, List.head?_cons, Option.map_some, Option.some.injEq, Prod.mk.injEq] at hp
        rw [he] at h
        rcases List.mem_cons.1 h with rfl | h
        · exact Or.inr ⟨rfl, hp.1.symm⟩
        · refine Or.inl ?_
          show e ∈ s.intercom.events.tail
          rw [he]
          exact h
    case intercomNew e' =>
      by_cases hx : e' ∈ s.intercom.events
      · rw [State.offered, if_pos (List.contains_iff_mem.2 hx)] at hp
        cases hp
        by_cases hq : e = e'
        · exact Or.inr ⟨rfl, by rw [hq]⟩
        · refine Or.inl ?_
          show e ∈ s.intercom.events.erase e'
          exact (List.mem_erase_of_ne hq).2 h
      · rw [State.offered, if_neg (fun hc => hx (List.contains_iff_mem.1 hc))] at hp
        cases hp
    case hireEvent =>
      refine Or.inl ?_
      unfold State.offerTaken
      dsimp only
      split <;> exact h
    all_goals exact Or.inl h
  · intro s o h
    cases o
    case command t =>
      unfold State.offerRefused
      dsimp only
      split <;> exact h
    all_goals exact h
  · exact fun _ _ _ h => h
  · intro s h
    show e ∈ s.signUpdate.intercom.events
    rw [(signUpdate_blocks s).2.2.1]
    exact h

/-- Offers touch of the shift only its held frames and its summaries. -/
theorem State.flushOffers_shift (s : State) :
    ∃ held tx late, s.flushOffers.shift = ({ s.shift with held := held, tx := tx, lateTx := late } : Shift) := by
  refine flush_keeps (P := fun u => ∃ held tx late, u.shift = ({ s.shift with held := held, tx := tx, lateTx := late } : Shift))
    ?_ (fun _ _ _ h => h) ⟨_, _, _, rfl⟩
  rintro u o ⟨held, tx, late, h⟩
  unfold State.tryOffer
  split
  · exact ⟨held, tx, late, h⟩
  · split
    · cases o
      case hireEvent =>
        unfold State.offerTaken
        dsimp only
        split <;> exact ⟨held, tx, late, h⟩
      case shiftFrame f _ _ =>
        refine ⟨u.shift.held.erase f, tx, late, ?_⟩
        show ({ u.shift with held := u.shift.held.erase f } : Shift) = _
        rw [h]
      case summary =>
        refine ⟨held, u.shift.tx.map fun t => { t with held := false }, late, ?_⟩
        show ({ u.shift with tx := u.shift.tx.map fun t => { t with held := false } } : Shift) = _
        rw [h]
      case lateSummary =>
        refine ⟨held, tx, u.shift.lateTx.map fun t => { t with held := false }, ?_⟩
        show ({ u.shift with lateTx := u.shift.lateTx.map fun t => { t with held := false } } : Shift) = _
        rw [h]
      all_goals exact ⟨held, tx, late, h⟩
    · cases o
      case command t =>
        unfold State.offerRefused
        dsimp only
        split <;> exact ⟨held, tx, late, h⟩
      case summary =>
        refine ⟨held, u.shift.tx.map fun t => { t with held := true }, late, ?_⟩
        show ({ u.shift with tx := u.shift.tx.map fun t => { t with held := true } } : Shift) = _
        rw [h]
      case lateSummary =>
        refine ⟨held, tx, u.shift.lateTx.map fun t => { t with held := true }, ?_⟩
        show ({ u.shift with lateTx := u.shift.lateTx.map fun t => { t with held := true } } : Shift) = _
        rw [h]
      all_goals exact ⟨held, tx, late, h⟩

end Sys2Proof.Machine
end

