-- ==== Sys2Proof/Tests/Slice0.lean ====
section
/-! SUPPORT. Small tests: the well-formedness check refuses what is ill-formed, the number forms of the spec, one effect of each
group of commands, and for every statement with hypotheses a state and operands that meet them. -/
namespace Sys2Proof.Tests
open Sys2Proof Sys2Proof.Machine

/-! ### States to test on -/

def band : Band :=
  { mode := .switched, fb := 300, fmin := 500, d0 := 0, t0 := 0, ld := 100, sd := 20, lt := 300, st := 20, vs := 100, vh := 20
    f1 := 1000, f2 := 750, f3 := 600, f4 := 500 }

def image : Image :=
  { number := 7, edition := 1, k := 1000, vmax := 300, respCode := 1, bright := 2, pollUnits := 10, currency := 978
    clearCode := [1, 2, 3, 4], bands := [some band, none, none, none], calendar := [], holidays := []
    extras := [some ⟨.fixed, 50, 2⟩, some ⟨.entered, 0, 6⟩, some ⟨.perPassenger, 30, 6⟩], tips := [5, 10, 15] }

def snap : Snapshot := snapshotOf image band

/-- A running station at this address, ON_SHIFT in shift 5, with a valid image, the clock set and the line seen idle. -/
def station (a : Addr) : State :=
  { State.reset with
    straps := { addr := a, capacity := 4, buttons := true, card := true }
    image := some image
    link := { State.reset.link with synced := true }
    clock := { seconds := 36000, phase := 0, isSet := true }
    pulse := { State.reset.pulse with slot := some 1000 }
    peer := { State.reset.peer with period := some 2500 }
    sign := { State.reset.sign with last := some (.free, 0), period := some 5000 }
    card := { State.reset.card with moduleState := .ready, currency := some 978, poll := some 10000 }
    shift := { State.reset.shift with state := .onShift, number := 5, driver := some 42, openTime := some 0, coldMark := false }
    supply := { State.reset.supply with state := .normal, running := true, start := none, backupValid := true
                                        retainedAddr := a, cause := .cold } }

def car : State := station 0
def seat : State := station 1

/-- The source of a command frame to the seat. -/
def toSeat : Source := .frame 0 1

def rec0 : HireRecord := formRecord 1 5 1 36000 0 .shared 2 snap

/-- A record in STOPPED with a due of 500. -/
def rec1 : HireRecord := { rec0.fixDue 500 with stop := some 36010 }

def inSlot (s : State) (sl : Slot) : State := { s with hire := { s.hire with slot := sl } }

def claim : Claim := { kind := .shared, party := 2, seq := 3, src := .localKey, id := 0, sent := true, window := some 3000 }

/-- Another station's row with this content. -/
def row (b : Beacon) : PeerRow := { present := true, age := 0, ever := true, beacon := some b, ovr := none }

def beacon : Beacon :=
  { shiftNo := 5, shiftState := .onShift, hireState := .free, kind := .shared, capacity := 3, privacy := false, clockSet := true
    pulseFault := false, tariffNo := 7, edition := 1, role := 36000 }

def sees (s : State) (a : Addr) (b : Beacon) : State :=
  { s with peer := { s.peer with rows := s.peer.rows.set a (row b) } }

/-- What a state answers, read in the next state. -/
def after (c : Instr) (s : State) (f : State → Bool) : Bool :=
  match exec c s with
  | .next t => f t
  | _ => false

/-! ### Well-formedness -/

theorem test_wf_sequence_number : (Instr.stop .localKey 15).wf = true ∧ (Instr.stop .localKey 16).wf = false := by decide
theorem test_wf_hire_party : (Instr.hire .localKey 0 .shared 255).wf = true ∧ (Instr.hire .localKey 0 .shared 256).wf = false := by
  decide
theorem test_wf_extra : (Instr.extra .localKey 0 255 16777215).wf = true ∧ (Instr.extra .localKey 0 256 0).wf = false
    ∧ (Instr.extra .localKey 0 0 16777216).wf = false := by decide
theorem test_wf_tender : (Instr.payCash .localKey 0 16777216).wf = false ∧ (Instr.payAccount .localKey 0 8 100000000).wf = false
    ∧ (Instr.payAccount .localKey 0 256 0).wf = false := by decide
theorem test_wf_hire_number : (Instr.hireStartReceived 0 0 .shared).wf = false ∧ (Instr.hireStartReceived 0 10000 .shared).wf = false
    ∧ (Instr.hireStopReceived 0 1 1000000).wf = false ∧ (Instr.hireClosedReceived 0 9999 .settled).wf = true := by decide
theorem test_wf_claim : (Instr.claimReceived 0 .shared 256 0).wf = false ∧ (Instr.claimReceived 0 .shared 0 16).wf = false := by decide
theorem test_wf_beacon : (Instr.beaconReceived 0 { beacon with capacity := 8 }).wf = false
    ∧ (Instr.beaconReceived 0 { beacon with edition := 256 }).wf = false ∧ (Instr.beaconReceived 0 beacon).wf = true := by decide
theorem test_wf_distress : (Instr.distressFrame 1 0 0).wf = false ∧ (Instr.distressFrame 0 4294967296 0).wf = false := by decide
theorem test_wf_shift : (Instr.shiftOpen 0 false 65536 0).wf = false ∧ (Instr.shiftCall 0 65536).wf = false
    ∧ (Instr.shiftRefuse 0 .busy 65536).wf = false ∧ (Instr.shiftDone 0 false 1 [0, 1, 2, 3, 0]).wf = false
    ∧ (Instr.shiftAbandon 0 65536).wf = false := by decide
theorem test_wf_summary : (Instr.shiftSummary 1 (.part1 (some 16777215) 0 0)).wf = false
    ∧ (Instr.lateSummaryPart 1 (.part3 16777216 0 0)).wf = false ∧ (Instr.shiftSummary 1 (.part0 5 256 0 0 0 false false false 0 0)).wf = false
    ∧ (Instr.shiftSummary 1 (.part2 none 4294967296 0)).wf = false := by decide
theorem test_wf_record : (Instr.recordQuery 0 10000 1 0).wf = false ∧ (Instr.recordPart 1 8 1 1 []).wf = false
    ∧ (Instr.recordPart 1 0 0 1 [0#8]).wf = false ∧ (Instr.recordPart 1 0 1 1 (List.replicate 10 0#8)).wf = false := by decide
theorem test_wf_raw : (Instr.frameDropped (List.replicate 17 0#8)).wf = false := by decide
theorem test_wf_card : (Instr.status 65536 .ready).wf = false ∧ (Instr.notFound 65536).wf = false ∧ (Instr.reversed 65536).wf = false
    ∧ (Instr.result 1 .approved 16777216 0 0 [48, 48, 48, 48, 48, 48]).wf = false
    ∧ (Instr.result 1 .approved 1 16 0 [48, 48, 48, 48, 48, 48]).wf = false
    ∧ (Instr.result 1 .approved 1 0 10000 [48, 48, 48, 48, 48, 48]).wf = false
    ∧ (Instr.result 1 .approved 1 0 0 [47, 48, 48, 48, 48, 48]).wf = false ∧ (Instr.result 1 .approved 1 0 0 [48]).wf = false := by decide
theorem test_wf_keys : (Instr.commandSequence (.hire .shared 10)).wf = false ∧ (Instr.commandSequence .connect).wf = false
    ∧ (Instr.commandSequence (.extra 9 0)).wf = false ∧ (Instr.commandSequence (.payAccount 2 100)).wf = false
    ∧ (Instr.shiftOpenKeyed 10000).wf = false ∧ (Instr.print 10000).wf = false ∧ (Instr.clockSetting 2000 100 1 0 0).wf = false := by decide
theorem test_wf_start : (Instr.start ⟨0, 0, false, false⟩ (some (List.replicate 321 0#8)) .complete).wf = false := by decide +kernel

/-! ### Numbers of the spec -/

/-- The two check values that R198 gives for the digits 1 to 9. -/
theorem test_checks : crc16 [0x31, 0x32, 0x33, 0x34, 0x35, 0x36, 0x37, 0x38, 0x39] = 0x29B1#16
    ∧ crc32 [0x31, 0x32, 0x33, 0x34, 0x35, 0x36, 0x37, 0x38, 0x39] = 0x0376E6E7#32 := by decide +kernel

/-- 2000-01-01 was a Saturday; 2024 has a 29 February, 2100 none. -/
theorem test_calendar : dayOfWeek 0 = 6 ∧ clockEntryOk 2024 2 29 23 59 = true ∧ clockEntryOk 2100 2 29 0 0 = false
    ∧ clockEntryOk 2023 2 29 0 0 = false ∧ dateOf (secondsOf 2024 2 29 23 59) = ⟨2024, 2, 29⟩ := by decide +kernel

theorem test_vform : vBytes 127 = [0x7F] ∧ vBytes 128 = [0x81, 0x00] ∧ vBytes 268435455 = [0xFF, 0xFF, 0xFF, 0x7F] := by decide +kernel

/-- The largest slot count of R31's example. -/
theorem test_pmax : pmaxOf 1000 300 = 8 := by decide

/-- A claim frame: key 4 × 1 + 2, four payload characters, the check. -/
theorem test_claim_frame : (cabFrame 1 2 (encClaim .exclusive 3 5)).take 6 = [6, 4, 1, 1, 3, 5] := by decide +kernel

theorem test_frame_that_fails_its_check : goodFrame ((cabFrame 1 2 (encClaim .exclusive 3 5)).set 4 9#8) = none := by decide +kernel

/-! ### Effects -/

theorem test_hire_to_claim_to_hired :
    after (.hire .localKey 3 .shared 2) car (fun t => t.hire.slot.isClaiming) = true
      ∧ after .claimWindowEnd (inSlot car (.claiming claim)) (fun t => t.hire.slot.shown == .hired && t.hire.nextNo == 2) = true := by
  decide +kernel

theorem test_hire_refused_at_the_strap : after (.hire .localKey 3 .shared 5) { car with console := { car.console with
      cmds := car.console.cmds.set 0 (some ⟨.hire .shared 5, 3, 0, false, true, none⟩) } }
    (fun t => t.hire.slot.isFree && t.console.lastReply.get 0 == some (.reply (.refused .partyRange))) = true := by decide +kernel

theorem test_stop_and_pay :
    after (.stop .localKey 1) (inSlot car (.hired ⟨rec0, snap⟩)) (fun t => t.hire.slot.runningAmount == 500) = true
      ∧ after (.payCash .localKey 1 600) (inSlot car (.stopped ⟨rec1, snap⟩))
          (fun t => t.hire.slot.isFree && t.display.change == some 100 && t.shift.acc.cash == 500) = true := by decide +kernel

/-- Six pulses at 95 000 of 100 000 pulse-milli units make one distance step of 20 at level 1. -/
theorem test_slot_end_charges_steps :
    after .slotEnd { inSlot car (.hired ⟨{ rec0 with charging := some .dist, accD := 95000 }, snap⟩) with
        pulse := { car.pulse with raw := 6 }
        hire := { (inSlot car (.hired ⟨{ rec0 with charging := some .dist, accD := 95000 }, snap⟩)).hire with tally := 6 } }
      (fun t => t.hire.slot.runningAmount == 320 && t.pulse.ring.sum == 6) = true := by decide +kernel

theorem test_shift_open_and_close : after (.shiftOpenKeyed 42) { car with shift := State.reset.shift }
      (fun t => t.shift.state == .onShift && t.shift.number == 1 && t.link.has 5) = true
    ∧ after .closeKey car (fun t => t.close.state == .collecting && t.shift.state == .closing) = true := by decide +kernel

theorem test_clash_silences : after .addressClash car (fun t => t.silent && t.link.queue.isEmpty) = true
    ∧ after (.claimReceived 1 .shared 1 1) seat (fun t => t.silent) = true := by decide +kernel

/-- A reply that is missed in OFF is not counted, and the held OFF message goes out. -/
theorem test_off_counts_no_missed_reply :
    after .signReplyTimeout { car with sign := { car.sign with control := .off, wait := some 0, held := some .off, silent := 2, period := none } }
      (fun t => t.sign.silent == 2 && !t.sign.signSilent && t.sign.wait.isNone && t.sign.held.isNone && !t.lines.sign.isEmpty) = true := by
  decide +kernel

theorem test_lost_supply_stops : after (.supplyFail false) { car with supply := { car.supply with mv := 5000, fail := some 0 } }
    (fun t => !t.supply.running) = true := by decide +kernel

theorem test_start_from_reset : after (.start ⟨2, 7, true, false⟩ none .complete)
      { State.reset with supply := { State.reset.supply with start := some 0 } }
    (fun t => t.supply.running && t.straps.addr == 2 && t.straps.capacity == 0 && t.image.isNone && t.supply.cause == .cold) = true := by
  decide +kernel

theorem test_idle_step_takes_the_due_event : (match step { car with pulse := { car.pulse with slot := some 0 } } with
    | .next t => t.pending == [.slotEnd] && t.pulse.slot == some 0
    | _ => false) = true := by decide +kernel

theorem test_empty_queue_lets_time_pass : (match step car with
    | .next t => t.now == 1 && t.pulse.slot == some 999
    | _ => false) = true := by decide +kernel

/-! ### A state and operands for the hypotheses of each statement -/

/-- With this pending for station 0. -/
def pends (s : State) (a : Addr) (p : PendCmd) : State :=
  { s with console := { s.console with cmds := s.console.cmds.set a (some p) } }

def pend (cmd : Cmd) : PendCmd := { cmd := cmd, seq := 3, formed := 0, claiming := false, handed := true, limit := some 2000 }

def hired : State := inSlot car (.hired ⟨rec0, snap⟩)
def stopped : State := inSlot car (.stopped ⟨rec1, snap⟩)
def paying : State := inSlot car (.paying ⟨rec1, snap⟩)
def claiming : State := inSlot car (.claiming claim)
def silenced (s : State) : State := { s with link := { s.link with clash := true } }
def inSession (s : State) (x : Session) : State := { s with pay := { s.pay with session := x } }
def card1 : CardSession := { amount := 500, tip := 0, txn := some 9, cancelReq := true, cancelSent := false }

/-- An entry of the transmit queue. -/
def entry (cls : Nat) (tag : Tag) (begun : Bool) : Entry := { cls := cls, payload := [], tag := tag, offered := 0, begun := begun }

def queued (s : State) (es : List Entry) : State := { s with link := { s.link with queue := es } }

theorem car_hears_seat_two : car.HearsFrom 2 := ⟨rfl, by decide⟩

theorem test_witness_StepRunsTheFrontCommand :
    ({ car with pending := [.lineIdle, .slotEnd] } : State).pending = .lineIdle :: [.slotEnd] := rfl

theorem test_witness_EmptyQueueLetsTimePassOrTakesOneDueEvent : car.pending = [] ∧ car.dueEvents = []
    ∧ ({ car with pulse := { car.pulse with slot := some 0 } } : State).dueEvents = [.slotEnd] := by decide +kernel

/-- What stands still and what runs as time passes: a stopped station, an open claim, a HELD end with a HELD talk, the repeat guard. -/
theorem test_witness_TimeMovesEveryTimerThatRuns :
    State.reset.supply.running = false ∧ car.supply.running = true ∧ claiming.hire.slot = .claiming claim
      ∧ (∀ c, car.hire.slot ≠ .claiming c) ∧ (∀ was, car.intercom.endState ≠ .held was) ∧ (∀ a, car.intercom.talk ≠ .held a)
      ∧ (∃ s : State, s.supply.running = true ∧ s.intercom.endState = .held .connected ∧ s.intercom.talk = .held 2
        ∧ s.shift.repeatGuard = some 1) :=
  ⟨rfl, rfl, rfl, fun _ h => Slot.noConfusion h, fun _ h => EndState.noConfusion h, fun _ h => Talk.noConfusion h,
    ⟨{ car with intercom := { car.intercom with endState := .held .connected, talk := .held 2 }
                shift := { car.shift with repeatGuard := some 1 } }, by decide⟩⟩

/-- A running station is within the bounds. -/
theorem test_witness_bounds : car.Ok where
  image := by
    intro im him b hb
    have h : im = image := Option.some.inj (him.symm.trans rfl)
    rw [h] at hb
    have h2 : b = band := by simpa [image] using hb
    rw [h2]
    decide
  hire := by refine ⟨trivial, by decide, ?_, by decide, by decide⟩; intro r hr; cases hr
  link := ⟨by decide, List.Pairwise.nil, by decide, by decide, by decide, fun _ => rfl, fun _ => rfl, by decide⟩
  pulse := ⟨by decide, rfl, Nat.zero_le _⟩
  sign := ⟨by decide, by decide⟩
  intercom := ⟨by decide, by decide, List.nodup_nil, List.nil_sublist _⟩
  card := ⟨by decide, by decide⟩
  pay := ⟨by decide, by decide⟩
  console := ⟨by decide, by decide⟩
  print := ⟨by decide, by decide⟩

/-- A number of `k` bytes as the image holds it, most significant byte first. -/
def be (k n : Nat) : List Byte := (List.range k).map fun i => BitVec.ofNat 8 (n / 256 ^ (k - 1 - i))

def bandBytes : List Byte :=
  [1#8, 0#8] ++ be 3 300 ++ be 3 500 ++ be 2 0 ++ be 2 0 ++ be 2 100 ++ be 3 20 ++ be 2 300 ++ be 3 20 ++ be 2 100 ++ [20#8]
    ++ be 2 1000 ++ be 2 750 ++ be 2 600 ++ be 2 500

/-- The parts of an image with four bands, the calendar of Table 4-3 and the holiday 2024-12-25, before its check. -/
def imageHead : List Byte :=
  be 2 320 ++ be 2 7 ++ [1#8] ++ be 2 1000 ++ be 2 300 ++ [0x42#8, 10#8] ++ be 2 978 ++ [1#8, 2#8, 3#8, 4#8] ++ [5#8, 1#8]

def imageCalendar : List Byte :=
  [1#8] ++ be 2 360 ++ [0#8] ++ [1#8] ++ be 2 1200 ++ [1#8] ++ [6#8] ++ be 2 480 ++ [2#8] ++ [2#8] ++ be 2 1320 ++ [3#8]
    ++ [8#8] ++ be 2 0 ++ [3#8]

def imageHolidays : List Byte := be 2 2024 ++ [12#8, 25#8]

/-- Bytes that are not read. -/
def unread (n : Nat) : List Byte := List.replicate n 0xFF#8

def imageExtras : List Byte := [1#8, 1#8] ++ be 3 50 ++ [2#8] ++ List.replicate 18 0#8

def imageTips : List Byte := List.replicate 24 0#8 ++ [3#8, 5#8, 10#8, 15#8, 0xFF#8]

def imageParts : List (List Byte) :=
  [imageHead, bandBytes, bandBytes, bandBytes, bandBytes, imageCalendar, unread 28, imageHolidays, unread 30, unread 30, imageExtras,
   imageTips]

def imageBytes : List Byte := imageParts.flatten ++ be 4 1590968018

/-- The image that these bytes are. -/
def heldImage : Image :=
  { image with
    bands := [some band, some band, some band, some band]
    calendar := [⟨true, false, false, false, 360, 0⟩, ⟨true, false, false, false, 1200, 1⟩, ⟨false, true, true, false, 480, 2⟩,
      ⟨false, true, false, false, 1320, 3⟩, ⟨false, false, false, true, 0, 3⟩]
    holidays := [⟨2024, 12, 25⟩]
    extras := [some ⟨.fixed, 50, 2⟩, none, none, none, none, none, none, none] }

theorem test_image_check : (crc32 imageParts.flatten).toNat = 1590968018 := by
  have h1 : imageHead.foldl (crcByte 0x04C11DB7#32) 4294967295#32 = 2710245823#32 := by decide +kernel
  have h2 : bandBytes.foldl (crcByte 0x04C11DB7#32) 2710245823#32 = 2102744573#32 := by decide +kernel
  have h3 : bandBytes.foldl (crcByte 0x04C11DB7#32) 2102744573#32 = 3498724828#32 := by decide +kernel
  have h4 : bandBytes.foldl (crcByte 0x04C11DB7#32) 3498724828#32 = 106308139#32 := by decide +kernel
  have h5 : bandBytes.foldl (crcByte 0x04C11DB7#32) 106308139#32 = 613801011#32 := by decide +kernel
  have h6 : imageCalendar.foldl (crcByte 0x04C11DB7#32) 613801011#32 = 676473590#32 := by decide +kernel
  have h7 : (unread 28).foldl (crcByte 0x04C11DB7#32) 676473590#32 = 1330931376#32 := by decide +kernel
  have h8 : imageHolidays.foldl (crcByte 0x04C11DB7#32) 1330931376#32 = 1932452957#32 := by decide +kernel
  have h9 : (unread 30).foldl (crcByte 0x04C11DB7#32) 1932452957#32 = 2948362072#32 := by decide +kernel
  have h10 : (unread 30).foldl (crcByte 0x04C11DB7#32) 2948362072#32 = 4005680067#32 := by decide +kernel
  have h11 : imageExtras.foldl (crcByte 0x04C11DB7#32) 4005680067#32 = 2136140925#32 := by decide +kernel
  have h12 : imageTips.foldl (crcByte 0x04C11DB7#32) 2136140925#32 = 1590968018#32 := by decide +kernel
  simp only [crc32, List.foldl_flatten, imageParts, List.foldl_cons, List.foldl_nil, h1, h2, h3, h4, h5, h6, h7, h8, h9, h10, h11, h12]
  rfl

theorem test_image_is_held : validateImage (some imageBytes) = some heldImage := by
  have read : readImage imageBytes = some heldImage := by decide +kernel
  have body : imageBytes.take 316 = imageParts.flatten := by decide +kernel
  have frame : frameOk imageBytes = true := by
    unfold frameOk
    rw [body, test_image_check]
    decide +kernel
  have ranges : globalsOk heldImage = true ∧ tablesOk heldImage = true := by decide +kernel
  simp [validateImage, read, frame, ranges]

/-- An image that is held, one that is not, and the bands of Table 4-4. -/
theorem test_witness_TariffImageIsHeldAndSelectsItsBand :
    validateImage (some imageBytes) = some heldImage ∧ validateImage (some (imageBytes.take 319)) = none
      ∧ [secondsOf 2024 3 13 5 30, secondsOf 2024 3 13 10 15, secondsOf 2024 3 13 20 0, secondsOf 2024 3 16 7 0,
          secondsOf 2024 3 16 23 15, secondsOf 2024 3 17 7 0, secondsOf 2024 3 17 23 30, secondsOf 2024 12 25 9 0].map
            (selectBand heldImage) = [1, 0, 1, 3, 3, 2, 2, 3] :=
  ⟨test_image_is_held, by decide +kernel, by decide +kernel⟩

theorem test_witness_CommandsAreTakenWholeByARunningStation : State.reset.supply.running = false
    ∧ Instr.takenStopped .lineIdle = false ∧ car.offers = [] := by decide

theorem test_witness_EveryStepKeepsTheBounds : car.Ok ∧ ∃ t, step car = .next t := ⟨test_witness_bounds, _, rfl⟩

theorem test_witness_EveryStepEndsItsEvent : car.Quiet ∧ ∃ t, step car = .next t := ⟨⟨rfl, Or.inl rfl⟩, _, rfl⟩

theorem test_witness_FramesAreReadBackAsSent :
    (255 : Nat) < 256 ∧ (Cmd.hire .exclusive 9).wf = true ∧ Cmd.connect.code ≥ 16 ∧ (ShiftFrame.done true 65535 [0, 3]).wf = true
      ∧ (SummaryPart.part0 65535 255 255 255 255 true true true 4 4294967295).wf = true
      ∧ (SummaryPart.part1 (some 16777214) 0 4294967295).wf = true ∧ (SummaryPart.part2 none 0 0).wf = true
      ∧ (SummaryPart.part3 16777215 0 0).wf = true ∧ beacon.wf = true ∧ beacon.role.toNat / 16 % 4 ≠ 3
      ∧ recordPartOk 5 6 9999 (List.replicate 9 0#8) = true ∧ recordPartOk 0 0 0 [] = true := by decide

theorem test_witness_HireOpensAClaimOrIsRefused :
    (car.supply.running = true ∧ car.Hears .localKey ∧ car.shift.state = .onShift ∧ car.image ≠ none ∧ car.identityOk = true
      ∧ car.clock.isSet = true ∧ car.straps.capacity ≠ 0 ∧ 1 ≤ 4 ∧ 4 ≤ car.straps.capacity ∧ car.hire.slot = .free
      ∧ car.silent = false ∧ car.interlocked .exclusive = false)
    ∧ (seat.supply.running = true ∧ seat.Hears toSeat ∧ seat.identityOk = false) :=
  ⟨⟨rfl, rfl, by decide⟩, rfl, ⟨rfl, rfl, by decide, rfl⟩, by decide⟩

theorem test_witness_ObjectEndsTheClaimInItsWindow :
    claiming.supply.running = true ∧ claiming.Quiet ∧ claiming.HearsFrom 3 ∧ claiming.hire.slot = .claiming claim ∧ claim.window.isSome = true
      ∧ (0 : Addr) = claiming.addr ∧ (∀ c, car.hire.slot = .claiming c → c.window = none ∨ (0 : Addr) ≠ car.addr) :=
  ⟨rfl, ⟨rfl, Or.inl rfl⟩, ⟨rfl, by decide⟩, rfl, rfl, rfl, fun _ h => Slot.noConfusion h⟩

/-- A HIRE that station 0 has pending for seat 2. -/
def awaiting : State := pends car 2 (pend (.hire .shared 2))

theorem awaiting_awaits : awaiting.Awaits 2 3 := ⟨rfl, _, _, _, rfl, rfl, rfl⟩

theorem car_awaits_nothing (a : Addr) (seq : Nat) : ¬ car.Awaits a seq := by
  have none_pending : ∀ a : Addr, car.console.cmds.get a = none := by decide
  rintro ⟨_, p, kind, party, h, _⟩
  rw [none_pending a] at h
  cases h

theorem test_witness_FreeStationTakesNoActionOnAClaim :
    car.supply.running = true ∧ car.HearsFrom 2 ∧ car.hire.slot = .free ∧ car.Quiet ∧ ¬ car.Awaits 2 3
      ∧ awaiting.HearsFrom 2 ∧ awaiting.hire.slot = .free ∧ awaiting.Quiet ∧ awaiting.Awaits 2 3
      ∧ awaiting.console.cmds.get 2 = some (pend (.hire .shared 2)) :=
  ⟨rfl, car_hears_seat_two, rfl, ⟨rfl, Or.inl rfl⟩, car_awaits_nothing 2 3, ⟨rfl, by decide⟩, rfl, ⟨rfl, Or.inl rfl⟩, awaiting_awaits,
    rfl⟩

theorem test_witness_ClaimsCrossByAddress :
    (claiming.supply.running = true ∧ claiming.HearsFrom 2 ∧ claiming.hire.slot = .claiming claim ∧ claiming.addr < 2)
      ∧ (∃ s : State, s.supply.running = true ∧ s.HearsFrom 0 ∧ s.hire.slot = .claiming claim ∧ 0 < s.addr)
      ∧ (hired.HearsFrom 2 ∧ hired.hire.slot.hire? = some ⟨rec0, snap⟩ ∧ rec0.kind = .shared)
      ∧ ((∀ c : Claim, claiming.hire.slot = .claiming c → Kind.shared = .shared ∧ c.kind = .shared)
        ∧ (∀ h : Hire, claiming.hire.slot.hire? = some h → Kind.shared = .shared ∧ h.rc.kind = .shared)
        ∧ claiming.Quiet ∧ claiming.console.cmds.get 2 = none)
      ∧ (∃ s : State, s.hire.slot = .hired ⟨rec0, snap⟩ ∧ s.Quiet ∧ s.Awaits 2 3
        ∧ s.console.cmds.get 2 = some (pend (.hire .shared 2))) :=
  ⟨⟨rfl, ⟨rfl, by decide⟩, rfl, by decide⟩, ⟨inSlot seat (.claiming claim), rfl, ⟨rfl, by decide⟩, rfl, by decide⟩,
    ⟨⟨rfl, by decide⟩, rfl, rfl⟩,
    ⟨fun c h => ⟨rfl, by rw [← Slot.claiming.inj (show Slot.claiming claim = .claiming c from h)]; rfl⟩, fun _ h => (Option.some_ne_none _ (Eq.symm h)).elim, ⟨rfl, Or.inl rfl⟩, rfl⟩,
    ⟨inSlot awaiting (.hired ⟨rec0, snap⟩), rfl, ⟨rfl, Or.inl rfl⟩, ⟨rfl, _, _, _, rfl, rfl, rfl⟩, rfl⟩⟩

theorem test_witness_ClaimWindowEndFormsTheHire :
    claiming.supply.running = true ∧ claiming.hire.slot = .claiming claim ∧ claim.window.isSome = true
      ∧ claiming.interlocked .shared = false ∧ claiming.image = some image
      ∧ (image.bands[selectBand image claiming.clock.seconds]?).join = some band
      ∧ (sees claiming 2 { beacon with hireState := .hired, kind := .exclusive }).interlocked .shared = true := by decide

theorem test_witness_HireAndTransactionNumbersAreNew :
    [rec0].length ≤ 32 ∧ 1 ≤ 9999 ∧ freeHireNo [rec0] 5 33 1 = 2 ∧ freeHireNo [{ rec0 with no := 9999 }] 5 33 9999 = 1
      ∧ freeHireNo [{ rec0 with no := 9999 }, rec0] 5 33 9999 = 2
      ∧ car.pay.reversals.length ≤ 4 ∧ (∀ r ∈ car.hire.log, r.tenders.length ≤ 3) ∧ car.freeTxn 104 65535 = 65535
      ∧ ({ car with pay := { car.pay with reversals := [⟨65535, 500, 1, 0, 0⟩] } } : State).freeTxn 104 65535 = 1 := by decide +kernel

theorem test_witness_StopFixesTheDueAndResumeRunsOn :
    hired.supply.running = true ∧ hired.Hears .localKey ∧ hired.hire.slot = .hired ⟨rec0, snap⟩
      ∧ stopped.Hears .localKey ∧ stopped.hire.slot = .stopped ⟨rec1, snap⟩ ∧ stopped.hire.resume = none
      ∧ ({ stopped with hire := { stopped.hire with resume := some 1 } } : State).hire.resume ≠ none :=
  ⟨rfl, rfl, rfl, rfl, rfl, rfl, by decide⟩

theorem test_witness_CancelAndUnpaidCloseTheHire :
    (hired.supply.running = true ∧ hired.Hears .localKey ∧ hired.hire.slot = .hired ⟨rec0, snap⟩ ∧ rec0.hiredTenths < 600
      ∧ rec0.paidPulses * 1000 < 200 * snap.k)
    ∧ (({ rec0 with hiredTenths := 599, paidPulses := 199 } : HireRecord).paidPulses * 1000 < 200 * snap.k
      ∧ 200 * snap.k ≤ ({ rec0 with paidPulses := 200 } : HireRecord).paidPulses * 1000)
    ∧ (paying.Hears .localKey ∧ paying.hire.slot = .paying ⟨rec1, snap⟩ ∧ paying.pay.session = .none ∧ rec1.due = some 500
      ∧ (inSession paying (.tipSelect 0)).pay.session ≠ .none) :=
  ⟨⟨rfl, rfl, by decide⟩, by decide, rfl, by decide⟩

theorem test_witness_ExtrasAreAddedInOrderAndRemovedFromTheEnd :
    (hired.supply.running = true ∧ hired.Hears .localKey ∧ hired.image = some image ∧ image.extra 1 = some ⟨.fixed, 50, 2⟩
      ∧ rec0.extras.length < 6 ∧ (ExtraDef.form ⟨.fixed, 50, 2⟩ 2 0) = some 50 ∧ rec0.running + 50 ≤ 999999)
    ∧ (image.extra 9 = none ∧ ExtraDef.form ⟨.perPassenger, 30, 6⟩ 1 0 = none ∧ ExtraDef.form ⟨.entered, 0, 6⟩ 1 50001 = none)
    ∧ (rec0.extras = [] ∧ ({ rec0 with extras := [(1, 50)] } : HireRecord).extras ≠ [])
    ∧ (∀ h, paying.hire.slot ≠ .hired h ∧ paying.hire.slot ≠ .stopped h) :=
  ⟨⟨rfl, rfl, by decide⟩, by decide, by decide, fun _ => ⟨fun h => Slot.noConfusion h, fun h => Slot.noConfusion h⟩⟩

theorem test_witness_WrongStateIsRefused :
    car.supply.running = true ∧ car.Hears .localKey ∧ (∀ h, car.hire.slot ≠ .hired h) ∧ (∀ h, hired.hire.slot ≠ .stopped h)
      ∧ (∀ h, stopped.hire.slot ≠ .paying h) :=
  ⟨rfl, rfl, fun _ h => Slot.noConfusion h, fun _ h => Slot.noConfusion h, fun _ h => Slot.noConfusion h⟩

theorem test_witness_LateCloseIsMadeAtRest :
    ∃ s : State, s.supply.running = true ∧ s.shift.pendingLate = some (6, 42) ∧ s.hire.slot = .free ∧ s.pay.session = .none
      ∧ (inSlot s (.hired ⟨rec0, snap⟩)).hire.slot ≠ .free :=
  ⟨{ seat with shift := { seat.shift with pendingLate := some (6, 42) } }, by decide⟩

theorem test_witness_CreditBecomesStepsChargedWithinTheCap :
    0 < snap.threshold ∧ 0 < snap.band.lt ∧ rec0.level = 1 ∧ rec0.capped = false ∧ rec0.running + (20 * 1000 + 0) / 1000 ≤ 999999
      ∧ (let r := { rec0 with distCharge := 999680 }
         r.running ≤ 999999 ∧ 999999 < r.running + (20 * 1000 + 0) / 1000)
      ∧ ({ rec0 with capped := true } : HireRecord).capped = true := by decide

theorem test_witness_SpeedAndSharingLevelSetTheRate :
    band.vh ≤ band.vs ∧ band.mode = .switched ∧ ({ band with mode := .combined } : Band).mode = .combined
      ∧ (silenced car).silent = true ∧ car.silent = false := by decide

theorem test_witness_DueIsRoundedAndToppedUpWithinTheCap :
    (300 = rec0.flagFall + rec0.distCharge + rec0.timeCharge ∧ 0 = rec0.extrasSum ∧ 300 + 0 ≤ 999999
      ∧ 0 = (if 500 ≤ rec0.carry ∧ 300 + 1 + 0 ≤ 999999 then 1 else 0) ∧ 200 = min (500 - (300 + 0)) (999999 - (300 + 0 + 0)))
    ∧ (500 + 0 ≤ 999999) := by decide

theorem test_witness_SlotEndCountsAndCharges :
    hired.supply.running = true ∧ hired.pulse.slot ≠ none ∧ hired.hire.slot = .hired ⟨rec0, snap⟩
      ∧ 8 = (hired.hire.slot.hire?.map fun h => h.snap.pmax).getD 500 ∧ (∀ h, car.hire.slot ≠ .hired h) :=
  ⟨rfl, by decide, rfl, by decide, fun _ h => Slot.noConfusion h⟩

/-- The slot end that raises the fault, the one that clears it, and the one that makes a fault second. -/
theorem test_witness_PulsesSecondsAndFaultsAreCounted :
    (∃ s : State, s.supply.running = true ∧ s.pulse.slot ≠ none ∧ s.pulse.fault = .clear 19 ∧ s.ringLimit < s.pulse.raw)
      ∧ (∃ s : State, s.supply.running = true ∧ s.pulse.slot ≠ none ∧ s.pulse.fault = .raised 19 9 ∧ s.pulse.raw ≤ s.ringLimit) :=
  ⟨⟨{ car with pulse := { car.pulse with fault := .clear 19, raw := 9 } }, by decide⟩,
    ⟨{ car with pulse := { car.pulse with fault := .raised 19 9 } }, by decide⟩⟩

theorem test_witness_OffersAreAdmittedByFreeEntries :
    (List.replicate 12 (entry 4 .hireEvent false)).Pairwise (fun a b => a.cls ≤ b.cls)
      ∧ (List.replicate 12 (entry 4 .hireEvent false)).length ≤ 12 ∧ (List.replicate 15 (entry 3 .reply false)).length ≤ 15
      ∧ 12 < (List.replicate 13 (entry 4 .hireEvent false)).length ∧ 15 < (List.replicate 16 (entry 3 .reply false)).length
      ∧ (∃ e ∈ [entry 6 .beacon true], e.cls = 6 ∧ e.begun = true) := by decide

theorem test_witness_LineEventsMoveTheHeadOfTheQueue :
    (queued car [entry 4 .hireEvent false]).supply.running = true ∧ (queued car [entry 4 .hireEvent false]).Quiet
      ∧ (∀ x ∈ [entry 4 .hireEvent false], x.begun = false) ∧ car.link.fairness < 6
      ∧ 6 ≤ ({ car with link := { car.link with fairness := 6, pause := some 0 } } : State).link.fairness
      ∧ ({ car with link := { car.link with fairness := 6, pause := some 0 } } : State).link.pause ≠ none :=
  ⟨rfl, ⟨rfl, Or.inl rfl⟩, by decide⟩

def lastPart : SumTx := { parts := seat.summaryParts 5 false .zero, k := 3, held := false, gen := 0 }

def served : Serve := { hireNo := 1, parts := rec1.parts, k := 0, held := false, gen := 0 }

def transfer : Transfer :=
  { target := 2, hireNo := 0, m := none, parts := [none, none, none, none, none, none], requery := 0, suspended := none, first := 0
    queryHeld := false, limit := some 0, st := .opened, gen := 0 }

/-- A CLAIM, a COMMAND and a summary part in flight. -/
theorem test_witness_SentFrameLeavesTheQueueAndIsReported :
    (∃ s : State, s.supply.running = true ∧ s.Quiet ∧ s.link.queue.find? (·.begun) = some (entry 1 (.claim 0) true)
        ∧ s.hire.slot = .claiming { claim with sent := false, window := none } ∧ s.addr = 0 ∧ s.link.repl = none)
      ∧ (∃ s : State, s.Quiet ∧ s.link.queue.find? (·.begun) = some (entry 2 (.command 2 3) true)
        ∧ s.console.cmds.get 2 = some { pend .stop with limit := none })
      ∧ (∃ s : State, s.Quiet ∧ s.link.queue.find? (·.begun) = some (entry 5 (.summary 0 3) true)
        ∧ s.shift.tx = some lastPart
        ∧ (seat.summaryParts 5 false .zero).length ≤ 3 + 1)
      ∧ (∃ s : State, s.Quiet ∧ s.link.queue.find? (·.begun) = some (entry 7 (.recordPart 0 0) true)
        ∧ s.print.serve = some served) :=
  ⟨⟨queued (inSlot car (.claiming { claim with sent := false, window := none })) [entry 1 (.claim 0) true], rfl, ⟨rfl, Or.inl rfl⟩,
      by decide⟩,
    ⟨queued (pends car 2 { pend .stop with limit := none }) [entry 2 (.command 2 3) true], ⟨rfl, Or.inl rfl⟩, by decide⟩,
    ⟨queued { seat with shift := { seat.shift with tx := some lastPart } } [entry 5 (.summary 0 3) true],
      ⟨rfl, Or.inl rfl⟩, rfl, rfl, by decide⟩,
    ⟨queued { seat with print := { seat.print with serve := some served } } [entry 7 (.recordPart 0 0) true],
      ⟨rfl, Or.inl rfl⟩, rfl, rfl⟩⟩

/-- A part of a LATE summary in flight. -/
theorem test_witness_SentFrame_late_summary :
    ∃ s : State, s.Quiet ∧ s.link.queue.find? (·.begun) = some (entry 5 (.lateSummary 0 3) true) ∧ s.shift.lateTx = some lastPart
      ∧ s.silent = false ∧ s.link.repl = none :=
  ⟨queued { seat with shift := { seat.shift with lateTx := some lastPart } } [entry 5 (.lateSummary 0 3) true],
    ⟨rfl, Or.inl rfl⟩, rfl, rfl, rfl, rfl⟩

/-- A station that holds a frame of every kind for re-offer. -/
def holdsAll : State :=
  { inSlot car (.claiming claim) with
    hire := { (inSlot car (.claiming claim)).hire with reply := some (1, .done), event := some (.stop 1 500), objects := [2]
                                                       claimHeld := true }
    intercom := { car.intercom with events := [.call] }
    shift := { car.shift with held := [.call 5, .refuse .number 5], tx := some { lastPart with held := true }
                              lateTx := some { lastPart with held := true } }
    print := { car.print with transfer := some { transfer with queryHeld := true }, serve := some { served with held := true } } }

theorem test_witness_SlotEnd_reoffers :
    holdsAll.Quiet ∧ holdsAll.supply.running = true ∧ holdsAll.pulse.slot ≠ none ∧ holdsAll.silent = false
      ∧ holdsAll.link.queue.length + holdsAll.heldOffers.length ≤ 12 ∧ holdsAll.standsHeld (.refuse .number 5) = true
      ∧ (∃ p, lastPart.parts[lastPart.k]? = some p) ∧ (∃ p, served.parts[served.k]? = some p)
      ∧ 16 ≤ (queued holdsAll (List.replicate 16 (entry 3 .reply false))).link.queue.length :=
  ⟨⟨rfl, Or.inl rfl⟩, rfl, by decide, rfl, by decide, by decide, ⟨_, rfl⟩, ⟨_, rfl⟩, by decide⟩

def holdsReply : State := { car with hire := { car.hire with reply := some (1, .done) } }

/-- A held frame goes out at the slot end, and with the queue full it is held on. -/
theorem test_slot_end_reoffers_what_is_held :
    after .slotEnd holdsReply (fun t => t.hire.reply.isNone && t.link.queue.length == 1) = true
    ∧ after .slotEnd (queued holdsReply (List.replicate 16 (entry 3 .reply false)))
        (fun t => t.hire.reply == some (1, .done) && t.link.queue.length == 16) = true := by decide +kernel

def waitingRow : CloseRow := { CloseRow.empty with expected := true, st := .waiting }

/-- A replacement of a queued beacon in flight, a RECORD_QUERY and a SHIFT_CALL in flight. -/
theorem test_witness_SentFrame_replacement_query_call :
    (∃ s : State, s.Quiet ∧ s.link.queue.find? (·.begun) = some (entry 6 .beacon true) ∧ s.link.repl = some ⟨[], false⟩)
      ∧ (∃ s : State, ∃ tr : Transfer, s.Quiet ∧ s.link.queue.find? (·.begun) = some (entry 7 (.recordQuery tr.gen) true)
        ∧ s.print.transfer = some tr ∧ tr.st = .opened)
      ∧ (∃ s : State, s.Quiet ∧ s.link.queue.find? (·.begun) = some (entry 5 .shiftCall true) ∧ s.close.state = .collecting
        ∧ s.close.collect = none
        ∧ (s.close.rows.set 0 { s.close.rows.get 0 with st := .complete }).toList.any (fun r => !r.settled s.close.forced) = true) :=
  ⟨⟨{ queued car [entry 6 .beacon true] with link := { car.link with queue := [entry 6 .beacon true], repl := some ⟨[], false⟩ } },
      ⟨rfl, Or.inl rfl⟩, by decide⟩,
    ⟨queued { car with print := { car.print with transfer := some transfer } } [entry 7 (.recordQuery 0) true], transfer, ⟨rfl, Or.inl rfl⟩, rfl, rfl, rfl⟩,
    ⟨queued { car with close := { car.close with state := .collecting, rows := car.close.rows.set 2 waitingRow } }
      [entry 5 .shiftCall true], ⟨rfl, Or.inl rfl⟩, by decide⟩⟩

theorem test_witness_FramesThatNoBlockTakesChangeNothing :
    goodFrame [] = none ∧ crc16 [1#8, 0#8, 0#8, 0#8] ≠ 0 ∧ [0#8].length ≠ (0#8 : Byte).toNat + 2 ∧ (1#8 : Byte).toNat / 4 = 0
      ∧ (1#8 : Byte).toNat % 4 ≠ 0 ∧ seat.supply.running = true ∧ seat.HearsFrom 0 ∧ seat.Quiet :=
  ⟨by decide, by decide +kernel, by decide, by decide, by decide, rfl, ⟨rfl, by decide⟩, ⟨rfl, Or.inl rfl⟩⟩

/-- A DISTRESS frame from station 0 at a seat, and one from another address. -/
theorem test_witness_DistressFrames : seat.HearsFrom 0 ∧ seat.Quiet ∧ (2 : Addr) ≠ 0 := ⟨⟨rfl, by decide⟩, ⟨rfl, Or.inl rfl⟩, by decide⟩

/-- A close that waits for the sent report of its call, with a row still waiting, and with none. -/
theorem test_witness_Clash_while_collecting :
    (∃ s : State, s.supply.running = true ∧ s.link.synced = true ∧ s.silent = false ∧ s.close.state = .collecting
        ∧ s.close.collect = none
        ∧ (s.close.rows.set 0 { s.close.rows.get 0 with st := .complete }).toList.any (fun r => !r.settled s.close.forced) = true)
      ∧ (∃ s : State, s.supply.running = true ∧ s.link.synced = true ∧ s.silent = false ∧ s.close.state = .collecting
        ∧ s.close.collect = none ∧ s.shift.pendingLate = none
        ∧ (s.close.rows.set 0 { s.close.rows.get 0 with st := .complete }).toList.all (fun r => r.settled s.close.forced) = true)
      ∧ ({ car with print := { car.print with transfer := some transfer } } : State).print.transfer = some transfer
      ∧ transfer.st = .opened :=
  ⟨⟨{ car with close := { car.close with state := .collecting, rows := car.close.rows.set 2 waitingRow } }, by decide⟩,
    ⟨{ car with close := { car.close with state := .collecting, rows := car.close.rows.set 0 waitingRow } }, by decide⟩, rfl, rfl⟩

/-- The sent report of a COMMAND whose HIRE is claiming already, of one with nothing pending, and of a call with no close. -/
theorem test_witness_ReportsThatStartNothing :
    (∃ s : State, s.Quiet ∧ s.supply.running = true ∧ s.link.queue.find? (·.begun) = some (entry 2 (.command 2 3) true)
        ∧ s.console.cmds.get 2 = some { pend (.hire .shared 2) with claiming := true })
      ∧ (∃ s : State, s.Quiet ∧ s.link.queue.find? (·.begun) = some (entry 2 (.command 2 3) true) ∧ s.console.cmds.get 2 = none)
      ∧ (∃ s : State, s.Quiet ∧ s.link.queue.find? (·.begun) = some (entry 5 .shiftCall true) ∧ s.close.state ≠ .collecting) :=
  ⟨⟨queued (pends car 2 { pend (.hire .shared 2) with claiming := true }) [entry 2 (.command 2 3) true], ⟨rfl, Or.inl rfl⟩, rfl, rfl, rfl⟩,
    ⟨queued car [entry 2 (.command 2 3) true], ⟨rfl, Or.inl rfl⟩, rfl, rfl⟩,
    ⟨queued car [entry 5 .shiftCall true], ⟨rfl, Or.inl rfl⟩, rfl, by decide⟩⟩

/-- The sent report of a call whose close waits for station 0 alone, and a frame with the own address. -/
theorem test_witness_CallOfStationZeroAlone :
    (∃ s : State, s.Quiet ∧ s.supply.running = true ∧ s.link.queue.find? (·.begun) = some (entry 5 .shiftCall true)
        ∧ s.link.repl = none ∧ s.close.state = .collecting ∧ s.close.collect = none
        ∧ ∀ a, ((s.close.rows.set 0 { s.close.rows.get 0 with st := .complete }).get a).expected = true →
            ((s.close.rows.set 0 { s.close.rows.get 0 with st := .complete }).get a).st = .complete)
      ∧ (Instr.beaconReceived 0 beacon).frameSender = some car.addr ∧ (Instr.distressFrame 0 1 5).frameSender = some car.addr :=
  ⟨⟨queued { car with close := { car.close with state := .collecting, rows := car.close.rows.set 0 waitingRow } }
      [entry 5 .shiftCall true], ⟨rfl, Or.inl rfl⟩, by decide⟩, rfl, rfl⟩

theorem test_witness_ClashSilencesTheStation :
    car.supply.running = true ∧ car.link.synced = true ∧ car.silent = false ∧ (silenced car).silent = true ∧ (silenced car).Quiet
      ∧ claiming.hire.slot = .claiming claim ∧ claim.src = .localKey :=
  ⟨rfl, rfl, rfl, rfl, ⟨rfl, Or.inl rfl⟩, rfl, rfl⟩

theorem test_witness_BeaconFillsItsRow :
    (seat.supply.running = true ∧ seat.HearsFrom 2 ∧ seat.addr ≠ 0)
      ∧ (seat.HearsFrom 0 ∧ seat.clock.seconds + 2 < ({ beacon with role := 36003 } : Beacon).role.toNat
        ∧ ({ beacon with role := 36002 } : Beacon).role.toNat ≤ seat.clock.seconds + 2 ∧ beacon.clockSet = true)
      ∧ (car.HearsFrom 2 ∧ ((sees car 2 beacon).peer.rows.get 2).ever = true ∧ (car.peer.rows.get 2).ever = false
        ∧ car.console.cmds.get 2 = none ∧ car.console.deferred.get 2 = [] ∧ car.NoLateClose) :=
  ⟨⟨rfl, ⟨rfl, by decide⟩, by decide⟩, ⟨⟨rfl, by decide⟩, by decide⟩, ⟨car_hears_seat_two, rfl, rfl, rfl, rfl, Or.inl rfl⟩⟩

/-- A seat that has not joined the shift and one that has, the guard open and running, and a first beacon with nothing pending, with a
command pending, and with two deferred. -/
theorem test_witness_BeaconRepeatsAndDisconnects :
    (car.Quiet ∧ car.shift.state = .onShift ∧ ¬ (({ beacon with shiftNo := 4 } : Beacon).shiftState ≠ .offShift ∧ (4 : Nat) = car.shift.number)
        ∧ car.shift.repeatGuard = none ∧ car.silent = false ∧ car.shift.driver = some 42 ∧ car.link.queue.length ≤ 11)
      ∧ (beacon.shiftState ≠ .offShift ∧ beacon.shiftNo = car.shift.number)
      ∧ ((sees car 2 beacon).Quiet ∧ ((sees car 2 beacon).peer.rows.get 2).ever = true ∧ (car.peer.rows.get 2).ever = false)
      ∧ car.nonePending 2 = true ∧ (pends car 2 (pend .stop)).nonePending 2 = false
      ∧ (∃ s : State, s.Quiet ∧ s.nonePending 2 = false ∧ (s.console.deferred.get 2).length = 2) :=
  ⟨⟨⟨rfl, Or.inl rfl⟩, by decide⟩, by decide, ⟨⟨rfl, Or.inl rfl⟩, rfl, rfl⟩, by decide, by decide,
    ⟨{ car with console := { car.console with deferred := car.console.deferred.set 2 [.listen, .listenEnd] } }, ⟨rfl, Or.inl rfl⟩,
      by decide⟩⟩

theorem test_witness_HireEventsAndAgeSetThePeerRow :
    (sees car 2 beacon).HearsFrom 2 ∧ ((sees car 2 beacon).peer.rows.get 2).present = true ∧ (car.peer.rows.get 2).present = false
      ∧ (2 : Addr) ≠ (sees car 2 beacon).addr ∧ ((sees seat 0 beacon).peer.rows.get 0).present = true
      ∧ ({ seat with intercom := { seat.intercom with endState := .held .listen } } : State).intercom.endState = .held .listen :=
  ⟨⟨rfl, by decide⟩, rfl, rfl, by decide, rfl, rfl⟩

theorem test_witness_BeaconIsComposedAndOffered :
    car.supply.running = true ∧ car.Quiet ∧ car.peer.period ≠ none ∧ car.silent = false ∧ (silenced car).silent = true
      ∧ State.reset.peer.period = none ∧ hired.hire.slot = .hired ⟨rec0, snap⟩ ∧ rec0.running ≤ 999999 ∧ rec0.level ≤ 4
      ∧ seat.addr ≠ 0 ∧ stopped.hire.slot = .stopped ⟨rec1, snap⟩ ∧ rec1.due = some 500 :=
  ⟨rfl, ⟨rfl, Or.inl rfl⟩, by decide, rfl, rfl, rfl, rfl, by decide⟩

theorem test_witness_SignBytesCarryTheFirstModeThatHolds :
    car.signMode = (.free, 0) ∧ hired.signMode = (.hired, 0) ∧ (sees hired 2 beacon).signMode = (.shared, 3)
      ∧ ({ car with shift := State.reset.shift } : State).signMode = (.offDuty, 0)
      ∧ ({ car with distress := { car.distress with latch := some 0 } } : State).signMode = (.distress, 0) := by decide

/-- The capacities of the seats that station 0 may offer, where no row is filled; and the EXCLUSIVE hires. -/
theorem test_witness_NumeralAndExclusive :
    (∀ (a : Addr) r, r = car.peer.rows.get a →
        (∀ b im, r.beacon = some b → car.image = some im → r.present = true → b.shiftState = .onShift → b.tariffNo = im.number →
          b.edition = im.edition → r.hireState = .free → 0 = b.capacity)
        ∧ (car.image = none ∨ r.present = false ∨ r.hireState ≠ .free ∨ r.beacon = none
            ∨ (∃ b, r.beacon = some b ∧ (b.shiftState ≠ .onShift
              ∨ ∃ im, car.image = some im ∧ (b.tariffNo ≠ im.number ∨ b.edition ≠ im.edition))) → (0 : Nat) = 0))
      ∧ (sees hired 2 beacon).numeral = 3 ∧ (sees car 2 beacon).numeral = 7
      ∧ (sees car 2 { beacon with hireState := .hired, kind := .exclusive }).anyExclusive = true := by
  refine ⟨fun a r h => ⟨fun b im hb => ?_, fun _ => rfl⟩, by decide⟩
  have none_seen : ∀ a : Addr, (car.peer.rows.get a).beacon = none := by decide
  rw [h, none_seen a] at hb
  cases hb

theorem test_witness_SignLineSendsAndWaits :
    (car.supply.running = true ∧ car.Quiet ∧ car.addr = 0 ∧ car.sign.period ≠ none ∧ car.sign.control = .repeating ∧ car.sign.wait = none
      ∧ car.supply.state ≠ .low ∧ car.console.keys = .idle ∧ car.signMode.1 ≠ .offDuty)
    ∧ (∃ s : State, s.Quiet ∧ s.addr = 0 ∧ s.sign.control = .test ∧ s.sign.test ≠ none ∧ s.sign.wait = none)
    ∧ (∃ s : State, s.Quiet ∧ s.addr = 0 ∧ s.sign.wait ≠ none ∧ s.sign.held = some .off ∧ s.sign.silent = 2
      ∧ (signReplyLamps 0x5A#8 0x0F#8 0x55#8).isSome = true)
    ∧ (∃ s : State, s.Quiet ∧ s.addr = 0 ∧ s.sign.wait ≠ none ∧ s.sign.held = some .off ∧ s.sign.control = .off)
    ∧ (∃ s : State, s.Quiet ∧ s.addr = 0 ∧ s.sign.wait ≠ none ∧ s.sign.held = none ∧ s.sign.control = .off ∧ s.sign.silent = 2)
    ∧ (∃ s : State, s.Quiet ∧ s.addr = 0 ∧ s.sign.wait ≠ none ∧ s.sign.held = none)
    ∧ (∃ s : State, s.addr = 0 ∧ s.signMode.1 = .offDuty ∧ s.sign.control = .repeating ∧ s.sign.wait = none)
    ∧ (∃ s : State, s.addr = 0 ∧ s.signMode.1 = .offDuty ∧ s.sign.control = .repeating ∧ s.sign.wait ≠ none) :=
  ⟨⟨rfl, ⟨rfl, Or.inl rfl⟩, by decide⟩,
    ⟨{ car with sign := { car.sign with control := .test, test := some 0 } }, ⟨rfl, Or.inl rfl⟩, by decide⟩,
    ⟨{ car with sign := { car.sign with wait := some 0, held := some .off, silent := 2 } }, ⟨rfl, Or.inl rfl⟩, by decide⟩,
    ⟨{ car with sign := { car.sign with wait := some 0, held := some .off, control := .off } }, ⟨rfl, Or.inl rfl⟩, by decide⟩,
    ⟨{ car with sign := { car.sign with wait := some 0, control := .off, silent := 2 } }, ⟨rfl, Or.inl rfl⟩, by decide⟩,
    ⟨{ car with sign := { car.sign with wait := some 0 } }, ⟨rfl, Or.inl rfl⟩, by decide⟩,
    ⟨{ car with shift := State.reset.shift }, by decide⟩,
    ⟨{ car with shift := State.reset.shift, sign := { car.sign with wait := some 0 } }, by decide⟩⟩

theorem test_witness_DistressLatchIsSetByTheHoldAndClearedByTheCode :
    (car.supply.running = true ∧ car.Quiet ∧ car.addr = 0 ∧ car.distress.active = false ∧ car.distress.latch = none
      ∧ car.distress.inhibit = none ∧ car.supply.state ≠ .low ∧ car.console.keys = .idle)
    ∧ (∃ s : State, s.Quiet ∧ s.addr = 0 ∧ s.distress.hold ≠ none ∧ s.distress.latch = none ∧ s.distress.inhibit ≠ none)
    ∧ (∃ s : State, s.Quiet ∧ s.addr = 0 ∧ s.distress.period ≠ none ∧ s.distress.latch = some 7 ∧ s.silent = false
      ∧ s.image = some image ∧ image.clearCode = [(1 : Fin 10).val, (2 : Fin 10).val, (3 : Fin 10).val, (4 : Fin 10).val]) :=
  ⟨⟨rfl, ⟨rfl, Or.inl rfl⟩, by decide⟩,
    ⟨{ car with distress := { car.distress with hold := some 0, inhibit := some 0 } }, ⟨rfl, Or.inl rfl⟩, by decide⟩,
    ⟨{ car with distress := { car.distress with period := some 0, latch := some 7 } }, ⟨rfl, Or.inl rfl⟩, by decide⟩⟩

theorem test_witness_IntercomCommandsMoveTheEnd :
    seat.supply.running = true ∧ seat.Hears toSeat ∧ seat.hire.slot.privacy = false ∧ seat.intercom.endState = .idle
      ∧ (inSlot seat (.hired ⟨{ rec0 with privacy := true }, snap⟩)).hire.slot.privacy = true :=
  ⟨rfl, ⟨rfl, rfl, by decide, rfl⟩, rfl, rfl, rfl⟩

/-- Each routing of the audio: a talk with a seat, a local talk, an announce, a listening end, the prompt and its tone, and what mutes. -/
theorem test_witness_Audio :
    (∃ s : State, s.supply.running = true ∧ s.addr = 0 ∧ s.intercom.talk = .talk 2 ∧ s.intercom.endState = .connected
        ∧ s.supply.state ≠ .low ∧ s.intercom.volume ≠ 0 ∧ s.intercom.prompt = false)
      ∧ (∃ s : State, s.supply.running = true ∧ s.addr = 0 ∧ s.intercom.talk = .talk 0 ∧ s.intercom.endState = .connected)
      ∧ (∃ s : State, s.supply.running = true ∧ s.addr = 0 ∧ s.intercom.talk = .announce ∧ s.intercom.endState = .listen)
      ∧ (∃ s : State, s.supply.running = true ∧ s.addr = 1 ∧ s.intercom.prompt = true ∧ s.intercom.promptTimer = none)
      ∧ (∃ s : State, s.supply.running = true ∧ s.supply.state = .low) ∧ State.reset.supply.running = false
      ∧ (car.Hears .localKey ∧ car.intercom.talk = .none ∧ car.intercom.endState = .idle) :=
  ⟨⟨{ car with intercom := { car.intercom with talk := .talk 2, endState := .connected } }, by decide⟩,
    ⟨{ car with intercom := { car.intercom with talk := .talk 0, endState := .connected } }, by decide⟩,
    ⟨{ car with intercom := { car.intercom with talk := .announce, endState := .listen } }, by decide⟩,
    ⟨{ seat with intercom := { seat.intercom with prompt := true } }, by decide⟩,
    ⟨{ car with supply := { car.supply with state := .low } }, by decide⟩, rfl, rfl, rfl, rfl⟩

theorem test_witness_SeatEventsReachStationZero :
    car.supply.running = true ∧ car.HearsFrom 2 ∧ car.Quiet ∧ car.addr = 0 ∧ seat.HearsFrom 0 ∧ seat.addr ≠ 0 :=
  ⟨rfl, car_hears_seat_two, ⟨rfl, Or.inl rfl⟩, rfl, ⟨rfl, by decide⟩, by decide⟩

def pressed (s : State) (e : EndState) : State :=
  { s with intercom := { s.intercom with press := some 5, endState := e, callTimer := some 0 } }

theorem test_witness_CallButtonCallsLeavesAndTogglesPrivacy :
    seat.supply.running = true ∧ seat.straps.buttons = true ∧ (pressed seat .idle).intercom.press ≠ none
      ∧ (pressed seat .calling).intercom.endState = .calling ∧ (pressed seat .calling).intercom.callTimer ≠ none
      ∧ (pressed car .idle).addr = 0 ∧ (inSlot (pressed seat .idle) (.hired ⟨rec0, snap⟩)).hire.slot.hire? = some ⟨rec0, snap⟩
      ∧ State.reset.straps.buttons = false := by decide

theorem test_witness_TalkKeyOpensAndEndsATalk :
    (∃ s : State, s.supply.running = true ∧ s.addr = 0 ∧ s.Quiet ∧ s.supply.state ≠ .low ∧ s.console.keys = .idle
        ∧ s.intercom.talk = .none ∧ s.intercom.queue = [] ∧ s.console.selected = 2 ∧ (s.peer.rows.get 2).present = true
        ∧ s.console.cmds.get 2 = none ∧ s.console.deferred.get 2 = []
        ∧ (s.link.offer s.now 2 (encCommand 2 s.console.nextSeq .connect) (.command 2 s.console.nextSeq)).isSome = true)
      ∧ (∃ s : State, s.addr = 0 ∧ s.Quiet ∧ s.intercom.talk.partner = some 2 ∧ s.intercom.talkTimer ≠ none
        ∧ s.console.cmds.get 2 ≠ none ∧ (s.console.deferred.get 2).length < 2) :=
  ⟨⟨{ sees car 2 beacon with console := { car.console with selected := 2 } }, rfl, rfl, ⟨rfl, Or.inl rfl⟩, by decide⟩,
    ⟨{ pends car 2 (pend .stop) with intercom := { car.intercom with talk := .talk 2, talkTimer := some 0 } }, rfl,
      ⟨rfl, Or.inl rfl⟩, by decide⟩⟩

/-- A talk with a seat and nothing pending, with a command pending and two deferred, and a talk of the own end. -/
theorem test_witness_TalkEnds :
    (∃ s : State, s.addr = 0 ∧ s.Quiet ∧ s.intercom.talk.partner = some 2 ∧ s.intercom.talkTimer ≠ none ∧ s.supply.state ≠ .low
        ∧ s.console.keys = .idle ∧ s.console.cmds.get 2 = none ∧ s.console.deferred.get 2 = []
        ∧ (s.link.offer s.now 2 (encCommand 2 s.console.nextSeq .disconnect) (.command 2 s.console.nextSeq)).isSome = true)
      ∧ (∃ s : State, s.Quiet ∧ s.intercom.talk.partner = some 2 ∧ s.console.cmds.get 2 ≠ none
        ∧ 2 ≤ (s.console.deferred.get 2).length)
      ∧ (∃ s : State, s.Quiet ∧ s.intercom.talk.partner = some 0 ∧ s.intercom.talkTimer ≠ none
        ∧ s.console.cmds.get 0 = none ∧ s.console.deferred.get 0 = [])
      ∧ (∃ s : State, s.Quiet ∧ s.intercom.talk = .none ∧ s.intercom.queue = [] ∧ s.console.selected = 0
        ∧ s.hire.slot.privacy = true) :=
  ⟨⟨{ car with intercom := { car.intercom with talk := .talk 2, talkTimer := some 0 } }, rfl, ⟨rfl, Or.inl rfl⟩, by decide⟩,
    ⟨{ pends car 2 (pend .stop) with
        console := { (pends car 2 (pend .stop)).console with deferred := car.console.deferred.set 2 [.listen, .listenEnd] }
        intercom := { car.intercom with talk := .talk 2 } }, ⟨rfl, Or.inl rfl⟩, by decide⟩,
    ⟨{ car with intercom := { car.intercom with talk := .talk 0, talkTimer := some 0 } }, ⟨rfl, Or.inl rfl⟩, by decide⟩,
    ⟨inSlot car (.hired ⟨{ rec0 with privacy := true }, snap⟩), ⟨rfl, Or.inl rfl⟩, by decide⟩⟩

/-- An announce that the own end listens to, and one whose LISTEN to a seat is still deferred. -/
theorem test_witness_AnnounceEnds :
    (∃ s : State, s.addr = 0 ∧ s.intercom.talk = .announce ∧ 0 ∈ s.intercom.announced ∧ s.console.cmds.get 0 = none
        ∧ s.console.deferred.get 0 = [] ∧ s.intercom.endState = .listen)
      ∧ (∃ s : State, s.addr = 0 ∧ s.intercom.talk = .announce ∧ (s.intercom.listenSet ++ [0]).count 2 = 1
        ∧ 2 ∉ s.intercom.announced ∧ s.console.deferred.get 2 = [.listen])
      ∧ (∃ s : State, s.addr = 0 ∧ s.intercom.talk = .announce ∧ (s.intercom.listenSet ++ [0]).count 2 = 1
        ∧ 2 ∈ s.intercom.announced ∧ s.console.cmds.get 2 ≠ none ∧ (s.console.deferred.get 2).length < 2) :=
  ⟨⟨{ car with intercom := { car.intercom with talk := .announce, announced := [0], endState := .listen } }, by decide⟩,
    ⟨{ car with intercom := { car.intercom with talk := .announce, listenSet := [2], announced := [0] }
                console := { car.console with deferred := car.console.deferred.set 2 [.listen] } }, by decide⟩,
    ⟨{ pends car 2 (pend .listen) with intercom := { car.intercom with talk := .announce, listenSet := [2], announced := [0, 2] } },
      by decide⟩⟩

/-- A press with two present seats, one of them free for a command, and an end with a seat that was listened to. -/
theorem test_witness_AnnounceAtASeat :
    (∃ s : State, s.supply.running = true ∧ s.addr = 0 ∧ s.supply.state ≠ .low ∧ s.console.keys = .idle ∧ s.intercom.talk = .none
        ∧ s.Quiet ∧ s.console.nextSeq < 16 ∧ [1, 2, 3].filter (fun a => (s.peer.rows.get a).present) = [1, 2]
        ∧ (0 :: [1, 2]).filter (fun b => s.nonePending b) = [0, 2])
      ∧ (∃ s : State, s.intercom.talk = .announce ∧ s.Quiet ∧ s.intercom.Ok ∧ s.console.Ok
        ∧ (s.intercom.listenSet ++ [0]).filter (fun b => s.intercom.announced.contains b && s.nonePending b) = [2, 0]) :=
  ⟨⟨pends (sees (sees car 1 beacon) 2 beacon) 1 (pend .stop), rfl, rfl, by decide, rfl, rfl, ⟨rfl, Or.inl rfl⟩, by decide⟩,
    ⟨{ car with intercom := { car.intercom with talk := .announce, listenSet := [2], announced := [0, 2] } }, rfl, ⟨rfl, Or.inl rfl⟩,
      ⟨by decide, by decide, List.nodup_nil, by decide⟩, ⟨by decide, by decide⟩, by decide⟩⟩

theorem test_witness_AnnounceListensAndTimersEndWhatTheyTime :
    (car.supply.running = true ∧ car.addr = 0 ∧ car.supply.state ≠ .low ∧ car.console.keys = .idle ∧ car.intercom.talk = .none)
      ∧ (∃ s : State, s.addr = 0 ∧ s.intercom.talk = .announce ∧ s.intercom.announceTimer ≠ none
        ∧ s.intercom.endState = .held .listen ∧ s.intercom.promptTimer ≠ none)
      ∧ (∃ s : State, s.intercom.withdrawDue = true ∧ s.link.synced = true ∧ s.intercom.endState = .connected) :=
  ⟨by decide, ⟨{ car with intercom := { car.intercom with
      talk := .announce, announceTimer := some 0, endState := .held .listen, promptTimer := some 0 } }, by decide⟩,
    ⟨{ seat with intercom := { seat.intercom with withdrawDue := true, endState := .connected } }, by decide⟩⟩

theorem test_witness_PaymentsAreCheckedInOrder :
    (stopped.supply.running = true ∧ stopped.Hears .localKey ∧ stopped.hire.slot = .stopped ⟨rec1, snap⟩ ∧ stopped.pay.session = .none
      ∧ rec1.tenders.length < 3 ∧ 0 < rec1.remaining ∧ stopped.card.currency ≠ none ∧ stopped.card.moduleState = .ready)
    ∧ (let r := { rec1 with tenders := [.cash 500 500 0] }; r.tenders.length < 3 ∧ r.remaining = 0)
    ∧ (let r := { rec1 with tenders := [.cash 1 1 0, .cash 1 1 0, .cash 1 1 0] }; 3 ≤ r.tenders.length)
    ∧ 4 ≤ (List.replicate 4 (⟨9, 500, 1, 0, 0⟩ : Reversal)).length :=
  ⟨⟨rfl, rfl, by decide⟩, by decide⟩

theorem test_witness_CashAndAccountTendersAreApplied :
    stopped.supply.running = true ∧ stopped.Hears .localKey ∧ stopped.hire.slot = .stopped ⟨rec1, snap⟩ ∧ stopped.pay.session = .none
      ∧ rec1.tenders.length < 3 ∧ 0 < rec1.remaining ∧ 499 < rec1.remaining ∧ rec1.remaining ≤ 500 :=
  ⟨rfl, rfl, by decide⟩

theorem test_witness_CardSessionIsBegunAndCancelled :
    (paying.supply.running = true ∧ paying.Hears .localKey ∧ paying.hire.slot = .paying ⟨rec1, snap⟩ ∧ paying.pay.session = .none
      ∧ rec1.tenders.length < 3 ∧ 0 < rec1.remaining ∧ paying.card.currency ≠ none ∧ paying.card.moduleState = .ready
      ∧ paying.pay.reversals.length < 4)
    ∧ (rec1.tenders = [] ∧ rec1.tip = none ∧ paying.image = some image ∧ image.tips ≠ [] ∧ paying.straps.buttons = true)
    ∧ ((inSession paying (.cardWait { card1 with txn := none })).pay.session = .cardWait { card1 with txn := none }
      ∧ (inSession paying (.enquiry card1)).pay.session = .enquiry card1 ∧ card1.txn ≠ none) :=
  ⟨⟨rfl, rfl, by decide⟩, by decide⟩

theorem test_witness_PassengerButtonsChooseTipAndVolume :
    (∃ s : State, s.supply.running = true ∧ s.straps.buttons = true ∧ s.pay.session = .tipSelect 2 ∧ s.image = some image
        ∧ s.hire.slot = .paying ⟨rec1, snap⟩ ∧ rec1.due = some 500 ∧ image.tips[2]? = some 15 ∧ s.card.moduleState = .ready)
      ∧ (car.straps.buttons = true ∧ car.pay.session = .none ∧ State.reset.straps.buttons = false)
      ∧ (∃ s : State, s.pay.overall ≠ none ∧ s.pay.session = .enquiry card1 ∧ s.display.timer ≠ none) :=
  ⟨⟨inSession paying (.tipSelect 2), by decide⟩, by decide,
    ⟨{ car with pay := { car.pay with overall := some 0, session := .enquiry card1 }, display := { car.display with timer := some 0 } },
      by decide⟩⟩

/-- What the passenger display shows: a stopped hire with a tender, the tip options, and a station that shows nothing. -/
theorem test_witness_PassengerDisplay :
    (stopped.supply.running = true ∧ stopped.supply.state ≠ .low ∧ stopped.hire.slot = .stopped ⟨rec1, snap⟩ ∧ rec1.due = some 500)
      ∧ (let s := inSession paying (.tipSelect 2); s.pay.session = .tipSelect 2 ∧ s.image = some image
        ∧ s.hire.slot.hire? = some ⟨rec1, snap⟩)
      ∧ (∀ c, stopped.pay.session ≠ .tipSelect c) ∧ State.reset.supply.running = false :=
  ⟨by decide, ⟨rfl, rfl, rfl⟩, fun _ h => Session.noConfusion h, rfl⟩

theorem test_witness_CardRequestsGoOut :
    (∃ s : State, s.supply.running = true ∧ s.card.out = none ∧ s.pay.session = .cardWait { card1 with txn := none, cancelReq := false })
      ∧ (∃ s : State, s.card.out = none ∧ s.pay.session = .enquiry card1 ∧ card1.txn = some 9 ∧ card1.cancelReq = true
        ∧ card1.cancelSent = false)
      ∧ (car.card.poll ≠ none ∧ car.pay.session = .none ∧ car.pay.reversals = [] ∧ State.reset.card.poll = none)
      ∧ (∃ s : State, s.card.out = some ⟨.poll, false, some 0⟩ ∧ s.card.poll ≠ none) :=
  ⟨⟨inSession paying (.cardWait { card1 with txn := none, cancelReq := false }), by decide⟩, ⟨inSession paying (.enquiry card1), by decide⟩,
    by decide, ⟨{ car with card := { car.card with out := some ⟨.poll, false, some 0⟩ } }, by decide⟩⟩

theorem test_witness_MissesCountToAbsentOrInDoubt :
    (∃ s : State, s.supply.running = true ∧ s.card.out = some ⟨.poll, true, some 0⟩ ∧ s.card.missed = 2)
      ∧ (∃ s : State, s.card.out = some ⟨.enquire 9, true, some 0⟩ ∧ s.pay.session = .enquiry card1 ∧ s.card.missed = 2)
      ∧ car.card.out = none ∧ car.card.missed ≠ 2 :=
  ⟨⟨{ car with card := { car.card with out := some ⟨.poll, true, some 0⟩, missed := 2 } }, by decide⟩,
    ⟨{ inSession paying (.enquiry card1) with card := { car.card with out := some ⟨.enquire 9, true, some 0⟩, missed := 2 } },
      by decide⟩, by decide⟩

/-- An outstanding POLL, an ENQUIRE of the session with the request amount approved, and a REVERSE. -/
theorem test_witness_ModuleAnswersAreTaken :
    (∃ s : State, s.supply.running = true ∧ s.card.moduleState ≠ .notFitted ∧ s.card.outstanding = some .poll
        ∧ s.card.awaits 9 = false)
      ∧ (∃ s : State, s.card.awaits 9 = true ∧ s.pay.session = .enquiry card1 ∧ s.hire.slot = .paying ⟨rec1, snap⟩
        ∧ rec1.tenders.length < 3 ∧ 0 < 500 ∧ 500 ≤ card1.amount ∧ card1.amount < 501)
      ∧ (∃ s : State, s.card.outstanding = some (.reverse 9 500))
      ∧ scanCard 1 [] = none ∧ State.reset.card.moduleState = .notFitted :=
  ⟨⟨{ car with card := { car.card with out := some ⟨.poll, true, some 0⟩ } }, by decide⟩,
    ⟨{ inSession paying (.enquiry card1) with card := { car.card with out := some ⟨.enquire 9, true, some 0⟩ } }, by decide⟩,
    ⟨{ car with card := { car.card with out := some ⟨.reverse 9 500, true, some 0⟩ } }, by decide⟩, by decide⟩

/-- A start byte that came late opens a frame, and the bytes of a frame that fails its check. -/
theorem test_witness_LateStartByte :
    (∃ s : State, s.supply.running = true ∧ s.card.moduleState ≠ .notFitted ∧ s.card.rxOpen = true
        ∧ scanCard (([1#8, 1#8, 0#8, 0#8] : List Byte).length + 2) (2#8 :: [1#8, 1#8, 0#8, 0#8]) = none)
      ∧ (some 2#8 : Option Byte) = some 2#8 ∧ (some 3#8 : Option Byte) ≠ some 2#8 :=
  ⟨⟨{ car with card := { car.card with rxOpen := true } }, by decide +kernel⟩, rfl, by decide⟩

theorem test_witness_SeatFollowsTheShift :
    (seat.supply.running = true ∧ seat.addr ≠ 0 ∧ seat.Quiet ∧ seat.HearsFrom 0 ∧ seat.shift.state ≠ .offShift ∧ seat.shift.number = 5
      ∧ seat.hire.slot = .free ∧ seat.pay.session = .none ∧ seat.HearsFrom 2)
    ∧ (∃ s : State, s.Quiet ∧ s.shift.state = .closing ∧ s.shift.number = 5 ∧ s.addr ∈ [(0 : Addr), 1] ∧ s.addr ∉ [(0 : Addr)]
      ∧ s.shift.closing ≠ none)
    ∧ (inSlot seat (.hired ⟨rec0, snap⟩)).hire.slot ≠ .free ∧ State.reset.shift.state = .offShift
    ∧ seat.shift.number ≠ 6 ∧ (seat.summaryParts 5 false .zero)[0]?.isSome = true :=
  ⟨⟨rfl, by decide, ⟨rfl, Or.inl rfl⟩, ⟨rfl, by decide⟩, by decide, rfl, rfl, rfl, ⟨rfl, by decide⟩⟩,
    ⟨{ seat with shift := { seat.shift with state := .closing, closing := some 0 } }, ⟨rfl, Or.inl rfl⟩, by decide⟩, by decide⟩

theorem test_witness_SeatAnswersTheCall :
    seat.supply.running = true ∧ seat.addr ≠ 0 ∧ seat.HearsFrom 0 ∧ seat.Quiet ∧ seat.shift.number = 5 ∧ seat.shift.state = .onShift
      ∧ seat.hire.slot = .free ∧ seat.pay.session = .none ∧ (seat.summaryParts 5 false .zero)[0]?.isSome = true :=
  ⟨rfl, by decide, ⟨rfl, by decide⟩, ⟨rfl, Or.inl rfl⟩, rfl, rfl, rfl, rfl, rfl⟩

theorem test_witness_ClosedHireIsAccumulatedAndSummarised : Accum.zero.cash ≤ 4294967295 ∧ seat.image = some image
    ∧ State.reset.image = none := by decide

theorem test_witness_StationZeroOpensAndCallsTheClose :
    (car.supply.running = true ∧ car.addr = 0 ∧ car.Quiet ∧ car.console.keys = .idle ∧ car.supply.state ≠ .low ∧ car.shift.state = .onShift
      ∧ car.hire.slot = .free ∧ car.pay.session = .none ∧ car.silent = false ∧ .vehicleReport ∉ car.print.jobs
      ∧ .lastReport ∉ car.print.jobs ∧ car.close.reportHeld = false ∧ car.close.state ≠ .abandoned)
    ∧ (∃ s : State, s.close.state = .abandoned ∧ s.close.number = s.shift.number ∧ s.shift.state = .onShift)
    ∧ ({ car with shift := State.reset.shift } : State).shift.state = .offShift
    ∧ ({ car with supply := { car.supply with state := .low } } : State).supply.state = .low :=
  ⟨⟨rfl, rfl, ⟨rfl, Or.inl rfl⟩, by decide⟩, ⟨{ car with close := { car.close with state := .abandoned, number := 5 } }, by decide⟩,
    by decide⟩

/-- A close that collects from seat 2, which has all parts but the last. -/
def collecting (forced : Bool) : State :=
  let gathered : Quad (Option SummaryPart) := ⟨some (.part3 0 0 0), some (.part3 0 0 0), some (.part3 0 0 0), none⟩
  let rows : Quad CloseRow := ⟨{ CloseRow.empty with expected := true, st := .complete }, .empty,
    { CloseRow.empty with expected := true, st := .waiting, parts := gathered }, .empty⟩
  { car with close := { car.close with state := .collecting, number := 5, forced := forced, collect := some 0, rows := rows } }

def lateOfFour : LateSummary :=
  { number := 4, parts := ⟨some (.part3 0 0 0), some (.part3 0 0 0), some (.part3 0 0 0), none⟩, complete := false, reported := false }

theorem test_witness_CloseTableAndLateSummariesAreCollected :
    ((collecting false).supply.running = true ∧ (collecting false).addr = 0 ∧ (collecting false).Quiet ∧ (collecting false).HearsFrom 2
      ∧ (collecting false).close.state = .collecting ∧ ((collecting false).close.rows.get 2).expected = true
      ∧ ((collecting false).close.rows.get 2).st = .waiting ∧ partNumber (.part3 1 2 3) = none
      ∧ partNumber (.part0 5 0 0 0 0 false false false 0 0) = some 5 ∧ partNumber (.part0 6 0 0 0 0 false false false 0 0) = some 6 ∧ (collecting true).close.forced = true
      ∧ (collecting true).close.collect ≠ none)
    ∧ (∃ s : State, ∃ l, s.addr = 0 ∧ s.HearsFrom 2 ∧ (s.close.rows.get 2).late = some l ∧ l.complete = false
      ∧ (∀ i, (l.parts.set (partPlace (.part3 1 2 3)) (some (.part3 1 2 3))).get i ≠ none) ∧ s.print.jobs.length < 4) :=
  ⟨⟨rfl, rfl, ⟨rfl, Or.inl rfl⟩, ⟨rfl, by decide⟩, by decide⟩,
    ⟨{ car with close := { car.close with rows := car.close.rows.set 2 { CloseRow.empty with late := some lateOfFour } } }, lateOfFour,
      rfl, ⟨rfl, by decide⟩, rfl, rfl, by decide, by decide⟩⟩

/-- A seat that hears the frames of a close, which it ignores. -/
theorem test_witness_CloseFramesAtASeat : seat.supply.running = true ∧ seat.Quiet ∧ seat.addr ≠ 0 ∧ seat.HearsFrom 0 ∧ seat.HearsFrom 2 :=
  ⟨rfl, ⟨rfl, Or.inl rfl⟩, by decide, ⟨rfl, by decide⟩, ⟨rfl, by decide⟩⟩

/-- With this sequence open. -/
def keying (k : KeySeq) : State := { car with console := { car.console with keys := k, keyTimer := some 0 } }

theorem test_witness_KeySequencesCollectAndComplete :
    car.supply.running = true ∧ car.addr = 0 ∧ car.Quiet ∧ car.supply.state ≠ .low ∧ car.console.keys = .idle
      ∧ (keying (.function (some 2) [2, 0, 2, 4, 0, 2, 2, 9, 2, 3, 5, 9])).console.keys
        = .function (some 2) ([2, 0, 2, 4] ++ [0, 2] ++ [2, 9] ++ [2, 3] ++ [5, 9])
      ∧ (keying (.cash [1, 2, 3, 4, 5])).console.keyTimer ≠ none ∧ [1, 2, 3, 4, 5].length < 6
      ∧ (keying (.cash [1, 2, 3, 4, 5, 6])).console.keys = .cash [1, 2, 3, 4, 5, 6]
      ∧ (keying (.extra none [])).console.keys = .extra none [] ∧ (keying (.extra none [0])).console.keys = .extra none [0]
      ∧ (keying (.extra (some 8) [9])).console.keys = .extra (some 8) [9]
      ∧ (keying (.function none [])).console.keys = .function none [] :=
  ⟨rfl, rfl, ⟨rfl, Or.inl rfl⟩, by decide⟩

/-- Keys that an open sequence does not allow, and digits beyond the largest count. -/
theorem test_witness_IgnoredKeys :
    (keying .pay).console.keys = .pay ∧ (keying .select).console.keys ≠ .idle ∧ Key.stop ≠ .clear ∧ Key.stop ≠ .enter
      ∧ (∀ d, Key.stop ≠ .digit d) ∧ 6 ≤ [1, 2, 3, 4, 5, 6].length ∧ 8 ≤ [1, 2, 3, 4, 5, 6, 7, 8].length ∧ 4 ≤ [1, 2, 3, 4].length
      ∧ (6 : Fin 10).val ∉ [1, 2, 3, 4, 5, 8, 9] ∧ (keying (.function (some 3) [])).console.keys = .function (some 3) []
      ∧ 12 ≤ [2, 0, 2, 4, 0, 2, 2, 9, 2, 3, 5, 9].length := by decide

theorem test_witness_CommandsPendUntilAnsweredAndDefer :
    (car.supply.running = true ∧ car.addr = 0 ∧ car.Quiet ∧ car.supply.state ≠ .low ∧ car.console.keys = .idle ∧ car.console.selected = 0
      ∧ car.console.cmds.get 0 = none ∧ car.console.deferred.get 0 = [])
    ∧ ((pends car 0 { pend .stop with handed := false }).console.cmds.get 0 = some { pend .stop with handed := false })
    ∧ (∃ s : State, s.Quiet ∧ s.HearsFrom 2 ∧ s.console.cmds.get 2 = some (pend .connect) ∧ (pend .connect).limit ≠ none
      ∧ s.intercom.talk.partner = some 2 ∧ s.console.deferred.get 2 = [])
    ∧ (∃ s : State, s.Quiet ∧ s.console.cmds.get 2 = none ∧ s.console.deferred.get 2 = [.listen, .disconnect]
      ∧ (s.link.offer s.now 2 (encCommand 2 s.console.nextSeq .listen) (.command 2 s.console.nextSeq)).isSome = true) :=
  ⟨⟨rfl, rfl, ⟨rfl, Or.inl rfl⟩, by decide⟩, by decide,
    ⟨{ pends car 2 (pend .connect) with intercom := { car.intercom with talk := .talk 2 } }, ⟨rfl, Or.inl rfl⟩, car_hears_seat_two,
      by decide⟩,
    ⟨{ car with console := { car.console with deferred := car.console.deferred.set 2 [.listen, .disconnect] } }, ⟨rfl, Or.inl rfl⟩,
      by decide⟩⟩

/-- An unanswered CONNECT of the own end, and one of a seat with a command and with two deferred. -/
theorem test_witness_UnansweredConnect :
    (∃ s : State, s.Quiet ∧ s.console.cmds.get 0 = some (pend .connect) ∧ s.intercom.talk.partner = some 0
        ∧ s.console.deferred.get 0 = [])
      ∧ (∃ s : State, s.Quiet ∧ s.console.cmds.get 2 = some (pend .connect) ∧ s.intercom.talk.partner = some 2
        ∧ s.console.deferred.get 2 = [.listen])
      ∧ (∃ s : State, s.Quiet ∧ s.console.cmds.get 2 = some (pend .connect) ∧ s.intercom.talk.partner = some 2
        ∧ s.console.deferred.get 2 = [.listen, .listenEnd]) :=
  ⟨⟨{ pends car 0 (pend .connect) with intercom := { car.intercom with talk := .talk 0 } }, ⟨rfl, Or.inl rfl⟩, by decide⟩,
    ⟨{ car with console := { car.console with
          cmds := car.console.cmds.set 2 (some (pend .connect)), deferred := car.console.deferred.set 2 [.listen] }
                intercom := { car.intercom with talk := .talk 2 } }, ⟨rfl, Or.inl rfl⟩, by decide⟩,
    ⟨{ car with console := { car.console with
          cmds := car.console.cmds.set 2 (some (pend .connect)), deferred := car.console.deferred.set 2 [.listen, .listenEnd] }
                intercom := { car.intercom with talk := .talk 2 } }, ⟨rfl, Or.inl rfl⟩, by decide⟩⟩

/-- A deferred LISTEN of the own end where it is HELD from a connection, where it listens, and where it is idle under the prompt; and a
deferred LISTEN_END. -/
theorem test_witness_OwnEndTakesADeferredListen :
    (∃ s : State, s.Quiet ∧ s.console.cmds.get 0 = none ∧ s.console.deferred.get 0 = [.listen] ∧ s.intercom.endState = .held .connected)
      ∧ (∃ s : State, s.Quiet ∧ s.console.deferred.get 0 = [.listen] ∧ s.intercom.endState = .listen)
      ∧ (∃ s : State, s.Quiet ∧ s.console.deferred.get 0 = [.listen] ∧ s.intercom.endState = .idle ∧ s.intercom.prompt = true
        ∧ s.intercom.talk = .talk 0)
      ∧ (∃ s : State, s.Quiet ∧ s.console.deferred.get 0 = [.listenEnd] ∧ s.intercom.endState = .held .listen) :=
  ⟨⟨{ car with console := { car.console with deferred := car.console.deferred.set 0 [.listen] }
               intercom := { car.intercom with endState := .held .connected } }, ⟨rfl, Or.inl rfl⟩, by decide⟩,
    ⟨{ car with console := { car.console with deferred := car.console.deferred.set 0 [.listen] }
                intercom := { car.intercom with endState := .listen } }, ⟨rfl, Or.inl rfl⟩, by decide⟩,
    ⟨{ car with console := { car.console with deferred := car.console.deferred.set 0 [.listen] }
                intercom := { car.intercom with prompt := true, talk := .talk 0 } }, ⟨rfl, Or.inl rfl⟩, by decide⟩,
    ⟨{ car with console := { car.console with deferred := car.console.deferred.set 0 [.listenEnd] }
                intercom := { car.intercom with endState := .held .listen } }, ⟨rfl, Or.inl rfl⟩, by decide⟩⟩

theorem test_witness_OwnEndTakesADeferredDisconnect : ∃ s : State, s.supply.running = true ∧ s.addr = 0 ∧ s.Quiet
    ∧ s.console.cmds.get 0 = none ∧ s.console.deferred.get 0 = [.disconnect, .connect] ∧ s.intercom.endState = .connected :=
  ⟨{ car with console := { car.console with deferred := car.console.deferred.set 0 [.disconnect, .connect] }
              intercom := { car.intercom with endState := .connected } }, rfl, rfl, ⟨rfl, Or.inl rfl⟩, by decide⟩

def overridden : PeerRow := { row beacon with ovr := some { state := .stopped, kind := none, due := some 600 } }

/-- What the driver display shows: the page, the clock after it was set, masked digits, and a seat with an override. -/
theorem test_witness_DriverDisplay :
    (∃ s : State, s.supply.running = true ∧ s.addr = 0 ∧ s.supply.state ≠ .low ∧ s.console.page = true)
      ∧ (∃ s : State, s.addr = 0 ∧ s.console.page = false ∧ s.console.message = some .clockShown)
      ∧ (keying (.function (some 9) [1, 2])).console.page = false
      ∧ (keying (.function (some 9) [1, 2])).console.keys = .function (some 9) [1, 2]
      ∧ (∃ s : State, ∃ r b o, s.console.selected = 2 ∧ r = s.peer.rows.get 2 ∧ r.beacon = some b ∧ r.ovr = some o
        ∧ o.due = some 600)
      ∧ (car.console.selected = 0 ∧ hired.hire.slot = .hired ⟨rec0, snap⟩ ∧ stopped.hire.slot = .stopped ⟨rec1, snap⟩) :=
  ⟨⟨{ car with console := { car.console with page := true } }, by decide⟩,
    ⟨{ car with console := { car.console with message := some .clockShown } }, by decide⟩, rfl, rfl,
    ⟨{ car with console := { car.console with selected := 2 }
                peer := { car.peer with rows := car.peer.rows.set 2 overridden } },
      _, beacon, _, rfl, rfl, rfl, rfl, rfl⟩,
    rfl, rfl, rfl⟩

theorem test_witness_ServiceKeysSetTheClockAndPrint :
    (car.supply.running = true ∧ car.addr = 0 ∧ car.Quiet ∧ car.console.keys = .idle ∧ car.supply.state ≠ .low ∧ car.close.state ≠ .done
      ∧ car.shift.state ≠ .offShift ∧ car.print.jobs.length < 4)
    ∧ clockEntryOk 2099 12 31 23 59 = true ∧ clockEntryOk 1999 12 31 0 0 = false
    ∧ ({ car with close := { car.close with state := .done } } : State).close.state = .done
    ∧ 4 ≤ [Job.lastReport, .lastReport, .lastReport, .lastReport].length :=
  ⟨⟨rfl, rfl, ⟨rfl, Or.inl rfl⟩, by decide⟩, by decide⟩

def builder : Builder := { record := none, line := 0, headOpen := false, finished := false }

theorem test_witness_PrintUnitBuildsAndPrints :
    (car.supply.running = true ∧ car.addr = 0 ∧ car.Quiet ∧ car.print.builder = none ∧ car.print.jobs = [])
    ∧ (∃ s : State, s.Quiet ∧ s.print.jobs = [.lastReport] ∧ s.print.builder = some builder ∧ builder.finished = false
      ∧ s.supply.state ≠ .low ∧ s.print.queue.length + 128 ≤ 512 ∧ ([(PrintLabel.noReport, [])] : List (PrintLabel × List Nat))[builder.line]?
          = some (.noReport, []))
    ∧ (∃ s : State, s.Quiet ∧ s.print.paperOut = false ∧ s.print.queue[s.print.given]? = some (.control .cut)
      ∧ (∃ x ∈ s.print.queue.drop s.print.given, x.ends = true) ∧ s.print.flush ≠ none
      ∧ (s.print.builder.map (·.finished)).getD false = true)
    ∧ 512 < (List.replicate 385 (PrintEntry.control .feed)).length + 128 :=
  ⟨⟨rfl, rfl, ⟨rfl, Or.inl rfl⟩, by decide⟩,
    ⟨{ car with print := { car.print with jobs := [.lastReport], builder := some builder } }, ⟨rfl, Or.inl rfl⟩, by decide⟩,
    ⟨{ car with print := { car.print with queue := [.control .cut], flush := some 0, builder := some { builder with finished := true } } },
      ⟨rfl, Or.inl rfl⟩, by decide⟩, by decide +kernel⟩

def emptyLate : LateSummary := { lateOfFour with parts := ⟨none, none, none, none⟩ }

/-- A slip, a receipt with its own record, one of a completed transfer and one without, and a record that is settled. -/
theorem test_witness_SlipsAndReceipts :
    (∃ s : State, ∃ l, s.print.jobs = [.lateSlip 2] ∧ s.print.builder = some builder ∧ builder.finished = false ∧ s.Quiet
        ∧ (s.close.rows.get 2).late = some l ∧ l.parts = ⟨none, none, none, none⟩ ∧ s.supply.state ≠ .low)
      ∧ (∃ s : State, s.print.jobs = [.receipt 0 1] ∧ s.Quiet
        ∧ s.print.builder = some { builder with record := some rec1, headOpen := true })
      ∧ (∃ s : State, ∃ tr, s.print.jobs = [.receipt 2 1] ∧ s.Quiet ∧ s.print.builder = some { builder with headOpen := true }
        ∧ s.print.transfer = some tr ∧ tr.st = .complete)
      ∧ (∃ s : State, ∃ tr, s.print.jobs = [.receipt 2 1] ∧ s.Quiet ∧ s.print.builder = some { builder with line := 1 }
        ∧ s.print.transfer = some tr ∧ tr.st = .complete
        ∧ ((readForm tr.bytes).receipt tr.hireNo).lines[0]?.isSome = true)
      ∧ (let r := { rec1 with paidDistance := some 100, hiredSeconds := some 10, outcome := some .settled }
        r.paidDistance = some 100 ∧ r.hiredSeconds = some 10 ∧ r.due = some 500 ∧ r.outcome = some .settled) :=
  ⟨⟨{ car with print := { car.print with jobs := [.lateSlip 2], builder := some builder }
               close := { car.close with rows := car.close.rows.set 2 { CloseRow.empty with late := some emptyLate } } }, _, rfl, rfl, rfl, ⟨rfl, Or.inl rfl⟩, rfl, rfl, by decide⟩,
    ⟨{ car with print := { car.print with jobs := [.receipt 0 1]
                                          builder := some { builder with record := some rec1, headOpen := true } } },
      rfl, ⟨rfl, Or.inl rfl⟩, rfl⟩,
    ⟨{ car with print := { car.print with jobs := [.receipt 2 1], builder := some { builder with headOpen := true }
                                          transfer := some { transfer with st := .complete, m := some 1 } } },
      { transfer with st := .complete, m := some 1 }, rfl, ⟨rfl, Or.inl rfl⟩, rfl, rfl, rfl⟩,
    ⟨{ car with print := { car.print with jobs := [.receipt 2 1], builder := some { builder with line := 1 }
                                          transfer := some { transfer with st := .complete, m := some 1 } } },
      { transfer with st := .complete, m := some 1 }, rfl, ⟨rfl, Or.inl rfl⟩, rfl, rfl, rfl, by decide +kernel⟩,
    rfl, rfl, rfl, rfl⟩

/-- The part that completes a transfer of one, and one that leaves a gap before it. -/
theorem test_witness_RecordTransferAsksAndAnswers :
    (seat.supply.running = true ∧ seat.HearsFrom 0 ∧ seat.Quiet ∧ seat.addr ≠ 0 ∧ seat.silent = false
      ∧ seat.hire.log.reverse.find? (fun r => 0 == 0 || r.no == 0) = none)
    ∧ (∃ s : State, s.supply.running = true ∧ s.addr = 0 ∧ s.Quiet ∧ s.print.transfer = some transfer ∧ transfer.st = .opened
      ∧ s.HearsFrom transfer.target ∧ transfer.hireNo = 0 ∧ transfer.m = none ∧ transfer.limit ≠ none ∧ transfer.requery < 2)
    ∧ (∀ p ∈ (transfer.parts.set 0 (some [1#8])).take 1, p ≠ none)
    ∧ ((∃ p ∈ (transfer.parts.set 1 (some [1#8])).take 2, p = none) ∧ (transfer.parts.set 1 (some [1#8])).findIdx Option.isNone < 1) :=
  ⟨⟨rfl, ⟨rfl, by decide⟩, ⟨rfl, Or.inl rfl⟩, by decide⟩,
    ⟨{ car with print := { car.print with transfer := some transfer } }, rfl, rfl, ⟨rfl, Or.inl rfl⟩, rfl, rfl, ⟨rfl, by decide⟩,
      rfl, rfl, by decide, by decide⟩, by decide, by decide⟩

theorem test_witness_SupplyMonitorCountsAndStops :
    (∃ s : State, s.supply.running = true ∧ s.supply.state = .normal ∧ s.supply.low ≠ none ∧ s.supply.fail ≠ none ∧ s.addr = 0
        ∧ s.sign.wait = none)
      ∧ (∃ s : State, s.supply.running = true ∧ s.supply.state = .low ∧ s.supply.normal ≠ none)
      ∧ car.supply.low = none ∧ car.supply.fail = none ∧ State.reset.supply.running = false :=
  ⟨⟨{ car with supply := { car.supply with mv := 5999, low := some 0, fail := some 0 } }, by decide⟩,
    ⟨{ car with supply := { car.supply with state := .low, normal := some 0 } }, by decide⟩, by decide⟩

/-- A cold start from reset, and a warm start of a station that stopped with a hire and an enquiry. -/
theorem test_witness_StartClassifiesAndRestores :
    (State.reset.supply.running = false ∧ State.reset.supply.start ≠ some 0
        ∧ (∃ s : State, s.supply.running = false ∧ s.supply.start = some 0 ∧ s.supply.backupValid = false))
      ∧ (∃ s : State, s.supply.running = false ∧ s.supply.start = some 0
        ∧ ¬ (s.supply.backupValid = false ∨ s.supply.updateMark = true ∨ s.supply.retainedAddr ≠ 0)
        ∧ s.hire.slot = .paying ⟨rec1, snap⟩ ∧ s.pay.session = .cardWait card1 ∧ card1.txn ≠ none)
      ∧ car.supply.running = true :=
  ⟨⟨rfl, by decide, ⟨{ State.reset with supply := { State.reset.supply with start := some 0 } }, by decide⟩⟩, ⟨{ inSession paying (.cardWait card1) with supply := { car.supply with running := false, start := some 0 } }, by decide⟩,
    by decide⟩

end Sys2Proof.Tests
end

section
/-! PROOFS. Every command is taken whole and keeps the bounds (O1, O3, O4, O5). -/
namespace Sys2Proof.Machine
open Sys2Proof

/-! ### Operations that keep the bounds -/

/-- An operation on the station keeps its bounds and the queue of commands. -/
def KeepsBounds (f : State → State) : Prop := ∀ (w : List Instr) (t : State), t.OkWith w → (f t).OkWith w

namespace KeepsBounds
variable {f : State → State}

theorem same : KeepsBounds fun t => t := fun _ _ ht => ht

/-- An operation made only under a condition on the state. -/
theorem onlyIf (h : KeepsBounds f) (p : State → Prop) [DecidablePred p] : KeepsBounds fun t => if p t then f t else t := by
  intro w t ht
  show (if p t then f t else t).OkWith w
  split
  · exact h w t ht
  · exact ht

theorem onLink {g : Link → Link} (h : ∀ l, l.Ok → (g l).Ok) : KeepsBounds fun t => t.onLink g :=
  fun _ t ht => State.onLink_ok ht (h t.link)

theorem onIntercom {g : Intercom → Intercom} (h : ∀ i, i.Ok → (g i).Ok) : KeepsBounds fun t => t.onIntercom g :=
  fun _ t ht => State.onIntercom_ok ht (h t.intercom)

theorem hear (h : KeepsBounds f) (a : Addr) : KeepsBounds fun t => t.hear a f :=
  fun w _ ht => State.hear_ok ht a f (h w)

theorem command (h : KeepsBounds f) (src : Source) (seq : Nat) : KeepsBounds fun t => t.command src seq f :=
  fun w _ ht => State.command_ok ht src seq f (h w)

theorem fromConsole (h : KeepsBounds f) (a : Addr) : KeepsBounds fun t => t.fromConsole a f :=
  fun w _ ht => State.fromConsole_ok ht a f (h w)

theorem atConsole (h : KeepsBounds f) : KeepsBounds fun t => t.atConsole f :=
  fun w _ ht => State.atConsole_ok ht f (h w)

theorem withButtons (h : KeepsBounds f) : KeepsBounds fun t => t.withButtons f :=
  fun w _ ht => State.withButtons_ok ht f (h w)

theorem takePress (h : KeepsBounds f) : KeepsBounds fun t => t.takePress f :=
  fun w _ ht => State.takePress_ok ht f (h w)

theorem keys (h : KeepsBounds f) : KeepsBounds fun t => if t.keysTaken then f t else t := h.onlyIf _

/-- A completed sequence begins by leaving the open one (R171). -/
theorem sequence (h : KeepsBounds f) (own : KeySeq → Bool) :
    KeepsBounds fun t => if t.console.keys = .idle ∨ own t.console.keys then f t.endKeys else t := by
  intro w t ht
  show (if t.console.keys = .idle ∨ own t.console.keys = true then f t.endKeys else t).OkWith w
  split
  · exact h w _ (State.endKeys_ok ht)
  · exact ht

/-- A valid card frame begins by closing the receiver's late byte (R126). -/
theorem cardFrame (h : KeepsBounds f) :
    KeepsBounds fun t => if t.card.moduleState = .notFitted then t else f (t.onCard fun c => { c with rxOpen := false }) := by
  intro w t ht
  show (if t.card.moduleState = .notFitted then t else f (t.onCard fun c => { c with rxOpen := false })).OkWith w
  split
  · exact ht
  · exact h w _ (State.onCard_ok ht fun hc => hc)

/-- The receiver's late byte is set or cleared where a module is fitted (R126). -/
theorem lateByte (b : Bool) :
    KeepsBounds fun t => if t.card.moduleState = .notFitted then t else t.onCard fun c => { c with rxOpen := b } := by
  intro w t ht
  show (if t.card.moduleState = .notFitted then t else t.onCard fun c => { c with rxOpen := b }).OkWith w
  split
  · exact ht
  · exact State.onCard_ok ht fun hc => hc

theorem cutPause : KeepsBounds State.cutPause := onLink fun l h => h.setPause none (Or.inr rfl) l.synced

theorem countPulse : KeepsBounds fun t =>
    (t.onPulse fun p => { p with raw := min 4095 (p.raw + 1) }).onHire fun h => { h with
      tally := match h.slot with
        | .hired _ => h.tally + 1
        | _ => h.tally } :=
  fun _ _ ht => State.onHire_ok (State.onPulse_ok ht fun hp => hp.count) fun hh => hh

theorem endTalkTimer : KeepsBounds fun t =>
    match t.intercom.endState with
    | .connected => t.idleEnd
    | .listen => t.idleEnd
    | .idle => t
    | .calling => t
    | .held _ => t := by
  intro w t ht
  dsimp only
  split
  · exact State.idleEnd_ok ht
  · exact State.idleEnd_ok ht
  · exact ht
  · exact ht
  · exact ht

theorem beaconDue : KeepsBounds fun t =>
    if t.silent then t.onPeer fun p => { p with period := startTimer (ms 250) }
    else
      let b := t.composeBeacon
      (t.onPeer fun p => { p with period := startTimer (ms 250), own := some b }).offer .beacon := by
  intro w t ht
  dsimp only
  split
  · exact State.onPeer_ok ht
  · exact State.offer_ok (State.onPeer_ok ht) _

end KeepsBounds

/-! ### How each command is taken -/

/-- This outcome at `s` is that of an operation that keeps the bounds, taken as one event, or leaves the station as it is. -/
def TakenAsEvent (s : State) (o : Host.Outcome State Fault Refusal) : Prop :=
  o = .next s ∨ ∃ f, KeepsBounds f ∧ o = event f s

namespace TakenAsEvent
variable {f : State → State} {s : State}

theorem ofEvent (h : KeepsBounds f) : TakenAsEvent s (event f s) := Or.inr ⟨f, h, rfl⟩

theorem ofFrame (h : KeepsBounds f) {a : Addr} : TakenAsEvent s (frameEvent a f s) := ofEvent (h.hear a)

theorem ofCommand (h : KeepsBounds f) {src : Source} {seq : Nat} : TakenAsEvent s (commandEvent src seq f s) :=
  ofEvent (h.command src seq)

theorem ofKeys (h : KeepsBounds f) : TakenAsEvent s (keyEvent f s) := ofEvent h.keys

theorem ofSequence (h : KeepsBounds f) {own : KeySeq → Bool} : TakenAsEvent s (sequenceEvent own f s) :=
  ofKeys (h.sequence own)

theorem ofCard (h : KeepsBounds f) : TakenAsEvent s (cardEvent f s) := ofEvent h.cardFrame

end TakenAsEvent

open TakenAsEvent in
/-- Every good frame of the cab link is taken as one event. -/
theorem performFrame_taken (i : Instr) (s : State) : TakenAsEvent s (performFrame i s) := by
  unfold performFrame
  split
  next => exact ofCommand fun _ _ ht => State.takeHire_ok ht _ _ _ _
  next => exact ofCommand fun _ _ ht => State.takeStop_ok ht _ _
  next => exact ofCommand fun _ _ ht => State.takeResume_ok ht _ _
  next => exact ofCommand fun _ _ ht => State.takeCancel_ok ht _ _
  next => exact ofCommand fun _ _ ht => State.takeExtra_ok ht _ _ _ _
  next => exact ofCommand fun _ _ ht => State.takeExtraRemove_ok ht _ _
  next => exact ofCommand fun _ _ ht => State.takeUnpaid_ok ht _ _
  next => exact ofCommand fun _ _ ht => State.takeCash_ok ht _ _ _
  next => exact ofCommand fun _ _ ht => State.takeAccount_ok ht _ _ _ _
  next => exact ofCommand fun _ _ ht => State.takeCard_ok ht _ _
  next => exact ofCommand fun _ _ ht => State.takeCardCancel_ok ht _ _
  next => exact ofCommand fun _ _ ht => State.takeConnect_ok ht _ _
  next => exact ofCommand fun _ _ ht => State.replyTo_ok (State.disconnectEnd_ok ht) _ _ _
  next => exact ofCommand fun _ _ ht => State.replyTo_ok (State.listenEnd_ok ht) _ _ _
  next => exact ofCommand fun _ _ ht => State.replyTo_ok (State.listenEndEnd_ok ht) _ _ _
  next => exact ofFrame fun _ _ ht => State.takeClaim_ok ht _ _ _
  next => exact ofFrame fun _ _ ht => State.takeObject_ok ht _
  next sender target seq result =>
    have h : KeepsBounds fun t => t.consoleReply sender seq result := fun _ _ ht => State.consoleReply_ok ht _ _ _
    exact ofFrame (h.onlyIf fun _ => target = 0).atConsole
  next => exact ofFrame fun _ _ ht => State.override_ok ht _ _
  next => exact ofFrame fun _ _ ht => State.override_ok ht _ _
  next => exact ofFrame fun _ _ ht => State.override_ok ht _ _
  next => exact ofFrame (KeepsBounds.onIntercom fun _ h => h.addCall _).atConsole
  next =>
    exact ofFrame (KeepsBounds.atConsole fun _ _ ht =>
      State.endTalkWith_ok (State.dropCaller_ok ht _) _ _)
  next => exact ofFrame (KeepsBounds.atConsole fun _ _ ht => State.talkHeld_ok ht _)
  next => exact ofFrame (KeepsBounds.atConsole fun _ _ ht => State.talkFreed_ok ht _)
  next =>
    exact ofFrame (KeepsBounds.atConsole fun _ _ ht =>
      State.endTalkWith_ok (State.dropCaller_ok (State.showPrivacy_ok ht _ _) _) _ _)
  next => exact ofFrame (KeepsBounds.atConsole fun _ _ ht => State.showPrivacy_ok ht _ _)
  next => exact ofFrame fun _ _ ht => State.takeBeacon_ok ht _ _
  next sender setTime shiftNo =>
    refine ofEvent fun w t ht => ?_
    split
    · exact KeepsBounds.same.hear 0 w t ht
    · exact KeepsBounds.cutPause w t ht
  next => exact ofFrame (KeepsBounds.fromConsole (fun _ _ ht => State.takeShiftOpen_ok ht _ _ _) _)
  next => exact ofFrame (KeepsBounds.fromConsole (fun _ _ ht => State.takeShiftCall_ok ht _) _)
  next => exact ofFrame (KeepsBounds.atConsole fun _ _ ht => State.takeSummary_ok ht _ _)
  next => exact ofFrame (KeepsBounds.atConsole fun _ _ ht => State.takeLatePart_ok ht _ _)
  next => exact ofFrame (KeepsBounds.atConsole fun _ _ ht => State.takeRefuse_ok ht _ _)
  next => exact ofFrame (KeepsBounds.fromConsole (fun _ _ ht => State.takeShiftDone_ok ht _ _ _) _)
  next => exact ofFrame (KeepsBounds.fromConsole (fun _ _ ht => State.takeShiftAbandon_ok ht _) _)
  next sender hireNo target first =>
    have h : KeepsBounds fun t => t.serveRecord hireNo first := fun _ _ ht => State.serveRecord_ok ht _ _
    exact ofFrame ((h.onlyIf fun t => target = t.addr ∧ !t.silent).fromConsole sender)
  next => exact ofFrame (KeepsBounds.atConsole fun _ _ ht => State.takeRecordPart_ok ht _ _ _ _ _)
  next => exact Or.inl rfl

open TakenAsEvent in
/-- Every valid card frame is taken as one event. -/
theorem performCardFrame_taken (i : Instr) (s : State) : TakenAsEvent s (performCardFrame i s) := by
  unfold performCardFrame
  split
  next => exact ofCard fun _ _ ht => State.takeStatus_ok ht _ _
  next => exact ofCard fun _ _ ht => State.takeResult_ok ht _ _ _ _ _ _
  next => exact ofCard fun _ _ ht => State.takeNotFound_ok ht _
  next => exact ofCard fun _ _ ht => State.takeReversed_ok ht _
  next => exact Or.inl rfl

/-- Characters that are no good frame only cut a fairness pause (R76, R80). -/
theorem frameDropped_taken (chars : List Byte) (s : State) : TakenAsEvent s (execFrameDropped chars s) := by
  unfold execFrameDropped
  split
  · exact performFrame_taken _ s
  · exact .ofEvent .cutPause

/-- Bytes that are no valid card frame only close the receiver's late byte (R126). -/
theorem cardFrameDiscarded_taken (bytes : List Byte) (s : State) : TakenAsEvent s (execCardFrameDiscarded bytes s) := by
  unfold execCardFrameDiscarded
  split
  · exact performCardFrame_taken _ s
  · exact .ofEvent (.lateByte _)

open TakenAsEvent KeepsBounds in
/-- Every command but those that a stopped station takes is taken as one event. -/
theorem exec_taken {c : Instr} (hc : c.takenStopped = false) (s : State) : TakenAsEvent s (exec c s) := by
  revert hc
  unfold exec
  split
  next => exact fun _ => performFrame_taken (.hire _ _ _ _) s
  next => exact fun _ => performFrame_taken (.stop _ _) s
  next => exact fun _ => performFrame_taken (.resume _ _) s
  next => exact fun _ => performFrame_taken (.cancel _ _) s
  next => exact fun _ => performFrame_taken (.extra _ _ _ _) s
  next => exact fun _ => performFrame_taken (.extraRemove _ _) s
  next => exact fun _ => performFrame_taken (.unpaid _ _) s
  next => exact fun _ => performFrame_taken (.payCash _ _ _) s
  next => exact fun _ => performFrame_taken (.payAccount _ _ _ _) s
  next => exact fun _ => performFrame_taken (.payCard _ _) s
  next => exact fun _ => performFrame_taken (.cardCancel _ _) s
  next => exact fun _ => performFrame_taken (.connect _ _) s
  next => exact fun _ => performFrame_taken (.disconnect _ _) s
  next => exact fun _ => performFrame_taken (.listen _ _) s
  next => exact fun _ => performFrame_taken (.listenEnd _ _) s
  next sender kind party seq => exact fun _ => performFrame_taken (.claimReceived sender kind party seq) s
  next => exact fun _ => performFrame_taken (.objectReceived _ _) s
  next => exact fun _ => performFrame_taken (.replyReceived _ _ _ _) s
  next sender no kind => exact fun _ => performFrame_taken (.hireStartReceived sender no kind) s
  next sender no due => exact fun _ => performFrame_taken (.hireStopReceived sender no due) s
  next sender no outcome => exact fun _ => performFrame_taken (.hireClosedReceived sender no outcome) s
  next => exact fun _ => performFrame_taken (.callEvent _) s
  next => exact fun _ => performFrame_taken (.callWithdrawEvent _) s
  next => exact fun _ => performFrame_taken (.speakerHeldEvent _) s
  next => exact fun _ => performFrame_taken (.speakerFreeEvent _) s
  next => exact fun _ => performFrame_taken (.privacyOnEvent _) s
  next => exact fun _ => performFrame_taken (.privacyOffEvent _) s
  next => exact fun _ => performFrame_taken (.beaconReceived _ _) s
  next sender setTime shiftNo => exact fun _ => performFrame_taken (.distressFrame sender setTime shiftNo) s
  next => exact fun _ => performFrame_taken (.shiftOpen _ _ _ _) s
  next => exact fun _ => performFrame_taken (.shiftCall _ _) s
  next => exact fun _ => performFrame_taken (.shiftSummary _ _) s
  next => exact fun _ => performFrame_taken (.lateSummaryPart _ _) s
  next sender reason shiftNo => exact fun _ => performFrame_taken (.shiftRefuse sender reason shiftNo) s
  next => exact fun _ => performFrame_taken (.shiftDone _ _ _ _) s
  next => exact fun _ => performFrame_taken (.shiftAbandon _ _) s
  next => exact fun _ => performFrame_taken (.recordQuery _ _ _ _) s
  next => exact fun _ => performFrame_taken (.recordPart _ _ _ _ _) s
  next => exact fun _ => frameDropped_taken _ s
  next => exact fun _ => ofEvent fun w t ht =>
    State.onLink_ok (KeepsBounds.cutPause w t ht) fun hl => hl.setPause none (Or.inr rfl) _
  next => exact fun _ => ofEvent fun _ _ ht => State.hear_ok ht _ _ fun _ hu => hu
  next => exact fun _ => ofEvent (KeepsBounds.onLink fun _ hl => hl.idle)
  next => exact fun _ => ofEvent (KeepsBounds.onLink fun _ hl => hl.attemptEnds)
  next => exact fun _ => ofEvent (KeepsBounds.onLink fun _ hl => hl.attemptEnds)
  next => exact fun _ => ofEvent (KeepsBounds.onLink fun _ hl => hl.endPause)
  next => exact fun _ => ofEvent fun _ _ ht => State.takeSent_ok ht
  next => exact fun _ => ofEvent fun _ _ ht => State.takeSlotEnd_ok ht
  next => exact fun _ => ofEvent (onlyIf (fun _ _ ht => State.takeSlotEnd_ok ht) _)
  next => exact fun _ => ofEvent (onlyIf (fun _ _ ht => State.takeSlotEnd_ok ht) _)
  next => exact fun _ => ofEvent (onlyIf (fun _ _ ht => State.takeSlotEnd_ok ht) _)
  next => exact fun _ => ofEvent countPulse
  next => exact fun _ => ofEvent fun _ _ ht => State.takeWindowEnd_ok ht
  next => exact fun _ => ofEvent fun _ _ ht => State.lateCloseIfDue_ok ht
  next => exact fun _ => ofEvent fun _ _ ht => State.onHire_ok ht fun hh => hh
  next => exact fun _ => ofEvent (onlyIf (fun _ _ ht => State.noAnswer_ok ht _) _)
  next => exact fun _ => ofEvent fun _ _ ht => State.offerDeferred_ok ht _
  next => exact fun _ => ofEvent (onlyIf (fun _ _ ht => State.afterLoss_ok (State.loseRow_ok ht _) _) _)
  next => exact fun _ => ofEvent (onlyIf beaconDue _)
  next => exact fun _ => ofEvent fun _ _ ht => State.repeatDue_ok ht
  next => exact fun _ => ofEvent fun _ _ ht => State.takeSignReply_ok ht _ _ _
  next => exact fun _ => ofEvent fun _ _ ht => State.signTimeout_ok ht
  next => exact fun _ => ofEvent (onlyIf (fun _ _ ht => State.signTimeout_ok ht) _)
  next => exact fun _ => ofEvent fun _ _ ht => State.endTest_ok ht
  next => exact fun h => nomatch h
  next => exact fun h => nomatch h
  next => exact fun _ => ofEvent (onlyIf (fun _ _ ht => State.setLatch_ok ht) _)
  next => exact fun _ => ofEvent (onlyIf (fun _ _ ht => State.startHold_ok (State.onDistress_ok ht)) _)
  next => exact fun _ => ofEvent (onlyIf (fun _ _ ht => State.sendDistress_ok ht) _)
  next => exact fun _ => ofEvent (takePress (fun _ _ ht => State.shortPress_ok ht))
  next => exact fun _ => ofEvent (takePress (fun _ _ ht => State.longPressed_ok ht))
  next => exact fun _ => ofEvent (onlyIf (fun _ _ ht => State.idleEnd_ok ht) _)
  next => exact fun _ => ofEvent fun _ _ ht => State.dropCaller_ok ht _
  next => exact fun _ => ofSequence fun _ _ ht => State.takeTalk_ok ht
  next => exact fun _ => ofEvent (onlyIf (fun _ _ ht => State.endTalk_ok ht _) _)
  next => exact fun _ => ofEvent endTalkTimer
  next => exact fun _ => ofSequence fun _ _ ht => State.takeAnnounce_ok ht
  next => exact fun _ => ofEvent (atConsole (fun _ _ ht => State.endAnnounce_ok ht))
  next => exact fun _ => ofEvent (onlyIf (fun _ _ ht => State.endAnnounce_ok ht) _)
  next => exact fun _ => ofEvent (onlyIf (fun _ _ ht => State.sayEvent_ok (State.onIntercom_ok ht fun hi => hi) _) _)
  next => exact fun _ => ofEvent (onlyIf (fun _ _ ht => State.releasePrompt_ok ht) _)
  next => exact fun _ => ofEvent (withButtons (fun _ _ ht => State.pressUp_ok ht))
  next => exact fun _ => ofEvent (withButtons (fun _ _ ht => State.pressDown_ok ht))
  next => exact fun _ => ofEvent (withButtons (fun _ _ ht => State.pressOk_ok ht))
  next => exact fun _ => ofEvent fun _ _ ht => State.tipExpires_ok ht
  next => exact fun _ => ofEvent fun _ _ ht => State.sendPay_ok ht
  next => exact fun _ => ofEvent fun _ _ ht => State.sendCancel_ok ht
  next => exact fun _ => ofEvent fun _ _ ht => State.takeTick_ok ht
  next => exact fun _ => ofEvent fun _ _ ht => State.requestSent_ok ht
  next => exact fun _ => ofEvent fun _ _ ht => State.takeMiss_ok ht
  next => exact fun _ => ofEvent (onlyIf (fun _ _ ht => State.takeMiss_ok ht) _)
  next => exact fun _ => ofEvent (onlyIf (fun _ _ ht => State.takeMiss_ok ht) _)
  next => exact fun _ => ofEvent (onlyIf (fun _ _ ht => State.requestCancel_ok (State.onPay_ok ht fun hp => hp)) _)
  next => exact fun _ => performCardFrame_taken (.status _ _) s
  next => exact fun _ => performCardFrame_taken (.result _ _ _ _ _ _) s
  next => exact fun _ => performCardFrame_taken (.notFound _) s
  next => exact fun _ => performCardFrame_taken (.reversed _) s
  next => exact fun _ => cardFrameDiscarded_taken _ s
  next => exact fun _ => ofEvent (KeepsBounds.lateByte _)
  next => exact fun _ => ofSequence fun _ _ ht => State.selectDigit_ok ht _
  next => exact fun _ => ofKeys fun _ _ ht => State.pressKey_ok ht _
  next => exact fun _ => ofKeys fun _ _ ht => State.takeClear_ok ht
  next => exact fun _ => ofEvent (onlyIf (fun _ _ ht => State.onConsole_ok ht fun hc => hc) _)
  next => exact fun _ => ofSequence (onlyIf (fun _ _ ht => State.formSelected_ok ht _) _)
  next => exact fun _ => ofSequence fun _ _ ht => State.takeClose_ok ht
  next => exact fun _ => ofSequence fun _ _ ht => State.takeOpenKeyed_ok ht _
  next => exact fun _ => ofSequence fun _ _ ht => State.takeClockSetting_ok ht _ _ _ _ _
  next => exact fun _ => ofSequence fun _ _ ht => State.takeLampTest_ok ht
  next => exact fun _ => ofSequence fun _ _ ht => State.takeServicePage_ok ht
  next => exact fun _ => ofSequence fun _ _ ht => State.takeLastReport_ok ht
  next => exact fun _ => ofSequence fun _ _ ht => State.takeForcedClose_ok ht
  next => exact fun _ => ofSequence fun _ _ ht => State.clearLatch_ok ht _
  next => exact fun _ => ofSequence fun _ _ ht => State.takePrint_ok ht _
  next => exact fun _ => ofEvent fun _ _ ht => State.collectEnds_ok ht
  next => exact fun _ => ofEvent (onlyIf (fun _ _ ht => State.leaveClosing_ok ht) _)
  next => exact fun _ => ofEvent (atConsole (fun _ _ ht => State.activateJob_ok ht))
  next => exact fun _ => ofEvent (atConsole (fun _ _ ht => State.build_ok ht))
  next => exact fun _ => ofEvent fun _ _ ht => State.partLimit_ok ht
  next => exact fun _ => ofEvent (onlyIf (fun _ _ ht => State.onPrint_ok ht fun hp => hp) _)
  next => exact fun _ => ofEvent (atConsole (fun _ _ ht => State.printerTakes_ok ht))
  next => exact fun h => nomatch h
  next => exact fun h => nomatch h
  next => exact fun _ => ofEvent (onlyIf (fun _ _ ht => State.hireChanged_ok ht) _)
  next => exact fun _ => ofEvent fun _ _ ht => State.onDisplay_ok ht
  next => exact fun _ => ofEvent (onlyIf (fun _ _ ht => State.enterLow_ok ht) _)
  next => exact fun _ => ofEvent (onlyIf (fun _ _ ht => State.enterNormal_ok ht) _)
  next => exact fun h => nomatch h
  next => exact fun h => nomatch h
  next => exact fun h => nomatch h
  next => exact fun h => nomatch h
  next => exact fun h => nomatch h
  next => exact fun _ => ofEvent (withButtons fun _ _ ht => State.onIntercom_ok ht fun hi => hi)
  next => exact fun h => nomatch h
  next => exact fun h => nomatch h

/-! ### A command ends in a next state within the bounds -/

/-- The outcome is a next state within the bounds, with these commands waiting and with nothing to offer where `s` had nothing. -/
def EndsWhole (w : List Instr) (s : State) (o : Host.Outcome State Fault Refusal) : Prop :=
  ∃ t, o = .next t ∧ t.OkWith w ∧ (s.offers = [] → t.offers = [])

theorem EndsWhole.ofNext {w : List Instr} {s t : State} (ht : t.OkWith w) (h : s.offers = [] → t.offers = []) :
    EndsWhole w s (.next t) := ⟨t, rfl, ht, h⟩

/-- A state with the same offers may stand for the one the command begins in. -/
theorem EndsWhole.ofOffers {w : List Instr} {s u : State} {o : Host.Outcome State Fault Refusal} (h : EndsWhole w u o)
    (hu : u.offers = s.offers) : EndsWhole w s o := by
  obtain ⟨t, ht, hk, hn⟩ := h
  exact ⟨t, ht, hk, fun hs => hn (hu.trans hs)⟩

theorem KeepsBounds.event_endsWhole {f : State → State} (hf : KeepsBounds f) {w : List Instr} {s : State}
    (hk : s.OkWith w) : EndsWhole w s (event f s) := by
  cases hr : s.supply.running with
  | true =>
    rw [event_next hr]
    exact .ofNext (State.settleEvent_ok (hf w s hk)) fun _ => State.settleEvent_offers _
  | false =>
    rw [event_stopped hr]
    exact .ofNext hk id

theorem TakenAsEvent.endsWhole {s : State} {o : Host.Outcome State Fault Refusal} (h : TakenAsEvent s o)
    {w : List Instr} (hk : s.OkWith w) : EndsWhole w s o := by
  obtain rfl | ⟨f, hf, rfl⟩ := h
  · exact .ofNext hk id
  · exact hf.event_endsWhole hk

theorem State.startCut_offers {s : State} (h : s.offers = []) (pins : StrapPins) (image : Option (List Byte)) (c : StopCause)
    (short : Bool) : (s.startCut pins image c short).offers = [] := by
  have hr : ((s.readStart pins image).restoreCut short).offers = [] := by
    unfold State.restoreCut
    split <;> rfl
  unfold State.startCut
  split
  · exact h
  · exact hr
  · exact hr

/-- A start, cut or whole, keeps the bounds (R193 to R195). -/
theorem execStart_endsWhole {w : List Instr} {s : State} (hk : s.OkWith w) (pins : StrapPins) (image : Option (List Byte))
    (reach : StartEnd) : EndsWhole w s (execStart pins image reach s) := by
  unfold execStart
  split
  · cases reach with
    | complete => exact .ofNext (State.startWhole_ok hk pins image) fun _ => State.settleEvent_offers _
    | cutEarly c => exact .ofNext (State.onSupply_ok hk) id
    | cutInDomain c short =>
      exact .ofNext (State.startCut_ok hk pins image c short) fun h => State.startCut_offers h pins image c short
  · exact .ofNext hk id

section
variable {w : List Instr} {s : State} (hk : s.OkWith w)
include hk

theorem execResetAsserted_endsWhole : EndsWhole w s (execResetAsserted s) := by
  unfold execResetAsserted
  dsimp only
  split
  · exact .ofNext (State.halt_ok (State.onSupply_ok hk) _ _) id
  · exact .ofNext (State.onSupply_ok hk) id

theorem execResetReleased_endsWhole : EndsWhole w s (execResetReleased s) := .ofNext (State.onSupply_ok hk) id

theorem execBackupLoss_endsWhole : EndsWhole w s (execBackupLoss s) := by
  unfold execBackupLoss
  split
  · exact .ofNext hk id
  · exact .ofNext (State.onSupply_ok hk) id

theorem execSupplyFail_endsWhole (cut : Bool) : EndsWhole w s (execSupplyFail cut s) := by
  unfold execSupplyFail
  split
  · split
    · exact .ofNext (State.halt_ok hk _ _) id
    · exact .ofNext (State.onSupply_ok hk) id
  · exact .ofNext hk id

theorem execSupplyLevelChange_endsWhole (mv : Nat) : EndsWhole w s (execSupplyLevelChange mv s) :=
  (KeepsBounds.same.event_endsWhole (State.onSupply_ok hk)).ofOffers rfl

theorem execClockSecond_endsWhole : EndsWhole w s (execClockSecond s) := .ofNext (State.onClock_ok hk) id

theorem execPaperOut_endsWhole : EndsWhole w s (execPaperOut s) :=
  (KeepsBounds.same.event_endsWhole (State.onPrint_ok hk fun hp => hp)).ofOffers rfl

theorem execPaperReturn_endsWhole : EndsWhole w s (execPaperReturn s) :=
  (KeepsBounds.event_endsWhole (fun _ _ ht => State.onPrint_ok ht fun hp => hp)
    (State.onPrint_ok hk fun hp => hp)).ofOffers rfl

theorem execDistressInputActive_endsWhole : EndsWhole w s (execDistressInputActive s) := by
  have hf : KeepsBounds fun t => if s.distress.active then t else t.startHold := by
    intro w t ht
    dsimp only
    split
    · exact ht
    · exact State.startHold_ok ht
  exact (hf.event_endsWhole (State.onDistress_ok hk)).ofOffers rfl

theorem execDistressInputInactive_endsWhole : EndsWhole w s (execDistressInputInactive s) :=
  (KeepsBounds.event_endsWhole (fun _ _ ht => State.onDistress_ok ht) (State.onDistress_ok hk)).ofOffers rfl

/-- The commands that a stopped station takes keep the bounds as well. -/
theorem exec_takenStopped {c : Instr} (hc : c.takenStopped = true) : EndsWhole w s (exec c s) := by
  unfold Instr.takenStopped at hc
  split at hc
  next => exact execStart_endsWhole hk _ _ _
  next => exact execResetAsserted_endsWhole hk
  next => exact execResetReleased_endsWhole hk
  next => exact execBackupLoss_endsWhole hk
  next => exact execSupplyFail_endsWhole hk _
  next => exact execSupplyLevelChange_endsWhole hk _
  next => exact execClockSecond_endsWhole hk
  next => exact execPaperOut_endsWhole hk
  next => exact execPaperReturn_endsWhole hk
  next => exact execDistressInputActive_endsWhole hk
  next => exact execDistressInputInactive_endsWhole hk
  next => cases hc

end

/-- Every command ends in a next state within the bounds, and leaves the queue of commands alone. -/
theorem exec_endsWhole (c : Instr) {w : List Instr} {s : State} (hk : s.OkWith w) : EndsWhole w s (exec c s) := by
  cases hc : c.takenStopped with
  | false => exact (exec_taken hc s).endsWhole hk
  | true => exact exec_takenStopped hk hc

/-! ### Steps -/

/-- Which commands wait, and how many free values were drawn, no bound reads. -/
theorem State.Ok.setPending {s : State} (h : s.Ok) (w : List Instr) (n : Nat) :
    ({ s with pending := w, free := n } : State).OkWith w :=
  ⟨⟨h.image, h.hire, h.link, h.pulse, h.sign, h.intercom, h.card, h.pay, h.console, h.print⟩, rfl⟩

theorem State.idle_keeps_ok {s : State} (h : s.Ok) : s.idle.Ok := by
  unfold State.idle
  split
  · exact (State.tick_ok ⟨h, rfl⟩).1
  · exact (h.setPending _ s.free).1
  · exact (h.setPending _ _).1

/-- Settles O1. -/
theorem stepRunsTheFrontCommand : Obligations.StepRunsTheFrontCommand := by
  intro c rest s h
  unfold step
  rw [h]

/-- Settles O4: time passing keeps the bounds, and so does every command. -/
theorem everyStepKeepsTheBounds : Obligations.EveryStepKeepsTheBounds := by
  intro s t hs ht
  unfold step at ht
  split at ht
  · cases ht
    exact State.idle_keeps_ok hs
  · next c rest _ =>
    obtain ⟨t', ht', hk, -⟩ := exec_endsWhole c (hs.setPending rest s.free)
    cases ht.symm.trans ht'
    exact hk.1

/-- Settles O3. -/
theorem commandsAreTakenWholeByARunningStation : Obligations.CommandsAreTakenWholeByARunningStation := by
  refine ⟨fun c s hs => ?_, fun c s hr hc => ?_⟩
  · obtain ⟨t, ht, hk, ho⟩ := exec_endsWhole c (s := s) ⟨hs, rfl⟩
    exact ⟨t, ht, hk.2, ho⟩
  · obtain h | ⟨f, -, h⟩ := exec_taken hc s
    · exact h
    · exact h.trans (event_stopped hr)

theorem State.reset_ok : State.reset.Ok where
  image := fun _ h => nomatch h
  hire := ⟨trivial, Nat.zero_le _, fun _ h => absurd h List.not_mem_nil, Nat.le_refl 1, by decide⟩
  link := Link.cold_ok
  pulse := Pulse.cold_ok
  sign := Sign.cold_ok
  intercom := ⟨by decide, Nat.zero_le _, List.nodup_nil, List.nil_sublist _⟩
  card := ⟨Nat.le_refl 1, by decide⟩
  pay := ⟨Nat.zero_le _, fun h => Bool.noConfusion h⟩
  console := Console.cold_ok
  print := ⟨Nat.zero_le _, by decide⟩

/-- Settles O5: the bounds block by block; each item of the list is the cold value of its block. -/
theorem resetStandsWithinTheBoundsAtItsValues : Obligations.ResetStandsWithinTheBoundsAtItsValues := by
  refine ⟨State.reset_ok, ?_⟩
  repeat' constructor

end Sys2Proof.Machine
end

section
/-! PROOFS. The commands of a hire: HIRE, STOP, RESUME, CANCEL, UNPAID, and Table 1-3 (O9, O15, O16, O18). -/
namespace Sys2Proof.Machine
open Sys2Proof

/-! ### What `State.Kept` leaves open, block by block -/

/-- `b` is `a` but for what waits for its frame: the reply, the event, the objections and the claim. -/
structure HireCtl.Agrees (a b : HireCtl) : Prop where
  slot    : b.slot = a.slot
  log     : b.log = a.log
  nextNo  : b.nextNo = a.nextNo
  resume  : b.resume = a.resume
  tally   : b.tally = a.tally
  speed   : b.speed = a.speed
  claimId : b.claimId = a.claimId

theorem State.Kept.onHire {s t : State} (h : s.Kept t) {f g : HireCtl → HireCtl} (hfg : (f s.hire).Agrees (g t.hire)) :
    (s.onHire f).Kept (t.onHire g) :=
  { h with
    slot := hfg.slot, log := hfg.log, resume := hfg.resume, tally := hfg.tally, speed := hfg.speed, claimId := hfg.claimId
    shift := fun hp => by
      obtain ⟨h1, h2, h3, h4, h5, h6, h7, h8, h9, h10, h11, -⟩ := h.shift hp
      exact ⟨h1, h2, h3, h4, h5, h6, h7, h8, h9, h10, h11, hfg.nextNo⟩ }

/-- The next change of the hire ends what the passenger display shows (R178), whatever waits for its frame. -/
theorem State.Kept.hireChanged {s t : State} (h : s.Kept t) : s.hireChanged.Kept t.hireChanged :=
  { h with display := congrArg Display.cleared h.display }

/-- Changing the hire block to one value after a command is taken agrees with changing it before. -/
theorem State.took_onHire_kept (s : State) (src : Source) (seq : Nat) (f : HireCtl → HireCtl) :
    (s.onHire f).Kept ((s.took src seq).onHire f) :=
  (s.took_kept src seq).onHire (by rw [State.took_hire]; exact ⟨rfl, rfl, rfl, rfl, rfl, rfl, rfl⟩)

theorem State.sayHireEvent_console (s : State) (e : HireEvent) : (s.sayHireEvent e).console = s.console := by
  unfold State.sayHireEvent
  split <;> rfl

theorem State.sayHireEvent_silent (s : State) (e : HireEvent) : (s.sayHireEvent e).silent = s.silent := by
  unfold State.sayHireEvent
  split <;> rfl

/-! ### How an event with a reply ends -/

section
variable {s e v : State} {src : Source} {seq : Nat} {r : Reply} {f : State → State}

/-- An event whose operation ends in a reply keeps what `v` has of `e`, and the reply stands (R6). -/
theorem event_replied (hr : s.supply.running = true) (hf : f s = v.replyTo src seq r) (hk : e.Kept v)
    (hc : s.StillPending v seq) (hv : v.silent = s.silent) :
    ∃ t, event f s = .next t ∧ e.Kept t ∧ s.Replied t src seq r := by
  refine ⟨_, event_next hr, ?_, ?_⟩
  · rw [hf]
    exact (hk.trans (State.replyTo_kept v _ _ _)).trans (State.settleEvent_kept _)
  · rw [hf]
    exact State.replied hc hv r

/-- An event whose operation says a hire event and ends in a reply: both stand after it (R6, R22). -/
theorem event_told (hr : s.supply.running = true) {ev : HireEvent} (hf : f s = (v.sayHireEvent ev).replyTo src seq r)
    (hk : e.Kept v) (hc : s.StillPending v seq) (hv : v.silent = s.silent) :
    ∃ t, event f s = .next t ∧ e.Kept t ∧ s.Announced t ev ∧ s.Replied t src seq r := by
  have hc' : s.StillPending (v.sayHireEvent ev) seq := by
    unfold State.StillPending
    rw [State.sayHireEvent_console]
    exact hc
  obtain ⟨t, ht, hkt, hrt⟩ := event_replied hr hf (hk.trans (State.sayHireEvent_kept v ev)) hc'
    ((v.sayHireEvent_silent ev).trans hv)
  refine ⟨t, ht, hkt, ?_, hrt⟩
  cases (event_next hr).symm.trans ht
  rw [hf]
  exact State.announced hv ev src seq r

/-- A heard command that is refused changes nothing but the reply (R5, R6). -/
theorem commandEvent_refused (hr : s.supply.running = true) (hs : s.Hears src) {reason : Reason}
    (hf : f (s.took src seq) = (s.took src seq).refuse src seq reason) :
    ∃ t, commandEvent src seq f s = .next t ∧ s.Kept t ∧ s.Replied t src seq (.refused reason) :=
  event_replied hr ((State.command_heard hs f).trans hf) (s.took_kept src seq) (State.took_pending rfl)
    (s.took_silent src seq)

/-- A heard command that says a hire event and is answered: both stand after it. -/
theorem commandEvent_told (hr : s.supply.running = true) (hs : s.Hears src) {ev : HireEvent}
    (hf : f (s.took src seq) = (v.sayHireEvent ev).replyTo src seq r) (hk : e.Kept v)
    (hc : v.console.cmds = (s.took src seq).console.cmds) (hv : v.silent = s.silent) :
    ∃ t, commandEvent src seq f s = .next t ∧ e.Kept t ∧ s.Announced t ev ∧ s.Replied t src seq r :=
  event_told hr ((State.command_heard hs f).trans hf) hk (State.took_pending hc) hv

end

/-! ### HIRE (R7, R8) -/

theorem Slot.isFree_iff (sl : Slot) : sl.isFree = true ↔ sl = .free := by cases sl <;> simp [Slot.isFree]

/-- The checks of R7 in the order of the rule, each with the reason of its failure. -/
def State.hireChecks (s : State) (kind : Kind) (party : Nat) : List (Bool × Reason) :=
  [ (s.shift.state == .offShift, .offShift), (s.shift.state == .closing, .closing),
    (s.image.isNone, .noTariff), (!s.identityOk, .tariffMismatch), (!s.clock.isSet, .clockUnset),
    (s.straps.capacity == 0, .noCapacity), (decide (party < 1 ∨ s.straps.capacity < party), .partyRange),
    (s.hire.slot != .free, .wrongState), (s.silent, .linkSilent),
    (s.peers.any fun p => p.present && p.hireState != .free && (kind == .exclusive || p.kind == .exclusive),
      .vehicleEngaged) ]

/-- The reason that the first true check of a list gives. -/
theorem firstReason_cons (b : Bool) (r : Reason) (cs : List (Bool × Reason)) :
    (((b, r) :: cs).find? fun c => c.1).map (fun c => c.2) =
      if b = true then some r else (cs.find? fun c => c.1).map (fun c => c.2) := by
  cases b <;> rfl

theorem State.hireRefusal_eq_first (s : State) (kind : Kind) (party : Nat) :
    s.hireRefusal kind party = ((s.hireChecks kind party).find? fun c => c.1).map (fun c => c.2) := by
  have hslot : (s.hire.slot != .free) = !s.hire.slot.isFree := by
    rw [Bool.eq_iff_iff]
    simp [← Slot.isFree_iff]
  have hlock : (s.peers.any fun p => p.present && p.hireState != .free && (kind == .exclusive || p.kind == .exclusive))
      = s.interlocked kind := rfl
  unfold State.hireRefusal State.hireChecks
  simp only [firstReason_cons, hslot, hlock, beq_iff_eq, decide_eq_true_eq, List.find?_nil, Option.map_none]

theorem State.hireRefusal_took (s : State) (src : Source) (seq : Nat) (kind : Kind) (party : Nat) :
    (s.took src seq).hireRefusal kind party = s.hireRefusal kind party := by
  cases src <;> rfl

/-- The claim that a HIRE opens (R8). -/
def State.newClaim (s : State) (kind : Kind) (party seq : Nat) (src : Source) : Claim :=
  { kind := kind, party := party, seq := seq, src := src, id := s.hire.claimId, sent := false, window := none }

/-- The hire controller with a claim opened and its CLAIM held (R8). -/
def HireCtl.openClaim (h : HireCtl) (c : Claim) : HireCtl :=
  { h with slot := .claiming c, claimHeld := true, claimId := h.claimId + 1 }

theorem State.openClaim_eq (s : State) (kind : Kind) (party seq : Nat) (src : Source) :
    s.openClaim kind party seq src = (s.onHire fun h => h.openClaim (s.newClaim kind party seq src)).offer .claim := rfl

theorem State.newClaim_took (s : State) (src : Source) (seq : Nat) (kind : Kind) (party : Nat) :
    (s.took src seq).newClaim kind party seq src = s.newClaim kind party seq src := by
  cases src <;> rfl

theorem State.took_lastReply (s : State) (src : Source) (seq : Nat) :
    (s.took src seq).console.lastReply = s.console.lastReply := by
  cases src <;> rfl

/-- Settles O9. -/
theorem hireOpensAClaimOrIsRefused : Obligations.HireOpensAClaimOrIsRefused := by
  refine ⟨fun src seq kind party s hr hs hon him hid hck hcap hlo hhi hfree hsil hlock => ?_,
    fun src seq kind party s r hr hs hfirst => ?_⟩
  · have hnone : (s.took src seq).hireRefusal kind party = none := by
      rw [State.hireRefusal_took]
      have hparty : ¬ (party < 1 ∨ s.straps.capacity < party) := by omega
      unfold State.hireRefusal
      rw [if_neg hparty]
      simp [hon, him, hid, hck, hcap, hfree, hsil, hlock, Slot.isFree]
    have htake : (s.took src seq).takeHire src seq kind party =
        ((s.took src seq).onHire fun h => h.openClaim (s.newClaim kind party seq src)).offer .claim := by
      unfold State.takeHire
      rw [hnone, ← State.newClaim_took, ← State.openClaim_eq]
    refine ⟨_, commandEvent_next hr hs, ?_, ?_, ?_⟩
    · rw [htake]
      refine .trans ?_ ((State.offer_kept _ _).trans (State.settleEvent_kept _))
      refine .trans ?_ (s.took_onHire_kept src seq fun h => h.openClaim (s.newClaim kind party seq src))
      exact (State.Kept.refl s).onHire (f := fun h => { h.openClaim (s.newClaim kind party seq src) with
        claimHeld := h.claimHeld }) ⟨rfl, rfl, rfl, rfl, rfl, rfl, rfl⟩
    · rw [htake]
      exact (State.settleEvent_claim (c := s.newClaim kind party seq src) (Or.inl ⟨rfl, rfl⟩)).imp_left And.right
    · rw [htake, State.settleEvent_lastReply]
      exact State.took_lastReply s src seq
  · have hrefuse : s.hireRefusal kind party = some r := (s.hireRefusal_eq_first kind party).trans hfirst
    refine commandEvent_refused hr hs ?_
    unfold State.takeHire
    rw [State.hireRefusal_took, hrefuse]

/-! ### STOP and RESUME (R15, R16) -/

/-- A hire as STOP leaves it (R15, R39). -/
def Hire.stoppedAt (h : Hire) (seconds : Nat) : Hire :=
  { h with rc := { h.rc.fixDue h.snap.band.fmin with stop := some seconds } }

/-- The hire controller with its slot in this state and this resume window, its slot tally discarded (R15, R16, R28). -/
def HireCtl.turnTo (c : HireCtl) (slot : Slot) (resume : Timer) : HireCtl :=
  { c with slot := slot, resume := resume, tally := 0 }

theorem State.takeStop_hired {s : State} {h : Hire} (hslot : s.hire.slot = .hired h) (src : Source) (seq : Nat) :
    s.takeStop src seq =
      (((s.onHire fun c => c.turnTo (.stopped (h.stoppedAt s.clock.seconds)) (some (sec 60))).hireChanged).sayHireEvent
        (.stop h.rc.no ((h.stoppedAt s.clock.seconds).rc.due.getD 0))).replyTo src seq .done := by
  unfold State.takeStop
  rw [hslot]
  rfl

theorem State.takeStop_other {s : State} (hslot : ∀ h, s.hire.slot ≠ .hired h) (src : Source) (seq : Nat) :
    s.takeStop src seq = s.refuse src seq .wrongState := by
  unfold State.takeStop
  split
  · exact absurd ‹_› (hslot _)
  all_goals rfl

theorem State.takeResume_open {s : State} {h : Hire} (hslot : s.hire.slot = .stopped h) (hopen : s.hire.resume ≠ none)
    (src : Source) (seq : Nat) :
    s.takeResume src seq =
      (((s.onHire fun c => c.turnTo (.hired { h with rc := h.rc.unfixDue }) none).hireChanged).sayHireEvent
        (.start h.rc.no h.rc.kind)).replyTo src seq .done := by
  unfold State.takeResume
  rw [hslot]
  exact if_neg (by simpa using hopen)

theorem State.takeResume_closed {s : State} {h : Hire} (hslot : s.hire.slot = .stopped h) (hclosed : s.hire.resume = none)
    (src : Source) (seq : Nat) : s.takeResume src seq = s.refuse src seq .resumeTooLate := by
  unfold State.takeResume
  rw [hslot, hclosed]
  rfl

theorem State.takeResume_other {s : State} (hslot : ∀ h, s.hire.slot ≠ .stopped h) (src : Source) (seq : Nat) :
    s.takeResume src seq = s.refuse src seq .wrongState := by
  unfold State.takeResume
  split
  · exact absurd ‹_› (hslot _)
  all_goals rfl

/-- Settles O15. -/
theorem stopFixesTheDueAndResumeRunsOn : Obligations.StopFixesTheDueAndResumeRunsOn := by
  refine ⟨fun src seq h s hr hs hslot => ?_, fun src seq h s hr hs hslot => ⟨fun hopen => ?_, fun hclosed => ?_⟩,
    fun s hr => ?_⟩
  · have hf := State.takeStop_hired (s := s.took src seq) (by rw [State.took_hire]; exact hslot) src seq
    rw [State.took_clock] at hf
    obtain ⟨t, ht, hk, ha, hrep⟩ := commandEvent_told (f := fun u => u.takeStop src seq) hr hs hf
      (s.took_onHire_kept src seq _).hireChanged rfl (s.took_silent src seq)
    exact ⟨t, _, ht, rfl, hk, ha, hrep⟩
  · have hf := State.takeResume_open (s := s.took src seq) (by rw [State.took_hire]; exact hslot)
      (by rw [State.took_hire]; exact hopen) src seq
    obtain ⟨t, ht, hk, ha, hrep⟩ := commandEvent_told (f := fun u => u.takeResume src seq) hr hs hf
      (s.took_onHire_kept src seq _).hireChanged rfl (s.took_silent src seq)
    exact ⟨t, ht, hk, ha, hrep⟩
  · exact commandEvent_refused (f := fun u => u.takeResume src seq) hr hs
      (State.takeResume_closed (by rw [State.took_hire]; exact hslot) (by rw [State.took_hire]; exact hclosed) src seq)
  · exact event_kept (f := fun u => u.onHire fun h => { h with resume := none }) hr (.refl _)

/-! ### CANCEL and UNPAID (R17, R20, R21) -/

theorem State.account_eq (s : State) (f : Accum → Accum) : s.account f = { s with shift := s.shift.added f } := by
  unfold State.account Shift.added
  split <;> rfl

/-- An addition to the accumulators touches nothing else of the shift, and goes by its state (R154). -/
theorem Shift.added_fields (sh : Shift) (f : Accum → Accum) :
    sh.added f = { sh with acc := if sh.state = .offShift then sh.acc else f sh.acc } := by
  unfold Shift.added
  split <;> rfl

/-- The station with a hire closed, before it is told (R21). -/
def State.withHireClosed (s : State) (h : Hire) (o : HireOutcome) : State :=
  ((s.onHire fun c => { c with log := appendCapped 32 c.log (h.closed o s.clock.seconds) }).account
    fun a => a.addHire (h.closed o s.clock.seconds) o).freeSlot

theorem State.closeHire_eq (s : State) (h : Hire) (o : HireOutcome) :
    s.closeHire h o = (s.withHireClosed h o).sayHireEvent (.closed h.rc.no o) := rfl

theorem State.withHireClosed_other (s : State) (h : Hire) (o : HireOutcome) :
    (s.withHireClosed h o).console = s.console ∧ (s.withHireClosed h o).silent = s.silent := by
  unfold State.withHireClosed
  rw [State.account_eq]
  exact ⟨rfl, rfl⟩

/-- The close of a hire leaves the station as the rules say (R21), also where something has waited for its frame. -/
theorem State.Kept.hireClosed {s t : State} (hk : s.Kept t) (h : Hire) (o : HireOutcome) :
    (s.hireClosed h o).Kept (t.withHireClosed h o) := by
  unfold State.withHireClosed State.hireClosed
  rw [State.account_eq, Shift.added_fields, Shift.added_fields]
  exact
    { hk with
      slot := rfl
      resume := rfl
      log := by
        show appendCapped 32 t.hire.log (h.closed o t.clock.seconds) = _
        rw [hk.log, hk.clock]
        rfl
      shift := fun hp => by
        obtain ⟨hst, h2, h3, h4, hacc, h6, h7, h8, h9, h10, h11, h12⟩ := hk.shift hp
        refine ⟨hst, h2, h3, h4, ?_, h6, h7, h8, h9, h10, h11, h12⟩
        show (if t.shift.state = .offShift then t.shift.acc else t.shift.acc.addHire (h.closed o t.clock.seconds) o) = _
        rw [hst, hacc, hk.clock] }

/-- A command that closes the hire: the close of R21, the event HIRE_CLOSED, and the reply DONE. -/
theorem commandEvent_closes {s : State} {src : Source} {seq : Nat} {f : State → State} {h : Hire} {o : HireOutcome}
    (hr : s.supply.running = true) (hs : s.Hears src)
    (hf : f (s.took src seq) = ((s.took src seq).closeHire h o).replyTo src seq .done) :
    ∃ t, commandEvent src seq f s = .next t ∧ (s.hireClosed h o).Kept t
      ∧ s.Announced t (.closed h.rc.no o) ∧ s.Replied t src seq .done := by
  rw [State.closeHire_eq] at hf
  obtain ⟨hcon, hsil⟩ := (s.took src seq).withHireClosed_other h o
  exact commandEvent_told hr hs hf ((s.took_kept src seq).hireClosed h o) (congrArg Console.cmds hcon)
    (hsil.trans (s.took_silent src seq))

theorem Hire.inGrace_iff (h : Hire) :
    h.inGrace = true ↔ h.rc.hiredTenths < 600 ∧ h.rc.paidPulses * 1000 < 200 * h.snap.k := by
  simp [Hire.inGrace]

theorem State.takeCancel_hired {s : State} {h : Hire} (hslot : s.hire.slot = .hired h) (src : Source) (seq : Nat) :
    s.takeCancel src seq =
      if h.inGrace then (s.closeHire h .cancelled).replyTo src seq .done else s.refuse src seq .cancelTooLate := by
  unfold State.takeCancel
  rw [hslot]

theorem State.takeCancel_other {s : State} (hslot : ∀ h, s.hire.slot ≠ .hired h) (src : Source) (seq : Nat) :
    s.takeCancel src seq = s.refuse src seq .wrongState := by
  unfold State.takeCancel
  split
  · exact absurd ‹_› (hslot _)
  all_goals rfl

theorem State.takeUnpaid_due {s : State} {h : Hire} (hslot : s.hire.slot = .stopped h ∨ s.hire.slot = .paying h)
    (src : Source) (seq : Nat) : s.takeUnpaid src seq = s.closeUnpaid h src seq := by
  unfold State.takeUnpaid
  rcases hslot with hslot | hslot <;> rw [hslot]

theorem State.takeUnpaid_other {s : State} (hslot : ∀ h, s.hire.slot ≠ .stopped h ∧ s.hire.slot ≠ .paying h)
    (src : Source) (seq : Nat) : s.takeUnpaid src seq = s.refuse src seq .wrongState := by
  unfold State.takeUnpaid
  split
  · exact absurd ‹_› (hslot _).1
  · exact absurd ‹_› (hslot _).2
  all_goals rfl

theorem Session.active_iff (x : Session) : x.active = true ↔ x ≠ .none := by cases x <;> simp [Session.active]

/-- The record that UNPAID leaves, with its due and its lowered tip written out (R20). -/
theorem HireRecord.leaveUnpaid_due {r : HireRecord} {due : Nat} (hdue : r.due = some due) :
    r.leaveUnpaid = { r with
      tip := r.tip.map fun x => min x (r.appliedSum - due)
      unpaid := some (due + (r.tip.map fun x => min x (r.appliedSum - due)).getD 0 - r.appliedSum) } := by
  unfold HireRecord.leaveUnpaid
  rw [hdue]
  rfl

/-- Settles O16. -/
theorem cancelAndUnpaidCloseTheHire : Obligations.CancelAndUnpaidCloseTheHire := by
  refine ⟨fun src seq h s hr hs hslot => ?_, fun src seq h s hr hs hslot => ?_⟩
  · have hf := State.takeCancel_hired (s := s.took src seq) (by rw [State.took_hire]; exact hslot) src seq
    refine ⟨fun htenths hpulses => ?_, fun hlate => ?_⟩
    · rw [if_pos (h.inGrace_iff.2 ⟨htenths, hpulses⟩)] at hf
      obtain ⟨t, ht, hk, ha, hrep⟩ := commandEvent_closes (f := fun u => u.takeCancel src seq) hr hs hf
      exact ⟨t, ht, hk, hk.slot, hk.log, ha, hrep⟩
    · have hout : ¬ h.inGrace = true := by
        rw [Hire.inGrace_iff]
        omega
      rw [if_neg hout] at hf
      exact commandEvent_refused (f := fun u => u.takeCancel src seq) hr hs hf
  · have hf := State.takeUnpaid_due (s := s.took src seq) (h := h) (by rw [State.took_hire]; exact hslot) src seq
    unfold State.closeUnpaid at hf
    rw [State.took_pay] at hf
    refine ⟨fun hsession => ?_, fun due hsession hdue => ?_⟩
    · rw [if_pos ((Session.active_iff _).2 hsession)] at hf
      exact commandEvent_refused (f := fun u => u.takeUnpaid src seq) hr hs hf
    · rw [if_neg (fun h => (Session.active_iff _).1 h hsession)] at hf
      obtain ⟨t, ht, hk, ha, hrep⟩ := commandEvent_closes (f := fun u => u.takeUnpaid src seq) hr hs hf
      unfold Hire.mapRec at hk
      rw [HireRecord.leaveUnpaid_due hdue] at hk
      exact ⟨t, _, ht, rfl, hk, ha, hrep⟩

/-! ### Table 1-3 -/

/-- A payment outside STOPPED and PAYING is refused at the gate (Table 1-3). -/
theorem State.takePayment_other {s : State} (hslot : ∀ h, s.hire.slot ≠ .stopped h ∧ s.hire.slot ≠ .paying h)
    (src : Source) (seq : Nat) (f : Hire → State) : s.takePayment src seq f = s.refuse src seq .wrongState := by
  unfold State.takePayment State.payGate
  split
  · exact absurd ‹_› (hslot _).1
  · exact absurd ‹_› (hslot _).2
  all_goals rfl

theorem State.takeCardCancel_other {s : State} (hslot : ∀ h, s.hire.slot ≠ .paying h) (src : Source) (seq : Nat) :
    s.takeCardCancel src seq = s.refuse src seq .wrongState := by
  unfold State.takeCardCancel
  split
  · exact absurd ‹_› (hslot _)
  all_goals rfl

/-- Settles O18. -/
theorem wrongStateIsRefused : Obligations.WrongStateIsRefused := by
  intro src seq s hr hs c hc
  have hslot : (s.took src seq).hire.slot = s.hire.slot := by rw [State.took_hire]
  rcases hc with ⟨rfl | rfl, hno⟩ | ⟨rfl, hno⟩ | ⟨rfl | ⟨n, rfl⟩ | ⟨d, n, rfl⟩ | rfl, hno⟩ | ⟨rfl, hno⟩ <;>
    rw [← hslot] at hno
  · exact commandEvent_refused (f := fun u => u.takeStop src seq) hr hs (State.takeStop_other hno src seq)
  · exact commandEvent_refused (f := fun u => u.takeCancel src seq) hr hs (State.takeCancel_other hno src seq)
  · exact commandEvent_refused (f := fun u => u.takeResume src seq) hr hs (State.takeResume_other hno src seq)
  · exact commandEvent_refused (f := fun u => u.takeUnpaid src seq) hr hs (State.takeUnpaid_other hno src seq)
  · exact commandEvent_refused (f := fun u => u.takeCash src seq n) hr hs (State.takePayment_other hno src seq _)
  · exact commandEvent_refused (f := fun u => u.takeAccount src seq d n) hr hs (State.takePayment_other hno src seq _)
  · exact commandEvent_refused (f := fun u => u.takeCard src seq) hr hs (State.takePayment_other hno src seq _)
  · exact commandEvent_refused (f := fun u => u.takeCardCancel src seq) hr hs (State.takeCardCancel_other hno src seq)

end Sys2Proof.Machine
end

section
/-! PROOFS. Claims: OBJECT and CLAIM frames and the end of the claim window (O10, O11, O12, O13). -/
namespace Sys2Proof.Machine
open Sys2Proof

/-! ### The end of a claim -/

/-- The hire controller with its slot FREE and its resume window closed. -/
def HireCtl.freed (h : HireCtl) : HireCtl := { h with slot := .free, resume := none }

/-- A claim ended leaves a FREE slot (R9, R11, R13), also where a frame has been heard and a HIRE marked before it. -/
theorem State.freeSlot_kept {s u : State} (hk : s.Kept u) (hh : u.hire = s.hire) :
    (s.onHire HireCtl.freed).Kept u.freeSlot :=
  hk.onHire (by rw [hh]; exact ⟨rfl, rfl, rfl, rfl, rfl, rfl, rfl⟩)

/-- An event that ends the claim leaves a FREE slot and the refusal of its HIRE. -/
theorem event_endsClaim {s u : State} {f : State → State} {c : Claim} {r : Reason} (hr : s.supply.running = true)
    (hf : f s = u.endClaim c r) (hk : s.Kept u) (hh : u.hire = s.hire) (hc : s.StillPending u c.seq) :
    ∃ t, event f s = .next t ∧ (s.onHire HireCtl.freed).Kept t ∧ s.Replied t c.src c.seq (.refused r) :=
  event_replied (v := u.freeSlot) hr hf (State.freeSlot_kept hk hh) hc hk.clash

/-! ### OBJECT frames (R9) -/

/-- An OBJECT concerns the station only in its own claim window. -/
theorem State.takeObject_other {s : State} {target : Addr}
    (h : ∀ c : Claim, s.hire.slot = .claiming c → c.window = none ∨ target ≠ s.addr) : s.takeObject target = s := by
  unfold State.takeObject
  split
  · next c hslot =>
    refine if_neg fun ⟨htarget, hwindow⟩ => ?_
    rcases h c hslot with hnone | hother
    · rw [hnone] at hwindow
      cases hwindow
    · exact hother htarget
  all_goals rfl

theorem State.takeObject_window {s : State} {c : Claim} (hslot : s.hire.slot = .claiming c) (hw : c.window.isSome = true) :
    s.takeObject s.addr = s.endClaim c .claimLost := by
  unfold State.takeObject
  rw [hslot]
  exact if_pos ⟨rfl, hw⟩

/-- A good frame that is not acted on: nothing changes, and at a quiet station the event is the frame heard. -/
theorem frameEvent_ignored {s : State} {a : Addr} {f : State → State} (hr : s.supply.running = true) (hs : s.HearsFrom a)
    (hf : f s.heardFrame = s.heardFrame) :
    (∃ t, frameEvent a f s = .next t ∧ s.Kept t ∧ t.console.lastReply = s.console.lastReply)
      ∧ (s.Quiet → frameEvent a f s = .next s.onlyHeard) := by
  refine ⟨⟨_, frameEvent_next hr hs, ?_, ?_⟩, fun hq => ?_⟩
  · rw [hf]
    exact s.heardFrame_kept.trans (State.settleEvent_kept _)
  · rw [hf, State.settleEvent_lastReply]
    rfl
  · exact event_quiet hr ((State.hear_other hs f).trans hf) hq

/-- Settles O10. -/
theorem objectEndsTheClaimInItsWindow : Obligations.ObjectEndsTheClaimInItsWindow := by
  intro sender target s hr hs
  refine ⟨fun c hslot hw htarget => ?_, fun hno => ?_⟩
  · subst htarget
    exact event_endsClaim (f := fun u => u.hear sender fun u => u.takeObject s.addr) hr
      ((State.hear_other hs _).trans (State.takeObject_window (s := s.heardFrame) hslot hw)) s.heardFrame_kept rfl
      (.of_eq rfl)
  · exact frameEvent_ignored (f := fun u => u.takeObject target) hr hs (State.takeObject_other (s := s.heardFrame) hno)

/-! ### The HIRE that a CLAIM marks at station 0 (R175) -/

/-- The station once a CLAIM has marked the HIRE it belongs to, if any. -/
def State.claimMarked (s : State) (sender : Addr) (seq : Nat) : State :=
  if s.isConsole then s.markClaiming sender seq else s

theorem State.claimMarked_kept (s : State) (sender : Addr) (seq : Nat) : s.Kept (s.claimMarked sender seq) := by
  unfold State.claimMarked
  split
  · exact s.markClaiming_kept sender seq
  · exact .refl s

/-- Marking a HIRE touches only the entry pending for its target. -/
theorem State.markClaiming_form (s : State) (a : Addr) (seq : Nat) :
    s.markClaiming a seq = s ∨ ∃ x, s.markClaiming a seq = s.onConsole fun c => { c with cmds := c.cmds.set a x } := by
  unfold State.markClaiming
  split
  · split
    · split
      · exact Or.inr ⟨_, rfl⟩
      · exact Or.inl rfl
    · exact Or.inl rfl
  · exact Or.inl rfl

theorem State.claimMarked_form (s : State) (sender : Addr) (seq : Nat) :
    s.claimMarked sender seq = s
      ∨ s.isConsole = true
        ∧ ∃ x, s.claimMarked sender seq = s.onConsole fun c => { c with cmds := c.cmds.set sender x } := by
  unfold State.claimMarked
  split
  · next hcon => exact (s.markClaiming_form sender seq).imp_right fun h => ⟨hcon, h⟩
  · exact Or.inl rfl

theorem State.claimMarked_of_not_awaits {s : State} {sender : Addr} {seq : Nat} (h : ¬ s.Awaits sender seq) :
    s.claimMarked sender seq = s := by
  unfold State.claimMarked
  split
  · next hcon =>
    unfold State.markClaiming
    split
    · next p hp =>
      split
      · next kind party hcmd => exact if_neg fun hseq => h ⟨hcon, p, kind, party, hp, hseq, hcmd⟩
      · rfl
    · rfl
  · rfl

/-- The HIRE awaited from a seat is marked, and its reply limit is 500 ms. -/
theorem State.claimMarked_of_awaits {s : State} {sender : Addr} {seq : Nat} (h : s.Awaits sender seq)
    (hother : sender ≠ s.addr) {p : PendCmd} (hp : s.console.cmds.get sender = some p) :
    s.claimMarked sender seq = s.claimSeen sender p := by
  obtain ⟨hcon, p', kind, party, hp', hseq, hcmd⟩ := h
  cases hp.symm.trans hp'
  have hseat : sender ≠ 0 := fun h0 => hother (h0.trans (s.isConsole_iff.1 hcon).symm)
  obtain ⟨cmd, n, formed, claiming, handed, limit⟩ := p
  obtain rfl : cmd = .hire kind party := hcmd
  unfold State.claimMarked State.markClaiming
  rw [if_pos hcon, hp]
  dsimp only
  rw [if_pos hseq, if_neg hseat]
  rfl

section
variable (s : State) (sender : Addr) (seq : Nat)

theorem State.claimMarked_hire : (s.claimMarked sender seq).hire = s.hire := by
  obtain h | ⟨-, x, h⟩ := s.claimMarked_form sender seq
  · rw [h]
  · rw [h, State.onConsole_hire]

theorem State.claimMarked_link : (s.claimMarked sender seq).link = s.link := by
  obtain h | ⟨-, x, h⟩ := s.claimMarked_form sender seq
  · rw [h]
  · rw [h, State.onConsole_link]

theorem State.claimMarked_offers : (s.claimMarked sender seq).offers = s.offers := by
  obtain h | ⟨-, x, h⟩ := s.claimMarked_form sender seq
  · rw [h]
  · rw [h, State.onConsole_offers]

theorem State.claimMarked_noLateClose (h : s.NoLateClose) : (s.claimMarked sender seq).NoLateClose := by
  obtain h' | ⟨-, x, h'⟩ := s.claimMarked_form sender seq <;> rw [h'] <;> exact h

/-- A CLAIM from another station leaves station 0's own command pending. -/
theorem State.claimMarked_pending (hother : sender ≠ s.addr) (n : Nat) : s.StillPending (s.claimMarked sender seq) n := by
  obtain h | ⟨hcon, x, h⟩ := s.claimMarked_form sender seq
  · rw [h]
    exact .of_eq rfl
  · have hseat : (0 : Addr) ≠ sender := fun h0 => hother (h0.symm.trans (s.isConsole_iff.1 hcon).symm)
    intro p hp hn
    refine ⟨p, ?_, hn⟩
    rw [h, State.onConsole_console, Quad.get_set_other _ _ _ _ hseat]
    exact hp

end

/-! ### CLAIM frames (R10 to R12) -/

section
variable {s : State} (sender : Addr) (kind : Kind) (seq : Nat)

/-- What a CLAIM does to a claimer (R11): the lower address objects, the higher one abandons its claim. -/
theorem State.takeClaim_claiming {c : Claim} (hslot : s.hire.slot = .claiming c) :
    s.takeClaim sender kind seq =
      if kind = .exclusive ∨ c.kind = .exclusive then
        if s.addr < sender then (s.claimMarked sender seq).sendObject sender
        else (s.claimMarked sender seq).endClaim c .claimLost
      else s.claimMarked sender seq := by
  have haddr : (s.claimMarked sender seq).addr = s.addr := congrArg Straps.addr (s.claimMarked_kept sender seq).straps
  unfold State.takeClaim
  dsimp only
  rw [← State.claimMarked, State.claimMarked_hire, hslot, haddr]

/-- What a CLAIM does to an engaged station (R12): it objects where one of the two is EXCLUSIVE. -/
theorem State.takeClaim_engaged {h : Hire} (hslot : s.hire.slot.hire? = some h) :
    s.takeClaim sender kind seq =
      if kind = .exclusive ∨ h.rc.kind = .exclusive then (s.claimMarked sender seq).sendObject sender
      else s.claimMarked sender seq := by
  unfold State.takeClaim
  dsimp only
  rw [← State.claimMarked, State.claimMarked_hire]
  cases hs : s.hire.slot with
  | free => rw [hs] at hslot; cases hslot
  | claiming c => rw [hs] at hslot; cases hslot
  | hired h' => rw [hs] at hslot; cases hslot; rfl
  | stopped h' => rw [hs] at hslot; cases hslot; rfl
  | paying h' => rw [hs] at hslot; cases hslot; rfl

/-- A FREE station takes no action on a CLAIM (R10). -/
theorem State.takeClaim_free (hslot : s.hire.slot = .free) : s.takeClaim sender kind seq = s.claimMarked sender seq := by
  unfold State.takeClaim
  dsimp only
  rw [← State.claimMarked, State.claimMarked_hire, hslot]

/-- Where both are SHARED nothing is done (R11, R12). -/
theorem State.takeClaim_shared (hc : ∀ c : Claim, s.hire.slot = .claiming c → kind = .shared ∧ c.kind = .shared)
    (hh : ∀ h : Hire, s.hire.slot.hire? = some h → kind = .shared ∧ h.rc.kind = .shared) :
    s.takeClaim sender kind seq = s.claimMarked sender seq := by
  have hboth : ∀ k : Kind, kind = .shared ∧ k = .shared → ¬ (kind = .exclusive ∨ k = .exclusive) := by
    rintro k ⟨rfl, rfl⟩
    simp
  cases hs : s.hire.slot with
  | free => exact s.takeClaim_free sender kind seq hs
  | claiming c => rw [State.takeClaim_claiming sender kind seq hs, if_neg (hboth _ (hc c hs))]
  | hired h | stopped h | paying h =>
    have hsome : s.hire.slot.hire? = some h := by rw [hs]; rfl
    rw [State.takeClaim_engaged sender kind seq hsome, if_neg (hboth _ (hh h hsome))]

end

/-! ### An OBJECT is offered, and counted once (R11, R12) -/

/-- Hearing a frame changes nothing that admission reads (R81, R82). -/
theorem Link.offer_heard (l : Link) (now cls : Nat) (payload : List Byte) (tag : Tag) :
    (({ l with fairness := 0, pause := none } : Link).offer now cls payload tag).isSome
      = (l.offer now cls payload tag).isSome := by
  have hq : ∀ m : Link, (m.offer now cls payload tag).isSome =
      (!m.clash && ((replaceable cls && m.has cls) || m.admits cls)) := by
    intro m
    unfold Link.offer
    cases m.clash <;> cases (replaceable cls && m.has cls) <;> cases m.admits cls <;> cases m.inFlight cls <;> rfl
  rw [hq, hq]
  rfl

/-- The offer of an OBJECT takes one of those held for its claimer, where it is taken. -/
theorem State.tryOffer_object {v : State} {a : Addr} (h : a ∈ v.hire.objects) :
    (v.tryOffer (.object a)).hire.objects =
      if (v.link.offer v.now 1 (encObject a) (.object a)).isSome then v.hire.objects.erase a else v.hire.objects := by
  have hoff : v.offered (.object a) = some (encObject a, .object a) := if_pos (List.contains_iff_mem.2 h)
  unfold State.tryOffer
  rw [hoff]
  show (match v.link.offer v.now 1 (encObject a) (.object a) with | some l => _ | none => _ : State).hire.objects = _
  cases v.link.offer v.now 1 (encObject a) (.object a) <;> rfl

/-- The hire controller with one more OBJECT held (R11, R12). -/
def HireCtl.objecting (h : HireCtl) (a : Addr) : HireCtl := { h with objects := h.objects ++ [a] }

theorem State.sendObject_eq {s : State} (h : s.silent = false) (a : Addr) :
    s.sendObject a = (s.onHire fun c => c.objecting a).offer (.object a) := by
  unfold State.sendObject
  rw [h]
  rfl

/-- An OBJECT newly held and then offered: one more is held exactly where the offer was not taken. -/
theorem State.tryOffer_objecting_count (u : State) (a : Addr) :
    ((u.onHire fun c => c.objecting a).tryOffer (.object a)).hire.objects.count a =
      u.hire.objects.count a + if (u.link.offer u.now 1 (encObject a) (.object a)).isSome then 0 else 1 := by
  have hmem : a ∈ (u.onHire fun c => c.objecting a).hire.objects := List.mem_append_right _ List.mem_cons_self
  rw [State.tryOffer_object hmem]
  show (if (u.link.offer u.now 1 (encObject a) (.object a)).isSome then (u.hire.objects ++ [a]).erase a
    else u.hire.objects ++ [a]).count a = _
  split <;> simp [List.count_append]

section
variable {s : State} {sender : Addr} {kind : Kind} {seq : Nat}

theorem State.heardMarked_kept (s : State) (sender : Addr) (seq : Nat) : s.Kept (s.heardFrame.claimMarked sender seq) :=
  s.heardFrame_kept.trans (State.claimMarked_kept _ sender seq)

/-- A CLAIM that is objected to: nothing changes but the OBJECT, which is queued or held, and counted once. -/
theorem claim_objected (hr : s.supply.running = true) (hs : s.HearsFrom sender)
    (hf : s.heardFrame.takeClaim sender kind seq = (s.heardFrame.claimMarked sender seq).sendObject sender) :
    ∃ t, frameEvent sender (fun u => u.takeClaim sender kind seq) s = .next t ∧ s.Kept t
      ∧ (s.silent = false → t.Offered (sender ∈ t.hire.objects) 1 (encObject sender))
      ∧ (s.Quiet → s.silent = false → t.hire.objects.count sender = s.hire.objects.count sender
          + (if (s.link.offer s.now 1 (encObject sender) (.object sender)).isSome then 0 else 1)) := by
  have hsent : s.silent = false → s.heardFrame.takeClaim sender kind seq =
      ((s.heardFrame.claimMarked sender seq).onHire fun c => c.objecting sender).offer (.object sender) := fun h =>
    hf.trans (State.sendObject_eq ((s.heardMarked_kept sender seq).clash.trans h) sender)
  refine ⟨_, frameEvent_next hr hs, ?_, fun hsil => ?_, fun hq hsil => ?_⟩
  · rw [hf]
    exact ((s.heardMarked_kept sender seq).trans (State.sendObject_kept _ _)).trans (State.settleEvent_kept _)
  · rw [hsent hsil]
    exact State.settleEvent_object (Or.inl (List.mem_append_right _ List.mem_cons_self))
  · obtain ⟨u, hu⟩ : ∃ u, u = s.heardFrame.claimMarked sender seq := ⟨_, rfl⟩
    have hnow : u.now = s.now := hu ▸ (s.heardMarked_kept sender seq).now
    have hhire : u.hire = s.hire := by rw [hu, State.claimMarked_hire]; rfl
    have hlink : u.link = { s.link with fairness := 0, pause := none } := by rw [hu, State.claimMarked_link]; rfl
    have hquiet : (u.onHire fun c => c.objecting sender).Quiet := by
      refine ⟨?_, ?_⟩
      · rw [hu, State.onHire_offers, State.claimMarked_offers]
        exact hq.1
      · rw [hu]
        exact State.claimMarked_noLateClose _ sender seq hq.2
    have hone := event_one (f := fun v => v.hear sender fun v => v.takeClaim sender kind seq) hr
      ((State.hear_other hs _).trans (hu ▸ hsent hsil)) hquiet
    rw [Host.Outcome.next.inj ((frameEvent_next hr hs).symm.trans hone), (State.signUpdate_hire _).1,
      State.tryOffer_objecting_count, hhire, hlink, hnow, Link.offer_heard]

end


/-! ### An event that offers no command keeps the console -/

/-- An event's operation offers no COMMAND. -/
def State.NoCommand (s : State) : Prop := ∀ a : Addr, .command a ∉ s.offers

theorem State.NoCommand.of_mem {s t : State} (h : s.NoCommand) {o : Offer} (ho : ∀ a : Addr, Offer.command a ≠ o)
    (hm : ∀ x ∈ t.offers, x ∈ s.offers ∨ x = o) : t.NoCommand :=
  fun a ha => (hm _ ha).elim (h a) (ho a)

/-- Only the refusal of a COMMAND touches the console (R173). -/
theorem State.tryOffer_console {s : State} {o : Offer} (ho : ∀ a : Addr, .command a ≠ o) :
    (s.tryOffer o).console = s.console := by
  unfold State.tryOffer
  split
  · rfl
  · split
    · cases o with
      | hireEvent =>
        show (State.offerTaken _ _).console = _
        unfold State.offerTaken
        dsimp only
        split <;> rfl
      | _ => rfl
    · cases o with
      | command a => exact absurd rfl (ho a)
      | _ => rfl

theorem State.lateCloseIfDue_offers (s : State) : ∀ o ∈ s.lateCloseIfDue.offers, o ∈ s.offers ∨ o = .lateSummary := by
  intro o ho
  unfold State.lateCloseIfDue at ho
  split at ho
  · split at ho
    · unfold State.startLateSummary at ho
      dsimp only at ho
      split at ho
      · exact (List.mem_append.1 ho).imp_right List.mem_singleton.1
      · exact Or.inl ho
    · exact Or.inl ho
  · exact Or.inl ho

theorem State.settleEvent_console {s : State} (h : s.NoCommand) : s.settleEvent.console = s.console := by
  have hlate : s.lateCloseIfDue.NoCommand := h.of_mem (fun _ => Offer.noConfusion) s.lateCloseIfDue_offers
  unfold State.settleEvent
  rw [State.signUpdate_console]
  refine (flush_tracks (P := fun (os : List Offer) (u : State) => (∀ a : Addr, Offer.command a ∉ os) ∧ u.console = s.console) ?_
    (fun _ _ _ _ hP => hP) ⟨hlate, s.lateCloseIfDue_console⟩).2
  intro os o os' u ⟨hos, hu⟩
  refine ⟨fun a ha => hos a ?_, (State.tryOffer_console fun a ha => hos a ?_).trans hu⟩
  · exact List.mem_append.2 ((List.mem_append.1 ha).imp_right (List.mem_cons_of_mem o))
  · rw [ha]
    exact List.mem_append_right _ List.mem_cons_self

/-! ### What a CLAIM leaves of the commands pending at station 0 -/

theorem State.leaveTalk_form (s : State) (a : Addr) :
    (s.leaveTalk a).offers = s.offers ∧ (s.leaveTalk a).console = s.console := by
  unfold State.leaveTalk
  split <;> exact ⟨rfl, rfl⟩

/-- A reply to a seat's own key concerns only the command pending for that seat. -/
theorem State.consoleReply_other (s : State) {a b : Addr} (hab : b ≠ a) (seq : Nat) (r : Reply) :
    (s.consoleReply a seq r).offers = s.offers
      ∧ (s.consoleReply a seq r).console.cmds.get b = s.console.cmds.get b := by
  have hset : ∀ x, (s.console.cmds.set a x).get b = s.console.cmds.get b := fun x => Quad.get_set_other _ _ _ _ hab
  unfold State.consoleReply
  split
  · split
    · dsimp only
      split
      · rw [(State.leaveTalk_form _ a).1, (State.leaveTalk_form _ a).2]
        exact ⟨rfl, hset none⟩
      · exact ⟨rfl, hset none⟩
    · exact ⟨rfl, rfl⟩
  · exact ⟨rfl, rfl⟩

/-- A reply offers no COMMAND, and leaves what is pending for another seat than the one of the keys. -/
theorem State.replyTo_other {s : State} (h : s.NoCommand) (src : Source) (seq : Nat) (r : Reply) {b : Addr} (hb : b ≠ 0) :
    (s.replyTo src seq r).NoCommand ∧ (s.replyTo src seq r).console.cmds.get b = s.console.cmds.get b := by
  cases src with
  | localKey =>
    obtain ⟨hoff, hget⟩ := s.consoleReply_other hb seq r
    exact ⟨fun a ha => h a (hoff ▸ ha), hget⟩
  | frame a n =>
    unfold State.replyTo
    dsimp only
    split
    · exact ⟨h, rfl⟩
    · exact ⟨h.of_mem (fun _ => Offer.noConfusion) fun x hx => (List.mem_append.1 hx).imp_right List.mem_singleton.1, rfl⟩

theorem State.sendObject_other {s : State} (h : s.NoCommand) (a : Addr) :
    (s.sendObject a).NoCommand ∧ (s.sendObject a).console = s.console := by
  unfold State.sendObject
  split
  · exact ⟨h, rfl⟩
  · exact ⟨h.of_mem (fun _ => Offer.noConfusion) fun x hx => (List.mem_append.1 hx).imp_right List.mem_singleton.1, rfl⟩

/-- What a CLAIM does beyond marking its HIRE: nothing, an OBJECT, or the end of the own claim (R10 to R12). -/
theorem State.takeClaim_cases (s : State) (sender : Addr) (kind : Kind) (seq : Nat) :
    s.takeClaim sender kind seq = s.claimMarked sender seq
      ∨ s.takeClaim sender kind seq = (s.claimMarked sender seq).sendObject sender
      ∨ ∃ c, s.takeClaim sender kind seq = (s.claimMarked sender seq).endClaim c .claimLost := by
  cases hs : s.hire.slot with
  | free => exact Or.inl (s.takeClaim_free sender kind seq hs)
  | claiming c =>
    rw [State.takeClaim_claiming sender kind seq hs]
    split
    · split
      · exact Or.inr (Or.inl rfl)
      · exact Or.inr (Or.inr ⟨c, rfl⟩)
    · exact Or.inl rfl
  | hired h | stopped h | paying h =>
    rw [State.takeClaim_engaged sender kind seq (h := h) (by rw [hs]; rfl)]
    split
    · exact Or.inr (Or.inl rfl)
    · exact Or.inl rfl

theorem State.takeClaim_other {s : State} (h : s.offers = []) {sender : Addr} (hseat : sender ≠ 0) (kind : Kind) (seq : Nat) :
    (s.takeClaim sender kind seq).NoCommand
      ∧ (s.takeClaim sender kind seq).console.cmds.get sender = (s.claimMarked sender seq).console.cmds.get sender := by
  have hno : (s.claimMarked sender seq).NoCommand := fun a ha => by
    rw [State.claimMarked_offers, h] at ha
    cases ha
  obtain hm | hm | ⟨c, hm⟩ := s.takeClaim_cases sender kind seq <;> rw [hm]
  · exact ⟨hno, rfl⟩
  · obtain ⟨hn, hcon⟩ := State.sendObject_other hno sender
    exact ⟨hn, by rw [hcon]⟩
  · exact State.replyTo_other (s := (s.claimMarked sender seq).freeSlot) hno c.src c.seq _ hseat

/-! ### The two statements about CLAIM -/

theorem State.Kept.interlocked {s t : State} (h : s.Kept t) (k : Kind) : t.interlocked k = s.interlocked k := by
  have haddr : t.addr = s.addr := congrArg Straps.addr h.straps
  unfold State.interlocked State.peers
  rw [h.rows, haddr]

section
variable {s : State} {sender : Addr} {kind : Kind} {seq : Nat}

/-- A CLAIM that does no more than mark its HIRE. -/
theorem claim_ignored (hr : s.supply.running = true) (hs : s.HearsFrom sender)
    (hf : s.heardFrame.takeClaim sender kind seq = s.heardFrame.claimMarked sender seq) :
    (∃ t, frameEvent sender (fun u => u.takeClaim sender kind seq) s = .next t ∧ s.Kept t)
      ∧ (s.Quiet → ¬ s.Awaits sender seq →
          frameEvent sender (fun u => u.takeClaim sender kind seq) s = .next s.onlyHeard)
      ∧ (∀ p, s.Quiet → s.Awaits sender seq → s.console.cmds.get sender = some p →
          frameEvent sender (fun u => u.takeClaim sender kind seq) s = .next (s.claimSeen sender p).onlyHeard) := by
  have hheard : s.hear sender (fun u => u.takeClaim sender kind seq) = s.heardFrame.claimMarked sender seq :=
    (State.hear_other hs _).trans hf
  refine ⟨⟨_, frameEvent_next hr hs, ?_⟩, fun hq hno => ?_, fun p hq ha hp => ?_⟩
  · rw [hf]
    exact (s.heardMarked_kept sender seq).trans (State.settleEvent_kept _)
  · exact event_quiet (t := s.heardFrame) hr (hheard.trans (State.claimMarked_of_not_awaits (s := s.heardFrame) hno)) hq
  · exact event_quiet (t := s.heardFrame.claimSeen sender p) hr
      (hheard.trans (State.claimMarked_of_awaits (s := s.heardFrame) ha hs.2 hp)) hq

/-- Settles O11. -/
theorem freeStationTakesNoActionOnAClaim : Obligations.FreeStationTakesNoActionOnAClaim := by
  intro sender kind party seq s hr hs hfree
  obtain ⟨⟨t, ht, hk⟩, hquiet⟩ := claim_ignored hr hs (State.takeClaim_free (s := s.heardFrame) sender kind seq hfree)
  exact ⟨⟨t, ht, hk, fun k => hk.interlocked k⟩, hquiet⟩

/-- A CLAIM that carries the awaited sequence number marks its HIRE, whatever it does to the own slot (R175). -/
theorem claim_marks (hr : s.supply.running = true) (hs : s.HearsFrom sender) (hoff : s.offers = [])
    (ha : s.Awaits sender seq) {p : PendCmd} (hp : s.console.cmds.get sender = some p) :
    ∃ t, frameEvent sender (fun u => u.takeClaim sender kind seq) s = .next t
      ∧ t.console.cmds.get sender = some { p with claiming := true, limit := some (ms 500) } := by
  have hseat : sender ≠ 0 := fun h0 => hs.2 (h0.trans (s.isConsole_iff.1 ha.1).symm)
  obtain ⟨hno, hget⟩ := State.takeClaim_other (s := s.heardFrame) hoff hseat kind seq
  refine ⟨_, frameEvent_next hr hs, ?_⟩
  rw [State.settleEvent_console hno, hget, State.claimMarked_of_awaits (s := s.heardFrame) ha hs.2 hp]
  exact Quad.get_set_same _ _ _

/-- Settles O12. -/
theorem claimsCrossByAddress : Obligations.ClaimsCrossByAddress := by
  intro sender kind party seq s hr hs
  refine ⟨fun c hslot hex hlow => ?_, fun c hslot hex hhigh => ?_, fun h hslot hex => ?_, fun hc hh => ?_,
    fun p hoff ha hp => claim_marks hr hs hoff ha hp⟩
  · refine claim_objected hr hs ?_
    rw [State.takeClaim_claiming (s := s.heardFrame) sender kind seq hslot, if_pos hex]
    exact if_pos hlow
  · have hf : s.heardFrame.takeClaim sender kind seq = (s.heardFrame.claimMarked sender seq).endClaim c .claimLost := by
      rw [State.takeClaim_claiming (s := s.heardFrame) sender kind seq hslot, if_pos hex]
      exact if_neg (Nat.not_lt.2 (Nat.le_of_lt hhigh))
    exact event_endsClaim (f := fun u => u.hear sender fun u => u.takeClaim sender kind seq) hr
      ((State.hear_other hs _).trans hf) (s.heardMarked_kept sender seq) (State.claimMarked_hire _ _ _)
      (State.claimMarked_pending s.heardFrame sender seq hs.2 c.seq)
  · refine claim_objected hr hs ?_
    rw [State.takeClaim_engaged (s := s.heardFrame) sender kind seq hslot, if_pos hex]
  · exact claim_ignored hr hs (State.takeClaim_shared (s := s.heardFrame) sender kind seq hc hh)

end

/-! ### The end of the claim window (R13) -/

theorem State.takeWindowEnd_claiming {s : State} {c : Claim} (hslot : s.hire.slot = .claiming c)
    (hw : c.window.isSome = true) : s.takeWindowEnd = s.endWindow c := by
  unfold State.takeWindowEnd
  rw [hslot]
  exact if_pos hw

theorem State.endWindow_interlocked {s : State} {c : Claim} (h : s.interlocked c.kind = true) :
    s.endWindow c = s.endClaim c .claimLost := if_pos h

theorem State.bandNow_of_band {s : State} {im : Image} {b : Band} (him : s.image = some im)
    (hb : (im.bands[selectBand im s.clock.seconds]?).join = some b) :
    s.bandNow = some (selectBand im s.clock.seconds, snapshotOf im b) := by
  unfold State.bandNow
  rw [him]
  show ((im.bands[selectBand im s.clock.seconds]?).join).map _ = _
  rw [hb]
  rfl

theorem State.endWindow_band {s : State} {c : Claim} (h : s.interlocked c.kind = false) {im : Image} {b : Band}
    (him : s.image = some im) (hb : (im.bands[selectBand im s.clock.seconds]?).join = some b) :
    s.endWindow c = s.enterHired c (selectBand im s.clock.seconds) (snapshotOf im b) := by
  unfold State.endWindow
  rw [h, State.bandNow_of_band him hb]
  rfl

/-- The record of the hire that a claim becomes (R3, R27). -/
def State.newRecord (s : State) (c : Claim) (i : Nat) (sn : Snapshot) : HireRecord :=
  formRecord (freeHireNo s.hire.log s.shift.number 33 s.hire.nextNo) s.shift.number (s.sharingLevel c.kind)
    s.clock.seconds i c.kind c.party sn

/-- The hire controller once a record is formed (R2, R3). -/
def HireCtl.hiring (h : HireCtl) (rc : HireRecord) (sn : Snapshot) : HireCtl :=
  { h with slot := .hired { rc := rc, snap := sn }, nextNo := succHireNo rc.no, tally := 0, claimHeld := false }

theorem State.enterHired_eq (s : State) (c : Claim) (i : Nat) (sn : Snapshot) :
    s.enterHired c i sn =
      (((s.onHire fun h => h.hiring (s.newRecord c i sn) sn).hireChanged).sayHireEvent
        (.start (s.newRecord c i sn).no c.kind)).replyTo c.src c.seq .done := rfl

/-- A switched tariff begins by charging time, a combined one charges both (R27, R29). -/
theorem formRecord_charging (no shiftNo level seconds bandIdx : Nat) (kind : Kind) (party : Nat) (sn : Snapshot) :
    (formRecord no shiftNo level seconds bandIdx kind party sn).charging =
      if sn.band.mode = .switched then some .time else none := by
  unfold formRecord
  dsimp only
  cases sn.band.mode <;> rfl

theorem windowEnd_forms_hire {c : Claim} {s : State} (hr : s.supply.running = true) (hslot : s.hire.slot = .claiming c)
    (hw : c.window.isSome = true) (hfree : s.interlocked c.kind = false) {im : Image} {b : Band} (him : s.image = some im)
    (hb : (im.bands[selectBand im s.clock.seconds]?).join = some b) {rc : HireRecord}
    (hrc : rc = s.newRecord c (selectBand im s.clock.seconds) (snapshotOf im b)) :
    ∃ t, exec .claimWindowEnd s = .next t
      ∧ (s.onHire fun h => { h with slot := .hired { rc := rc, snap := snapshotOf im b }
                                    nextNo := succHireNo rc.no, tally := 0 }).hireChanged.Kept t
      ∧ s.Announced t (.start rc.no c.kind) ∧ s.Replied t c.src c.seq .done := by
  subst hrc
  have hf := (State.takeWindowEnd_claiming hslot hw).trans
    ((State.endWindow_band hfree him hb).trans (State.enterHired_eq s c _ _))
  refine event_told hr hf (State.Kept.hireChanged ?_) (.of_eq rfl) rfl
  exact (State.Kept.refl s).onHire ⟨rfl, rfl, rfl, rfl, rfl, rfl, rfl⟩

/-- Settles O13. -/
theorem claimWindowEndFormsTheHire : Obligations.ClaimWindowEndFormsTheHire := by
  intro c s hr hslot hw
  refine ⟨fun hlock => ?_, fun im b hfree him hb => ?_⟩
  · have hf := (State.takeWindowEnd_claiming hslot hw).trans (State.endWindow_interlocked hlock)
    exact event_endsClaim hr hf (.refl s) rfl (.of_eq rfl)
  · obtain ⟨rc, hrc⟩ : ∃ rc, rc = s.newRecord c (selectBand im s.clock.seconds) (snapshotOf im b) := ⟨_, rfl⟩
    obtain ⟨t, ht, hk, hsaid, hreply⟩ := windowEnd_forms_hire hr hslot hw hfree him hb hrc
    have hcharging : rc.charging = if b.mode = .switched then some .time else none := by
      rw [hrc]
      exact formRecord_charging _ _ _ _ _ _ _ _
    refine ⟨t, rc.no, rc, ht, hk, ?_⟩
    subst hrc
    exact ⟨rfl, rfl, rfl, rfl, rfl, rfl, rfl, rfl, rfl, rfl, rfl, rfl, rfl, rfl, rfl, rfl, rfl, rfl, rfl, hcharging, rfl, rfl,
      rfl, rfl, rfl, rfl, rfl, rfl, rfl, rfl, rfl, rfl, rfl, rfl, rfl, rfl, rfl, hsaid, hreply⟩

end Sys2Proof.Machine
end

section
/-! PROOFS. New hire numbers and transaction numbers: the first free number of a cyclic range (O14). -/
namespace Sys2Proof.Machine
open Sys2Proof

/-! ### The first number that is not taken -/

/-- The number `j` places after `n` in 1 to `m`, counting from `m` on to 1. -/
def cyclic (m n j : Nat) : Nat := (n - 1 + j) % m + 1

/-- The first number from `n` on that is not taken, in the form that `freeHireNo` and `State.freeTxn` share. -/
def firstFree (taken : Nat → Bool) (m : Nat) : Nat → Nat → Nat
  | 0, n => n
  | fuel + 1, n => if taken n then firstFree taken m fuel (cyclic m n 1) else n

theorem cyclic_zero {m n : Nat} (h1 : 1 ≤ n) (hm : n ≤ m) : cyclic m n 0 = n := by
  have hmod : (n - 1 + 0) % m = n - 1 := Nat.mod_eq_of_lt (by omega)
  unfold cyclic
  omega

theorem cyclic_cyclic_one (m n j : Nat) : cyclic m (cyclic m n 1) j = cyclic m n (1 + j) := by
  unfold cyclic
  rw [Nat.add_sub_cancel, Nat.mod_add_mod, Nat.add_assoc]

theorem cyclic_pos (m n j : Nat) : 1 ≤ cyclic m n j := Nat.le_add_left 1 _

theorem cyclic_le {m : Nat} (hm : 0 < m) (n j : Nat) : cyclic m n j ≤ m := Nat.mod_lt _ hm

/-- The count returns to a number only after all `m` of the range. -/
theorem cyclic_injOn {m n i j : Nat} (hi : i < m) (hj : j < m) (h : cyclic m n i = cyclic m n j) : i = j := by
  have hmod : i % m = j % m := Nat.ModEq.add_left_cancel' (n - 1) (Nat.succ.inj h)
  rwa [Nat.mod_eq_of_lt hi, Nat.mod_eq_of_lt hj] at hmod

/-- The search counts on through taken numbers, and stops at a free one or where its fuel ends. -/
theorem firstFree_counts (taken : Nat → Bool) {m : Nat} (fuel : Nat) : ∀ {n : Nat}, 1 ≤ n → n ≤ m →
    ∃ passed, passed ≤ fuel ∧ firstFree taken m fuel n = cyclic m n passed
      ∧ (∀ j, j < passed → taken (cyclic m n j) = true)
      ∧ (passed = fuel ∨ taken (cyclic m n passed) = false) := by
  induction fuel with
  | zero => exact fun h1 hm => ⟨0, Nat.le_refl 0, (cyclic_zero h1 hm).symm, fun j hj => absurd hj j.not_lt_zero, Or.inl rfl⟩
  | succ fuel ih =>
    intro n h1 hm
    have h0 := cyclic_zero h1 hm
    cases hn : taken n with
    | false =>
      refine ⟨0, Nat.zero_le _, ?_, fun j hj => absurd hj j.not_lt_zero, Or.inr ((congrArg taken h0).trans hn)⟩
      rw [firstFree, hn, h0]
      rfl
    | true =>
      obtain ⟨passed, hle, heq, htaken, hend⟩ := ih (cyclic_pos m n 1) (cyclic_le (by omega) n 1)
      refine ⟨1 + passed, by omega, ?_, fun j hj => ?_, ?_⟩
      · rw [firstFree, hn, ← cyclic_cyclic_one]
        exact heq
      · cases j with
        | zero => exact (congrArg taken h0).trans hn
        | succ j =>
          rw [Nat.add_comm j 1, ← cyclic_cyclic_one]
          exact htaken j (by omega)
      · rw [← cyclic_cyclic_one]
        exact hend.imp_left fun h => by omega

/-- As many numbers are passed over as are taken, at most (the pigeonhole principle). -/
theorem passed_le_length {taken : Nat → Bool} {m n passed : Nat} {l : List Nat} (hl : ∀ k, taken k = true → k ∈ l)
    (hm : passed ≤ m) (htaken : ∀ j, j < passed → taken (cyclic m n j) = true) : passed ≤ l.length := by
  have hnodup : ((List.range passed).map (cyclic m n)).Nodup :=
    List.Nodup.map_on (fun i hi j hj h => cyclic_injOn (Nat.lt_of_lt_of_le (List.mem_range.1 hi) hm)
      (Nat.lt_of_lt_of_le (List.mem_range.1 hj) hm) h) List.nodup_range
  have hsub : (List.range passed).map (cyclic m n) ⊆ l := by
    intro k hk
    obtain ⟨j, hj, rfl⟩ := List.mem_map.1 hk
    exact hl _ (htaken j (List.mem_range.1 hj))
  simpa using (hnodup.subperm hsub).length_le

/-- With fewer numbers taken than the fuel, the search ends at a free one. -/
theorem firstFree_isFree {taken : Nat → Bool} {m fuel n : Nat} {l : List Nat} (hl : ∀ k, taken k = true → k ∈ l)
    (hlen : l.length < fuel) (hfuel : fuel ≤ m) (h1 : 1 ≤ n) (hn : n ≤ m) :
    ∃ passed, passed ≤ l.length ∧ firstFree taken m fuel n = cyclic m n passed
      ∧ (∀ j, j < passed → taken (cyclic m n j) = true) ∧ taken (firstFree taken m fuel n) = false := by
  obtain ⟨passed, hle, heq, htaken, hend⟩ := firstFree_counts taken fuel h1 hn
  have hshort := passed_le_length hl (hle.trans hfuel) htaken
  refine ⟨passed, hshort, heq, htaken, ?_⟩
  rw [heq]
  exact hend.resolve_left (by omega)

theorem firstFree_of_free {taken : Nat → Bool} {n : Nat} (h : taken n = false) (m fuel : Nat) :
    firstFree taken m fuel n = n := by
  cases fuel with
  | zero => rfl
  | succ fuel =>
    rw [firstFree, h]
    rfl

/-! ### Hire numbers (R3) -/

/-- The log holds this number with this shift number. -/
def hireNoTaken (log : List HireRecord) (shiftNo n : Nat) : Bool := log.any fun r => r.shiftNo == shiftNo && r.no == n

theorem hireNoTaken_iff (log : List HireRecord) (shiftNo n : Nat) :
    hireNoTaken log shiftNo n = true ↔ ∃ r ∈ log, r.shiftNo = shiftNo ∧ r.no = n := by
  simp [hireNoTaken]

theorem succHireNo_eq {n : Nat} (h1 : 1 ≤ n) (hn : n ≤ 9999) : succHireNo n = cyclic 9999 n 1 := by
  unfold succHireNo cyclic
  split <;> omega

theorem freeHireNo_eq_firstFree (log : List HireRecord) (shiftNo fuel : Nat) : ∀ {n : Nat}, 1 ≤ n → n ≤ 9999 →
    freeHireNo log shiftNo fuel n = firstFree (hireNoTaken log shiftNo) 9999 fuel n := by
  induction fuel with
  | zero => exact fun _ _ => rfl
  | succ fuel ih =>
    intro n h1 hn
    rw [freeHireNo, firstFree, succHireNo_eq h1 hn, ih (cyclic_pos _ _ _) (cyclic_le (by decide) _ _)]
    rfl

theorem freeHireNo_isNew {log : List HireRecord} (shiftNo : Nat) {n : Nat} (hlen : log.length ≤ 32) (h1 : 1 ≤ n)
    (hn : n ≤ 9999) :
    ∃ passed, passed ≤ 32 ∧ freeHireNo log shiftNo 33 n = cyclic 9999 n passed
      ∧ (∀ j, j < passed → hireNoTaken log shiftNo (cyclic 9999 n j) = true)
      ∧ hireNoTaken log shiftNo (freeHireNo log shiftNo 33 n) = false := by
  have hl : ∀ k, hireNoTaken log shiftNo k = true → k ∈ log.map HireRecord.no := fun k hk => by
    obtain ⟨r, hr, -, rfl⟩ := (hireNoTaken_iff log shiftNo k).1 hk
    exact List.mem_map_of_mem hr
  have hlen' : (log.map HireRecord.no).length ≤ 32 := by rwa [List.length_map]
  rw [freeHireNo_eq_firstFree log shiftNo 33 h1 hn]
  obtain ⟨passed, hle, hrest⟩ := firstFree_isFree (fuel := 33) hl (Nat.lt_succ_of_le hlen') (by decide) h1 hn
  exact ⟨passed, hle.trans hlen', hrest⟩

/-! ### Transaction numbers (R130) -/

/-- The records of the slot and the log. -/
def State.records (s : State) : List HireRecord := (s.hire.slot.hire?.map (·.rc)).toList ++ s.hire.log

theorem State.mem_records {s : State} {rc : HireRecord} :
    rc ∈ s.records ↔ rc ∈ s.hire.log ∨ ∃ h, s.hire.slot.hire? = some h ∧ h.rc = rc := by
  simp [State.records, or_comm]

theorem Tender.txn?_eq_some (t : Tender) (k : Nat) :
    t.txn? = some k ↔ ∃ a scheme four auth, Tender.card a k scheme four auth = t := by
  cases t <;> simp [Tender.txn?, eq_comm]

theorem State.txnTaken_iff (s : State) (k : Nat) :
    s.txnTaken k = true ↔ (∃ r ∈ s.pay.reversals, r.txn = k)
      ∨ ∃ rc : HireRecord, (rc ∈ s.hire.log ∨ ∃ h, s.hire.slot.hire? = some h ∧ h.rc = rc)
        ∧ ∃ a scheme four auth, Tender.card a k scheme four auth ∈ rc.tenders := by
  have hcard : ∀ rc : HireRecord, (rc.tenders.any fun t => t.txn? == some k) = true
      ↔ ∃ a scheme four auth, Tender.card a k scheme four auth ∈ rc.tenders := by
    intro rc
    simp only [List.any_eq_true, beq_iff_eq, Tender.txn?_eq_some]
    constructor
    · rintro ⟨t, ht, a, scheme, four, auth, rfl⟩
      exact ⟨a, scheme, four, auth, ht⟩
    · rintro ⟨a, scheme, four, auth, ht⟩
      exact ⟨_, ht, a, scheme, four, auth, rfl⟩
  have hrecords : (s.records.any fun rc => rc.tenders.any fun t => t.txn? == some k) = true
      ↔ ∃ rc ∈ s.records, ∃ a scheme four auth, Tender.card a k scheme four auth ∈ rc.tenders := by
    simp only [List.any_eq_true, ← hcard]
  unfold State.txnTaken
  rw [← State.records, Bool.or_eq_true, hrecords]
  simp only [List.any_eq_true, beq_iff_eq, State.mem_records]

/-- The transaction numbers that stand in the reversal list, the slot and the log. -/
def State.txnsHeld (s : State) : List Nat :=
  s.pay.reversals.map (·.txn) ++ s.records.flatMap fun rc => rc.tenders.filterMap Tender.txn?

theorem State.mem_txnsHeld {s : State} {k : Nat} (h : s.txnTaken k = true) : k ∈ s.txnsHeld := by
  refine List.mem_append.2 (((s.txnTaken_iff k).1 h).imp ?_ ?_)
  · rintro ⟨r, hr, rfl⟩
    exact List.mem_map_of_mem hr
  · rintro ⟨rc, hrc, a, scheme, four, auth, ht⟩
    exact List.mem_flatMap.2 ⟨rc, State.mem_records.2 hrc, List.mem_filterMap.2 ⟨_, ht, rfl⟩⟩

theorem State.records_length_le (s : State) : s.records.length ≤ 1 + s.hire.log.length := by
  rw [State.records, List.length_append]
  exact Nat.add_le_add_right (by cases s.hire.slot.hire? <;> simp) _

theorem State.txnsHeld_length_le {s : State} (hrev : s.pay.reversals.length ≤ 4) (hlog : s.hire.log.length ≤ 32)
    (htenders : ∀ rc ∈ s.records, rc.tenders.length ≤ 3) : s.txnsHeld.length ≤ 103 := by
  have hrecords := s.records_length_le
  have hcards : (s.records.flatMap fun rc => rc.tenders.filterMap Tender.txn?).length ≤ s.records.length * 3 := by
    rw [List.length_flatMap, ← smul_eq_mul, ← List.length_map]
    refine List.sum_le_card_nsmul _ _ fun x hx => ?_
    obtain ⟨rc, hrc, rfl⟩ := List.mem_map.1 hx
    exact (List.length_filterMap_le _ _).trans (htenders rc hrc)
  rw [State.txnsHeld, List.length_append, List.length_map]
  omega

theorem succTxn_eq {n : Nat} (h1 : 1 ≤ n) (hn : n ≤ 65535) : succTxn n = cyclic 65535 n 1 := by
  unfold succTxn cyclic
  split <;> omega

theorem State.freeTxn_eq_firstFree (s : State) (fuel : Nat) : ∀ {n : Nat}, 1 ≤ n → n ≤ 65535 →
    s.freeTxn fuel n = firstFree s.txnTaken 65535 fuel n := by
  induction fuel with
  | zero => exact fun _ _ => rfl
  | succ fuel ih =>
    intro n h1 hn
    rw [State.freeTxn, firstFree, succTxn_eq h1 hn, ih (cyclic_pos _ _ _) (cyclic_le (by decide) _ _)]

theorem State.freeTxn_isNew {s : State} {n : Nat} (hlen : s.txnsHeld.length ≤ 103) (h1 : 1 ≤ n) (hn : n ≤ 65535) :
    ∃ passed, passed ≤ 103 ∧ s.freeTxn 104 n = cyclic 65535 n passed
      ∧ (∀ j, j < passed → s.txnTaken (cyclic 65535 n j) = true) ∧ s.txnTaken (s.freeTxn 104 n) = false := by
  rw [s.freeTxn_eq_firstFree 104 h1 hn]
  obtain ⟨passed, hle, hrest⟩ := firstFree_isFree (taken := s.txnTaken) (fuel := 104) (fun _ => State.mem_txnsHeld)
    (Nat.lt_succ_of_le hlen) (by decide) h1 hn
  exact ⟨passed, hle.trans hlen, hrest⟩

/-- Settles O14. -/
theorem hireAndTransactionNumbersAreNew : Obligations.HireAndTransactionNumbersAreNew := by
  refine ⟨fun log shiftNo n hlen h1 hn => ?_, fun s n hrev hlog hlogT hslotT h1 hn k hk => ?_⟩
  · obtain ⟨passed, hle, heq, htaken, hfree⟩ := freeHireNo_isNew shiftNo hlen h1 hn
    refine ⟨heq ▸ cyclic_pos _ _ _, heq ▸ cyclic_le (by decide) _ _, fun r hr hshift hno => ?_, fun hnew => ?_,
      passed, hle, heq, fun j hj => (hireNoTaken_iff _ _ _).1 (htaken j hj)⟩
    · exact Bool.false_ne_true (hfree.symm.trans ((hireNoTaken_iff _ _ _).2 ⟨r, hr, hshift, hno⟩))
    · rw [freeHireNo_eq_firstFree log shiftNo 33 h1 hn]
      refine firstFree_of_free (Bool.eq_false_iff.2 fun h => ?_) _ _
      obtain ⟨r, hr, hshift, hno⟩ := (hireNoTaken_iff _ _ _).1 h
      exact hnew r hr hshift hno
  · subst hk
    have hlen : s.txnsHeld.length ≤ 103 := State.txnsHeld_length_le hrev hlog fun rc hrc => by
      obtain hin | ⟨h, hh, rfl⟩ := State.mem_records.1 hrc
      · exact hlogT rc hin
      · exact hslotT h hh
    obtain ⟨passed, hle, heq, htaken, hfree⟩ := State.freeTxn_isNew hlen h1 hn
    have hnot := fun h => Bool.false_ne_true (hfree.symm.trans ((s.txnTaken_iff _).2 h))
    refine ⟨heq ▸ cyclic_pos _ _ _, heq ▸ cyclic_le (by decide) _ _, fun r hr htxn => hnot (Or.inl ⟨r, hr, htxn⟩),
      fun rc hrc a scheme four auth ht => hnot (Or.inr ⟨rc, hrc, a, scheme, four, auth, ht⟩), fun hnew => ?_,
      passed, hle, heq, fun j hj => (s.txnTaken_iff _).1 (htaken j hj)⟩
    rw [s.freeTxn_eq_firstFree 104 h1 hn]
    exact firstFree_of_free hnew _ _

end Sys2Proof.Machine
end

section
/-! PROOFS. Fare arithmetic: credit, steps and the cap, speed and sharing level, the due (O20, O21, O22). -/
namespace Sys2Proof.Machine
open Sys2Proof

/-! ### Credit (R29, R30) -/

theorem HireRecord.creditDistance_zero (r : HireRecord) : r.creditDistance 0 = r := by
  simp [HireRecord.creditDistance]

theorem HireRecord.creditTime_zero (r : HireRecord) : r.creditTime 0 = r := by
  simp [HireRecord.creditTime]

/-- A slot credits the distance of its pulses and one tenth, each only where the band and the charging state let it (R29). -/
theorem HireRecord.creditSlot_eq (r : HireRecord) (b : Band) (p : Nat) :
    r.creditSlot b p =
      (r.creditDistance (if b.mode = .combined ∨ r.charging = some .dist then p * 1000 else 0)).creditTime
        (if b.mode = .combined ∨ r.charging ≠ some .dist then 1 else 0) := by
  unfold HireRecord.creditSlot
  cases hmode : b.mode with
  | combined => simp
  | switched =>
    by_cases hdist : r.charging = some .dist
    · simp [hdist, HireRecord.creditTime_zero]
    · simp [hdist, HireRecord.creditDistance_zero]

/-! ### One step (R34, R35) -/

theorem Band.factor_of_level {b : Band} {level f : Nat}
    (h : (level = 1 ∧ f = b.f1) ∨ (level = 2 ∧ f = b.f2) ∨ (level = 3 ∧ f = b.f3) ∨ (level = 4 ∧ f = b.f4)) :
    b.factor level = f := by
  obtain ⟨rfl, rfl⟩ | ⟨rfl, rfl⟩ | ⟨rfl, rfl⟩ | ⟨rfl, rfl⟩ := h <;> rfl

theorem Band.stepAmount_eq (b : Band) (k : StepKind) : b.stepAmount k = if k = .distance then b.sd else b.st := by
  cases k <;> rfl

/-- What one step adds to the charge of its kind, the carry that it leaves, and whether the hire is CAPPED after it. -/
structure StepOutcome where
  charge : Nat
  carry  : Nat
  capped : Bool

/-- The outcome of a step of `raw` thousandths (R34), against the cap (R35). -/
def stepOutcome (capped : Bool) (running raw : Nat) : StepOutcome :=
  if capped then ⟨0, 0, true⟩
  else if 999999 < running + raw / 1000 then ⟨999999 - running, 0, true⟩
  else ⟨raw / 1000, raw % 1000, false⟩

/-- The record after a step of one kind with this outcome. -/
def HireRecord.stepped (r : HireRecord) (b : Band) (k : StepKind) (o : StepOutcome) : HireRecord :=
  { r with
    distCharge := r.distCharge + (if k = .distance then o.charge else 0)
    timeCharge := r.timeCharge + (if k = .time then o.charge else 0)
    carry := o.carry
    capped := o.capped
    undiscounted := r.undiscounted + b.stepAmount k }

theorem stepOutcome_below_cap {running raw : Nat} (h : running + raw / 1000 ≤ 999999) :
    stepOutcome false running raw = ⟨raw / 1000, raw % 1000, false⟩ := by
  rw [stepOutcome, if_neg Bool.false_ne_true, if_neg (Nat.not_lt.2 h)]

theorem stepOutcome_at_cap {running raw : Nat} (h : 999999 < running + raw / 1000) :
    stepOutcome false running raw = ⟨999999 - running, 0, true⟩ := by
  rw [stepOutcome, if_neg Bool.false_ne_true, if_pos h]

theorem stepOutcome_capped (running raw : Nat) : stepOutcome true running raw = ⟨0, 0, true⟩ := if_pos rfl

theorem stepCharge_eq (b : Band) (k : StepKind) (r : HireRecord) :
    stepCharge b k r =
      r.stepped b k (stepOutcome r.capped r.running (b.stepAmount k * b.factor r.level + r.carry)) := by
  unfold stepCharge stepOutcome fareCap
  cases hc : r.capped
  · simp only [Bool.false_eq_true, if_false]
    split <;> cases k <;> rfl
  · cases k <;> rfl

/-- What a step adds to the one charge of its kind it adds to both together. -/
theorem StepKind.split_sum (k : StepKind) (q : Nat) :
    (if k = .distance then q else 0) + (if k = .time then q else 0) = q := by
  cases k
  · exact Nat.add_zero q
  · exact Nat.zero_add q

theorem HireRecord.stepped_charges (r : HireRecord) (b : Band) (k : StepKind) (o : StepOutcome) :
    (r.stepped b k o).distCharge + (r.stepped b k o).timeCharge = r.distCharge + r.timeCharge + o.charge := by
  have hsum := k.split_sum o.charge
  unfold HireRecord.stepped
  dsimp only
  omega

theorem HireRecord.stepped_running (r : HireRecord) (b : Band) (k : StepKind) (o : StepOutcome) :
    (r.stepped b k o).running = r.running + o.charge := by
  have hcharges := r.stepped_charges b k o
  have hflag : (r.stepped b k o).flagFall = r.flagFall := rfl
  have hextras : (r.stepped b k o).extrasSum = r.extrasSum := rfl
  unfold HireRecord.running
  omega

/-! ### All steps that are due (R31) -/

/-- The record with its accumulators set. -/
def HireRecord.withAcc (r : HireRecord) (d t : Nat) : HireRecord := { r with accD := d, accT := t }

/-- What steps leave of a record: all but charges, carry, undiscounted total and CAPPED. -/
def HireRecord.StepsTo (r r' : HireRecord) : Prop :=
  ∃ dist time carry total capped, r' =
    { r with distCharge := dist, timeCharge := time, carry := carry, undiscounted := total, capped := capped }

theorem stepCharge_stepsTo (b : Band) (k : StepKind) (r : HireRecord) : r.StepsTo (stepCharge b k r) := by
  rw [stepCharge_eq]
  exact ⟨_, _, _, _, _, rfl⟩

theorem HireRecord.StepsTo.trans {a b c : HireRecord} (hab : a.StepsTo b) (hbc : b.StepsTo c) : a.StepsTo c := by
  obtain ⟨_, _, _, _, _, rfl⟩ := hab
  obtain ⟨d, t, u, v, w, rfl⟩ := hbc
  exact ⟨d, t, u, v, w, rfl⟩

theorem stepTimes_stepsTo (b : Band) (k : StepKind) (n : Nat) : ∀ r : HireRecord, r.StepsTo (stepTimes b k n r) := by
  induction n with
  | zero => exact fun r => ⟨_, _, _, _, _, rfl⟩
  | succ n ih => exact fun r => (stepCharge_stepsTo b k r).trans (ih _)

/-- A step does not read the accumulators. -/
theorem stepCharge_withAcc (b : Band) (k : StepKind) (r : HireRecord) (d t : Nat) :
    stepCharge b k (r.withAcc d t) = (stepCharge b k r).withAcc d t := by
  rw [stepCharge_eq, stepCharge_eq]
  rfl

theorem stepCharge_undiscounted (b : Band) (k : StepKind) (r : HireRecord) :
    (stepCharge b k r).undiscounted = r.undiscounted + b.stepAmount k := by
  rw [stepCharge_eq]
  rfl

theorem stepTimes_undiscounted (b : Band) (k : StepKind) (n : Nat) : ∀ r : HireRecord,
    (stepTimes b k n r).undiscounted = r.undiscounted + b.stepAmount k * n := by
  induction n with
  | zero => exact fun r => rfl
  | succ n ih =>
    intro r
    rw [stepTimes, ih, stepCharge_undiscounted, Nat.mul_succ]
    omega

theorem stepTimes_withAcc (b : Band) (k : StepKind) (n : Nat) : ∀ (r : HireRecord) (d t : Nat),
    stepTimes b k n (r.withAcc d t) = (stepTimes b k n r).withAcc d t := by
  induction n with
  | zero => exact fun _ _ _ => rfl
  | succ n ih =>
    intro r d t
    rw [stepTimes, stepCharge_withAcc, ih]
    rfl

/-- The steps of a slot end, counted from the accumulators before them: first those of distance, then those of time (R31). -/
theorem HireRecord.takeSteps_eq (r : HireRecord) (sn : Snapshot) :
    r.takeSteps sn =
      (stepTimes sn.band .time (r.accT / sn.band.lt) (stepTimes sn.band .distance (r.accD / sn.threshold) r)).withAcc
        (r.accD % sn.threshold) (r.accT % sn.band.lt) := by
  have hdist : stepTimes sn.band .distance (r.accD / sn.threshold) { r with accD := r.accD % sn.threshold }
      = (stepTimes sn.band .distance (r.accD / sn.threshold) r).withAcc (r.accD % sn.threshold) r.accT :=
    stepTimes_withAcc _ _ _ r _ _
  unfold HireRecord.takeSteps
  rw [hdist]
  exact stepTimes_withAcc sn.band .time _ (stepTimes sn.band .distance (r.accD / sn.threshold) r) _ _

section
variable (r : HireRecord) (sn : Snapshot)

theorem HireRecord.takeSteps_accD : (r.takeSteps sn).accD = r.accD % sn.threshold := by rw [takeSteps_eq]; rfl

theorem HireRecord.takeSteps_accT : (r.takeSteps sn).accT = r.accT % sn.band.lt := by rw [takeSteps_eq]; rfl

theorem HireRecord.takeSteps_undiscounted :
    (r.takeSteps sn).undiscounted =
      r.undiscounted + sn.band.sd * (r.accD / sn.threshold) + sn.band.st * (r.accT / sn.band.lt) := by
  rw [takeSteps_eq]
  show (stepTimes _ _ _ _).undiscounted = _
  rw [stepTimes_undiscounted, stepTimes_undiscounted]
  rfl

/-- While a distance step is due, the steps begin with it (R31). -/
theorem HireRecord.takeSteps_distance (hpos : 0 < sn.threshold) (hdue : sn.threshold ≤ r.accD) :
    r.takeSteps sn = (stepCharge sn.band .distance { r with accD := r.accD - sn.threshold }).takeSteps sn := by
  have hacc : ({ r with accD := r.accD - sn.threshold } : HireRecord) = r.withAcc (r.accD - sn.threshold) r.accT := rfl
  rw [hacc, stepCharge_withAcc, takeSteps_eq, takeSteps_eq, stepTimes_withAcc, stepTimes_withAcc]
  show _ = (stepTimes sn.band .time (r.accT / sn.band.lt) (stepTimes sn.band .distance ((r.accD - sn.threshold) / sn.threshold)
    (stepCharge sn.band .distance r))).withAcc ((r.accD - sn.threshold) % sn.threshold) (r.accT % sn.band.lt)
  rw [Nat.div_eq_sub_div hpos hdue, ← Nat.mod_eq_sub_mod hdue]
  rfl

/-- With no distance step due, the steps begin with a time step that is (R31). -/
theorem HireRecord.takeSteps_time (hpos : 0 < sn.band.lt) (hno : r.accD < sn.threshold) (hdue : sn.band.lt ≤ r.accT) :
    r.takeSteps sn = (stepCharge sn.band .time { r with accT := r.accT - sn.band.lt }).takeSteps sn := by
  have hacc : ({ r with accT := r.accT - sn.band.lt } : HireRecord) = r.withAcc r.accD (r.accT - sn.band.lt) := rfl
  rw [hacc, stepCharge_withAcc, takeSteps_eq, takeSteps_eq, stepTimes_withAcc, stepTimes_withAcc]
  show _ = (stepTimes sn.band .time ((r.accT - sn.band.lt) / sn.band.lt) (stepTimes sn.band .distance (r.accD / sn.threshold)
    (stepCharge sn.band .time r))).withAcc (r.accD % sn.threshold) ((r.accT - sn.band.lt) % sn.band.lt)
  rw [Nat.div_eq_of_lt hno, Nat.div_eq_sub_div hpos hdue, ← Nat.mod_eq_sub_mod hdue]
  rfl

/-- With no step due none is taken (R31). -/
theorem HireRecord.takeSteps_none (hd : r.accD < sn.threshold) (ht : r.accT < sn.band.lt) : r.takeSteps sn = r := by
  rw [takeSteps_eq, Nat.div_eq_of_lt hd, Nat.div_eq_of_lt ht, Nat.mod_eq_of_lt hd, Nat.mod_eq_of_lt ht]
  rfl

end

/-- Settles O20. -/
theorem creditBecomesStepsChargedWithinTheCap : Obligations.CreditBecomesStepsChargedWithinTheCap := by
  refine ⟨fun b p r => r.creditSlot_eq b p, fun sn r hd ht => ?_, fun b k r f hf amount raw hamount hraw => ?_⟩
  · refine ⟨?_, ?_, ?_, ?_, r.takeSteps_undiscounted sn, r.takeSteps_distance sn hd, r.takeSteps_time sn ht,
      r.takeSteps_none sn⟩
    · rw [r.takeSteps_accD]
      exact Nat.mod_lt _ hd
    · rw [r.takeSteps_accT]
      exact Nat.mod_lt _ ht
    · rw [r.takeSteps_accD]
      exact (Nat.mod_add_div _ _).symm
    · rw [r.takeSteps_accT]
      exact (Nat.mod_add_div _ _).symm
  · rw [← Band.stepAmount_eq] at hamount
    rw [← Band.factor_of_level hf, hamount] at hraw
    rw [← Band.factor_of_level hf, hamount]
    rw [stepCharge_eq, ← hraw]
    refine ⟨fun hc hle => ?_, fun hc hrun hlt => ?_, fun hc => ?_⟩
    · rw [hc, stepOutcome_below_cap hle, r.stepped_charges]
      refine ⟨by rw [← hc]; rfl, ?_⟩
      show 1000 * (r.distCharge + r.timeCharge + raw / 1000) + raw % 1000 = _
      omega
    · rw [hc, stepOutcome_at_cap hlt, r.stepped_running]
      exact ⟨rfl, Nat.add_sub_of_le hrun⟩
    · rw [hc, stepOutcome_capped, ← hc]
      cases k <;> rfl

/-! ### Speed and sharing level (R32, R36) -/

theorem nextCharging_combined {b : Band} (h : b.mode = .combined) (v : Nat) (c : Option Charging) :
    nextCharging b v c = c := by
  unfold nextCharging
  rw [h]

section
variable {b : Band} (h : b.mode = .switched) (v : Nat)
include h

theorem nextCharging_time :
    nextCharging b v (some .time) = if b.vs + b.vh ≤ v then some .dist else some .time := by
  unfold nextCharging
  rw [h]

theorem nextCharging_dist :
    nextCharging b v (some .dist) = if v < b.vs - b.vh then some .time else some .dist := by
  unfold nextCharging
  rw [h]

end

theorem State.sharingLevel_exclusive (s : State) : s.sharingLevel .exclusive = 1 := if_neg fun h => Kind.noConfusion h.1

theorem State.sharingLevel_silent {s : State} (h : s.silent = true) (k : Kind) : s.sharingLevel k = 1 :=
  if_neg fun hk => Bool.false_ne_true (hk.2.symm.trans h)

/-- The rows of other addresses with a property, counted by address. -/
theorem State.peers_count (s : State) (p : PeerRow → Bool) :
    (s.peers.filter p).length = (allAddrs.filter fun a => a != s.addr && p (s.peer.rows.get a)).length := by
  unfold State.peers
  rw [List.filter_map, List.length_map, List.filter_filter]
  congr 2
  funext a
  rw [Bool.and_comm, Function.comp_apply]
  rw [Bool.eq_iff_iff]
  simp

/-- Settles O21. -/
theorem speedAndSharingLevelSetTheRate : Obligations.SpeedAndSharingLevelSetTheRate := by
  refine ⟨fun s => ⟨s.sharingLevel_exclusive, fun k hsil => State.sharingLevel_silent hsil k, fun hsil => ?_⟩,
    fun b k sum hv => ⟨fun hmode => ?_, fun hmode => nextCharging_combined hmode _ _⟩⟩
  · unfold State.sharingLevel
    rw [if_pos ⟨rfl, hsil⟩, State.peers_count]
    simp only [PeerRow.isHired, Bool.and_assoc]
  · rw [nextCharging_time hmode, nextCharging_dist hmode]
    unfold speedOf
    have hhyst : ∀ v : Nat, v < b.vs - b.vh ↔ v + b.vh < b.vs := by omega
    simp only [hhyst]
    refine ⟨?_, ?_, ?_, ?_⟩ <;> split <;> simp <;> omega

/-! ### The due (R39) -/

/-- Settles O22. -/
theorem dueIsRoundedAndToppedUpWithinTheCap : Obligations.DueIsRoundedAndToppedUpWithinTheCap := by
  intro r fmin base extras rounding topUp hbase hextras hcap hround htop
  have hroundOver : ((if 500 ≤ r.carry then 1 else 0) == 1 && decide (999999 < base + 1 + extras))
      = decide (500 ≤ r.carry ∧ 999999 < base + 1 + extras) := by
    by_cases hc : 500 ≤ r.carry <;> simp [hc]
  have hrounding : (if decide (500 ≤ r.carry ∧ 999999 < base + 1 + extras) = true then 0
      else if 500 ≤ r.carry then 1 else 0) = rounding := by
    rw [hround]
    by_cases hc : 500 ≤ r.carry <;> by_cases hover : 999999 < base + 1 + extras <;> simp [hc, hover]
  have htopUp : (if (decide (0 < fmin - (base + rounding))
        && decide (999999 < base + rounding + (fmin - (base + rounding)) + extras)) = true
      then 999999 - (base + rounding + extras) else fmin - (base + rounding)) = topUp := by
    rw [htop]
    split <;> rename_i hover <;> simp only [Bool.and_eq_true, decide_eq_true_eq] at hover <;> omega
  refine ⟨?_, ?_, ?_⟩
  · unfold HireRecord.fixDue fareCap
    dsimp only
    rw [← hbase, ← hextras]
    simp only [hroundOver, hrounding, htopUp]
    simp
  · have hone : rounding ≤ 1 ∧ (rounding = 1 → base + 1 + extras ≤ 999999) := by
      rw [hround]
      split <;> omega
    omega
  · omega

end Sys2Proof.Machine
end

section
/-! PROOFS. Extras (O17). -/
namespace Sys2Proof.Machine
open Sys2Proof

/-! ### The checks of an EXTRA (R41) -/

/-- The definition that a code has in the image, if any (Table 4-1). -/
def extraDef (image : Option Image) (code : Nat) : Option ExtraDef := image.bind fun im => im.extra code

/-- The checks of R41 in the order of the rule, each with the reason of its failure. -/
def extraChecks (image : Option Image) (r : HireRecord) (stopped : Bool) (code amount : Nat) : List (Bool × Reason) :=
  [ (image.isNone, .noTariff), ((extraDef image code).isNone, .amountRange),
    (decide (6 ≤ r.extras.length), .extrasFull),
    (((extraDef image code).map fun d => decide (d.limit ≤ (r.extras.filter fun e => e.1 == code).length)).getD false,
      .extraLimit),
    (((extraDef image code).bind fun d => d.form r.party amount).isNone, .amountRange),
    (decide (999999 < r.capBase stopped + ((extraDef image code).bind fun d => d.form r.party amount).getD 0),
      .amountRange) ]

section
variable {image : Option Image} {r : HireRecord} {stopped : Bool} {code amount : Nat}

theorem checkExtra_undefined {im : Image} (hd : im.extra code = none) :
    checkExtra (some im) r stopped code amount = .error .amountRange := by
  unfold checkExtra
  simp only [hd]

/-- The checks of a defined code (R41). -/
theorem checkExtra_defined {im : Image} {d : ExtraDef} (hd : im.extra code = some d) :
    checkExtra (some im) r stopped code amount =
      if 6 ≤ r.extras.length then .error .extrasFull
      else if d.limit ≤ (r.extras.filter fun e => e.1 == code).length then .error .extraLimit
      else (d.form r.party amount).elim (.error .amountRange) fun a =>
        if 999999 < r.capBase stopped + a then .error .amountRange else .ok a := by
  unfold checkExtra
  simp only [hd]
  cases d.form r.party amount <;> rfl

/-- An EXTRA with a check that fails is refused with the reason of the first. -/
theorem checkExtra_error {reason : Reason}
    (h : ((extraChecks image r stopped code amount).find? fun c => c.1).map (fun c => c.2) = some reason) :
    checkExtra image r stopped code amount = .error reason := by
  simp only [extraChecks, firstReason_cons, List.find?_nil, Option.map_none, decide_eq_true_eq] at h
  cases image with
  | none =>
    cases h
    rfl
  | some im =>
    cases hd : im.extra code with
    | none =>
      have hdef : extraDef (some im) code = none := hd
      rw [checkExtra_undefined hd]
      simpa [hdef] using h
    | some d =>
      have hdef : extraDef (some im) code = some d := hd
      rw [checkExtra_defined hd]
      simp only [hdef, Option.isNone_some, Option.map_some, Option.getD_some, Option.bind_some, decide_eq_true_eq,
        Bool.false_eq_true, if_false] at h
      cases hform : d.form r.party amount with
      | none | some a =>
        simp only [hform, Option.isNone_none, Option.isNone_some, Option.getD_some, Bool.false_eq_true, if_false,
          if_true] at h
        dsimp only [Option.elim]
        split_ifs at h ⊢ <;> cases h <;> rfl

/-- An EXTRA that passes every check adds its amount. -/
theorem checkExtra_ok {im : Image} {d : ExtraDef} {a : Nat} (him : image = some im) (hd : im.extra code = some d)
    (hfull : r.extras.length < 6) (hlimit : (r.extras.filter fun e => e.1 == code).length < d.limit)
    (hform : d.form r.party amount = some a) (hcap : r.capBase stopped + a ≤ 999999) :
    checkExtra image r stopped code amount = .ok a := by
  rw [him, checkExtra_defined hd, if_neg (Nat.not_le.2 hfull), if_neg (Nat.not_le.2 hlimit), hform]
  exact if_neg (Nat.not_lt.2 hcap)

end

/-! ### A command that changes the extras (R15, R18, R40, R42) -/

theorem HireRecord.extrasSum_append (r : HireRecord) (code a : Nat) :
    ((r.extras ++ [(code, a)]).map fun e => e.2).sum = r.extrasSum + a := by
  rw [List.map_append, List.sum_append]
  rfl

section
variable {s : State} {src : Source} {seq : Nat} {f : State → State} {h : Hire} {extras : List (Nat × Nat)}

/-- New extras in HIRED stand in the record, and the command is answered. -/
theorem commandEvent_extrasHired (hr : s.supply.running = true) (hs : s.Hears src)
    (hf : f (s.took src seq) = ((s.took src seq).extrasHired h extras).replyTo src seq .done) :
    ∃ t, commandEvent src seq f s = .next t
      ∧ ({ s with hire := { s.hire with slot := .hired { h with rc := { h.rc with extras := extras } } }
                  display := s.display.cleared } : State).Kept t
      ∧ s.Replied t src seq .done :=
  event_replied hr ((State.command_heard hs f).trans hf)
    (s.took_onHire_kept src seq fun c => { c with slot := .hired (h.mapRec fun r => { r with extras := extras }) }).hireChanged
    (State.took_pending rfl) (s.took_silent src seq)

/-- New extras in STOPPED stand in the record with the due they make, HIRE_STOP carries it, and the command is answered. -/
theorem commandEvent_extrasStopped {due : Nat} (hr : s.supply.running = true) (hs : s.Hears src)
    (hf : f (s.took src seq) = ((s.took src seq).extrasStopped h extras).replyTo src seq .done)
    (hdue : due = h.rc.metered + h.rc.topUp.getD 0 + (extras.map fun e => e.2).sum) :
    ∃ t, commandEvent src seq f s = .next t
      ∧ ({ s with hire := { s.hire with slot := .stopped { h with rc := { h.rc with extras := extras, due := some due } } }
                  display := s.display.cleared } : State).Kept t
      ∧ s.Announced t (.stop h.rc.no due) ∧ s.Replied t src seq .done := by
  subst hdue
  exact commandEvent_told hr hs hf
    (s.took_onHire_kept src seq fun c =>
      { c with slot := .stopped (h.mapRec fun r => ({ r with extras := extras } : HireRecord).refixDue) }).hireChanged
    rfl (s.took_silent src seq)

end

/-! ### EXTRA and EXTRA_REMOVE by the state of the slot -/

section
variable {s : State} {h : Hire} (src : Source) (seq code amount : Nat)

theorem State.takeExtra_error {stopped : Bool} (hslot : s.hire.slot = if stopped then .stopped h else .hired h)
    {reason : Reason} (hc : checkExtra s.image h.rc stopped code amount = .error reason) :
    s.takeExtra src seq code amount = s.refuse src seq reason := by
  unfold State.takeExtra
  cases stopped <;> (rw [hslot]; simp only [Bool.false_eq_true, if_false, if_true, hc])

theorem State.takeExtra_hired (hslot : s.hire.slot = .hired h) {a : Nat}
    (hc : checkExtra s.image h.rc false code amount = .ok a) :
    s.takeExtra src seq code amount = (s.extrasHired h (h.rc.extras ++ [(code, a)])).replyTo src seq .done := by
  unfold State.takeExtra
  simp only [hslot, hc]

theorem State.takeExtra_stopped (hslot : s.hire.slot = .stopped h) {a : Nat}
    (hc : checkExtra s.image h.rc true code amount = .ok a) :
    s.takeExtra src seq code amount = (s.extrasStopped h (h.rc.extras ++ [(code, a)])).replyTo src seq .done := by
  unfold State.takeExtra
  simp only [hslot, hc]

theorem State.takeExtra_other (hslot : ∀ h, s.hire.slot ≠ .hired h ∧ s.hire.slot ≠ .stopped h) :
    s.takeExtra src seq code amount = s.refuse src seq .wrongState := by
  unfold State.takeExtra
  split
  · exact absurd ‹_› (hslot _).1
  · exact absurd ‹_› (hslot _).2
  all_goals rfl

theorem State.takeExtraRemove_empty (hslot : s.hire.slot = .hired h ∨ s.hire.slot = .stopped h)
    (hempty : h.rc.extras = []) : s.takeExtraRemove src seq = s.refuse src seq .wrongState := by
  unfold State.takeExtraRemove
  rcases hslot with hslot | hslot <;> rw [hslot] <;> exact if_pos (List.isEmpty_iff.2 hempty)

theorem State.takeExtraRemove_hired (hslot : s.hire.slot = .hired h) (hsome : h.rc.extras ≠ []) :
    s.takeExtraRemove src seq = (s.extrasHired h h.rc.extras.dropLast).replyTo src seq .done := by
  unfold State.takeExtraRemove
  rw [hslot]
  exact if_neg fun he => hsome (List.isEmpty_iff.1 he)

theorem State.takeExtraRemove_stopped (hslot : s.hire.slot = .stopped h) (hsome : h.rc.extras ≠ []) :
    s.takeExtraRemove src seq = (s.extrasStopped h h.rc.extras.dropLast).replyTo src seq .done := by
  unfold State.takeExtraRemove
  rw [hslot]
  exact if_neg fun he => hsome (List.isEmpty_iff.1 he)

theorem State.takeExtraRemove_other (hslot : ∀ h, s.hire.slot ≠ .hired h ∧ s.hire.slot ≠ .stopped h) :
    s.takeExtraRemove src seq = s.refuse src seq .wrongState := by
  unfold State.takeExtraRemove
  split
  · exact absurd ‹_› (hslot _).1
  · exact absurd ‹_› (hslot _).2
  all_goals rfl

end

/-- Settles O17. -/
theorem extrasAreAddedInOrderAndRemovedFromTheEnd : Obligations.ExtrasAreAddedInOrderAndRemovedFromTheEnd := by
  refine ⟨fun src seq code amount h stopped s hr hs hslot => ⟨fun r hfirst => ?_, fun im d a him hd hfull hlimit hform hcap => ?_⟩,
    fun src seq h s hr hs => ⟨fun hempty hslot => ?_, fun hsome hslot => ?_, fun hsome hslot => ?_⟩,
    fun src seq code amount s hr hs hslot => ⟨?_, ?_⟩⟩ <;> rw [← s.took_hire src seq] at hslot
  · refine commandEvent_refused (f := fun u => u.takeExtra src seq code amount) hr hs
      (State.takeExtra_error src seq code amount hslot ?_)
    rw [State.took_image]
    exact checkExtra_error hfirst
  · have hok : checkExtra (s.took src seq).image h.rc stopped code amount = .ok a :=
      checkExtra_ok ((s.took_image src seq).trans him) hd hfull hlimit hform hcap
    cases stopped with
    | false =>
      obtain ⟨t, ht, hk, hrep⟩ := commandEvent_extrasHired (f := fun u => u.takeExtra src seq code amount) hr hs
        (State.takeExtra_hired src seq code amount hslot hok)
      exact ⟨t, ht, fun _ => hk, fun hno => Bool.noConfusion hno, hrep⟩
    | true =>
      obtain ⟨t, ht, hk, ha, hrep⟩ := commandEvent_extrasStopped (f := fun u => u.takeExtra src seq code amount) hr hs
        (State.takeExtra_stopped src seq code amount hslot hok)
        (congrArg (h.rc.metered + h.rc.topUp.getD 0 + ·) (h.rc.extrasSum_append code a).symm)
      exact ⟨t, ht, fun hno => Bool.noConfusion hno, fun _ => ⟨hk, ha⟩, hrep⟩
  · exact commandEvent_refused (f := fun u => u.takeExtraRemove src seq) hr hs
      (State.takeExtraRemove_empty src seq hslot hempty)
  · exact commandEvent_extrasHired (f := fun u => u.takeExtraRemove src seq) hr hs
      (State.takeExtraRemove_hired src seq hslot hsome)
  · exact commandEvent_extrasStopped (f := fun u => u.takeExtraRemove src seq) hr hs
      (State.takeExtraRemove_stopped src seq hslot hsome) rfl
  · exact commandEvent_refused (f := fun u => u.takeExtraRemove src seq) hr hs
      (State.takeExtraRemove_other src seq hslot)
  · exact commandEvent_refused (f := fun u => u.takeExtra src seq code amount) hr hs
      (State.takeExtra_other src seq code amount hslot)

end Sys2Proof.Machine
end

section
/-! PROOFS. The slot end: what it counts and charges (O23). -/
namespace Sys2Proof.Machine
open Sys2Proof

/-! ### The count of a slot (R47 to R54) -/

theorem State.ringLimit_eq (s : State) :
    s.ringLimit = (s.hire.slot.hire?.map fun h => h.snap.pmax).getD
      ((s.image.map fun im => im.vmax * im.k / 36000).getD 500) := by
  unfold State.ringLimit
  cases s.hire.slot.hire? <;> rfl

/-- The pulse unit after a slot end (R49 to R52). -/
def State.slotPulse (s : State) : Pulse :=
  { raw := 0, ring := s.pulse.ring.drop 1 ++ [min s.pulse.raw s.ringLimit]
    fault := s.pulse.fault.next s.slotClamped, seen := s.pulse.fault.seenAt s.slotClamped, slot := some 1000 }

/-- The shift with the totals of a slot end added (R53, R54). -/
def State.slotShift (s : State) : Shift :=
  s.shift.added fun a => a.addSlot (min s.pulse.raw s.ringLimit) s.pulse.fault.second

/-- The station after a slot end's counting, charging and totals, before anything is offered again. -/
def State.slotCounted (s : State) : State :=
  (s.countSlot.fareSlotEnd (s.pulse.fault.seenAt s.slotClamped)).account
    fun a => a.addSlot (min s.pulse.raw s.ringLimit) s.pulse.fault.second

theorem State.slotEnd_eq (s : State) : s.slotEnd = s.slotCounted.reoffer.reofferJobs := rfl

/-- The hire controller once its HIRED hire has been charged for a slot (R28). -/
def State.slotCharged (s : State) (h : Hire) : HireCtl :=
  { s.hire with
    slot := .hired (h.slotEnd s.hire.tally (s.sharingLevel h.rc.kind) s.slotPulse.ring.sum s.clock.seconds
      s.slotPulse.seen)
    tally := 0
    speed := s.slotPulse.ring.sum * 18000 / h.snap.k }

theorem State.slotCounted_hired {s : State} {h : Hire} (hslot : s.hire.slot = .hired h) :
    s.slotCounted = { s with pulse := s.slotPulse, shift := s.slotShift, hire := s.slotCharged h } := by
  have hfare : s.countSlot.fareSlotEnd (s.pulse.fault.seenAt s.slotClamped)
      = ({ s with pulse := s.slotPulse, hire := s.slotCharged h } : State) := by
    unfold State.fareSlotEnd
    rw [show s.countSlot.hire.slot = .hired h from hslot]
    rfl
  unfold State.slotCounted
  rw [hfare, State.account_eq]
  rfl

theorem State.slotCounted_other {s : State} (hslot : ∀ h : Hire, s.hire.slot ≠ .hired h) :
    s.slotCounted = { s with pulse := s.slotPulse, shift := s.slotShift } := by
  have hfare : s.countSlot.fareSlotEnd (s.pulse.fault.seenAt s.slotClamped) = ({ s with pulse := s.slotPulse } : State) := by
    unfold State.fareSlotEnd
    split
    · exact absurd ‹_› (hslot _)
    all_goals rfl
  unfold State.slotCounted
  rw [hfare, State.account_eq]
  rfl

/-! ### What credit and steps leave of a record -/

/-- `b` has the use, the fault mark and the level of `a` (R28, R33, R37). -/
def HireRecord.SameUse (a b : HireRecord) : Prop :=
  b.paidPulses = a.paidPulses ∧ b.hiredTenths = a.hiredTenths ∧ b.pulseFault = a.pulseFault ∧ b.level = a.level

theorem HireRecord.creditSlot_sameUse (r : HireRecord) (b : Band) (p : Nat) : r.SameUse (r.creditSlot b p) := by
  rw [HireRecord.creditSlot_eq]
  exact ⟨rfl, rfl, rfl, rfl⟩

theorem HireRecord.takeSteps_sameUse (r : HireRecord) (sn : Snapshot) : r.SameUse (r.takeSteps sn) := by
  obtain ⟨_, _, _, _, _, hsteps⟩ :=
    (stepTimes_stepsTo sn.band .distance (r.accD / sn.threshold) r).trans
      (stepTimes_stepsTo sn.band .time (r.accT / sn.band.lt) _)
  rw [HireRecord.takeSteps_eq, hsteps]
  exact ⟨rfl, rfl, rfl, rfl⟩

theorem HireRecord.slot_sameUse (r : HireRecord) (sn : Snapshot) (p : Nat) :
    r.SameUse ((r.creditSlot sn.band p).takeSteps sn) := by
  obtain ⟨h1, h2, h3, h4⟩ := r.creditSlot_sameUse sn.band p
  obtain ⟨g1, g2, g3, g4⟩ := (r.creditSlot sn.band p).takeSteps_sameUse sn
  exact ⟨g1.trans h1, g2.trans h2, g3.trans h3, g4.trans h4⟩

/-! ### Print jobs and held frames are offered again (Table 5-4, R180) -/

theorem State.Kept.onClose {s t : State} (h : s.Kept t) (f : Close → Close) : (s.onClose f).Kept (t.onClose f) :=
  { h with close := congrArg f h.close }

theorem State.Kept.addJob {s t : State} (h : s.Kept t) (j : Job) : (s.addJob j).Kept (t.addJob j) :=
  { h with jobs := congrArg (· ++ [j]) h.jobs }

theorem State.Kept.printFull {s t : State} (h : s.Kept t) : t.print.full = s.print.full := by
  unfold Print.full
  rw [h.jobs]

theorem State.Kept.offerReport {s t : State} (h : s.Kept t) : s.offerReport.Kept t.offerReport := by
  unfold State.offerReport
  rw [h.printFull]
  split
  · exact h.onClose _
  · exact (h.onClose _).addJob _

theorem State.Kept.offerSlip {s t : State} (h : s.Kept t) (a : Addr) : (s.offerSlip a).Kept (t.offerSlip a) := by
  unfold State.offerSlip
  rw [h.printFull]
  split
  · exact h.onClose _
  · exact (h.onClose _).addJob _

theorem State.Kept.offerSlips (slips : List Addr) : ∀ {s t : State}, s.Kept t →
    (slips.foldl State.offerSlip s).Kept (slips.foldl State.offerSlip t) := by
  induction slips with
  | nil => exact fun h => h
  | cons a slips ih => exact fun h => ih (h.offerSlip a)

/-- The print jobs that wait go by the close table and the job list alone. -/
theorem State.Kept.reofferJobs {s t : State} (h : s.Kept t) : s.reofferJobs.Kept t.reofferJobs := by
  have hreport : (if s.close.reportHeld then s.offerReport else s).Kept
      (if t.close.reportHeld then t.offerReport else t) := by
    rw [h.close]
    split
    · exact h.offerReport
    · exact h
  unfold State.reofferJobs
  dsimp only
  rw [hreport.close]
  exact .offerSlips _ hreport

/-- The station once it has dropped each held SHIFT_REFUSE whose conditions stand no more (R160). -/
def State.heldStanding (s : State) : State :=
  s.onShift fun sh => { sh with held := sh.held.filter fun f => s.standsHeld f }

theorem State.offerAll_eq (os : List Offer) : ∀ s : State, os.foldl State.offer s = { s with offers := s.offers ++ os } := by
  induction os with
  | nil => exact fun s => by rw [List.append_nil]; rfl
  | cons o os ih =>
    intro s
    rw [List.foldl_cons, ih]
    show ({ s with offers := s.offers ++ [o] ++ os } : State) = _
    rw [List.append_assoc]
    rfl

theorem State.reoffer_eq (s : State) :
    s.reoffer = { s.heldStanding with offers := s.offers ++ s.heldStanding.heldOffers } := State.offerAll_eq _ s.heldStanding

theorem State.reoffer_kept (s : State) : s.Kept s.reoffer := by
  rw [State.reoffer_eq]
  exact { State.Kept.refl s with
    shift := fun hp => ⟨rfl, rfl, rfl, rfl, rfl, rfl, rfl, rfl, hp, rfl, rfl, rfl⟩ }

/-- A slot end leaves the counted station with its waiting jobs offered again, but for what `State.Kept` leaves out. -/
theorem execSlotEnd_kept {s : State} (hr : s.supply.running = true) (hp : s.pulse.slot ≠ none) :
    ∃ t, exec .slotEnd s = .next t ∧ s.slotCounted.reofferJobs.Kept t := by
  refine event_kept hr ?_
  unfold State.takeSlotEnd
  rw [if_pos (Option.isSome_iff_ne_none.2 hp), State.slotEnd_eq]
  exact s.slotCounted.reoffer_kept.reofferJobs

end Sys2Proof.Machine
end

section
/-! PROOFS. The slot end: what it offers again, with room in the transmit queue and with none (O23). -/
namespace Sys2Proof.Machine
open Sys2Proof

/-! ### What a taken offer leaves held (Table 5-4) -/

/-- A taken hire event may refresh the beacon, and is held no longer (R84). -/
theorem State.offerTaken_hireEvent (s : State) :
    ∃ p l, s.offerTaken .hireEvent = { s with hire := { s.hire with event := none }, peer := p, link := l } := by
  unfold State.offerTaken
  dsimp only
  split <;> exact ⟨_, _, rfl⟩

section
variable (s : State) (o : Offer)

theorem State.offerTaken_reply : (s.offerTaken o).hire.reply = if o = .reply then none else s.hire.reply := by
  cases o with
  | hireEvent => obtain ⟨p, l, h⟩ := s.offerTaken_hireEvent; rw [h]; rfl
  | _ => rfl

theorem State.offerTaken_claim :
    ((s.offerTaken o).hire.slot, (s.offerTaken o).hire.claimHeld) =
      if o = .claim then (s.hire.slot, false) else (s.hire.slot, s.hire.claimHeld) := by
  cases o with
  | hireEvent => obtain ⟨p, l, h⟩ := s.offerTaken_hireEvent; rw [h]; rfl
  | _ => rfl

theorem State.offerTaken_event : (s.offerTaken o).hire.event = if o = .hireEvent then none else s.hire.event := by
  cases o with
  | hireEvent => obtain ⟨p, l, h⟩ := s.offerTaken_hireEvent; rw [h]; rfl
  | _ => rfl

theorem State.offerTaken_objects (a : Addr) :
    (s.offerTaken o).hire.objects.count a =
      if o = .object a then s.hire.objects.count a - 1 else s.hire.objects.count a := by
  cases o with
  | hireEvent => obtain ⟨p, l, h⟩ := s.offerTaken_hireEvent; rw [h]; rfl
  | object b =>
    show (s.hire.objects.erase b).count a = _
    rw [List.count_erase]
    by_cases hab : b = a <;> simp [hab]
  | _ => rfl

theorem State.offerTaken_events :
    (s.offerTaken o).intercom.events.length ≤
      if o = .intercom then s.intercom.events.length - 1 else s.intercom.events.length := by
  cases o with
  | hireEvent => obtain ⟨p, l, h⟩ := s.offerTaken_hireEvent; rw [h]; exact Nat.le_refl _
  | intercomNew e => exact List.length_erase_le
  | intercom => exact List.length_tail.le
  | _ => exact Nat.le_refl _

theorem State.offerTaken_held (f : ShiftFrame) :
    (s.offerTaken o).shift.held.count f =
      if o = .shiftFrame f then s.shift.held.count f - 1 else s.shift.held.count f := by
  cases o with
  | hireEvent => obtain ⟨p, l, h⟩ := s.offerTaken_hireEvent; rw [h]; rfl
  | shiftFrame g =>
    show (s.shift.held.erase g).count f = _
    rw [List.count_erase]
    by_cases hgf : g = f <;> simp [hgf]
  | _ => rfl

theorem State.offerTaken_tx :
    (s.offerTaken o).shift.tx = if o = .summary then s.shift.tx.map fun t => { t with held := false } else s.shift.tx := by
  cases o with
  | hireEvent => obtain ⟨p, l, h⟩ := s.offerTaken_hireEvent; rw [h]; rfl
  | _ => rfl

theorem State.offerTaken_lateTx :
    (s.offerTaken o).shift.lateTx =
      if o = .lateSummary then s.shift.lateTx.map fun t => { t with held := false } else s.shift.lateTx := by
  cases o with
  | hireEvent => obtain ⟨p, l, h⟩ := s.offerTaken_hireEvent; rw [h]; rfl
  | _ => rfl

theorem State.offerTaken_transfer :
    (s.offerTaken o).print.transfer =
      if o = .recordQuery then s.print.transfer.map fun t => { t with queryHeld := false } else s.print.transfer := by
  cases o with
  | hireEvent => obtain ⟨p, l, h⟩ := s.offerTaken_hireEvent; rw [h]; rfl
  | _ => rfl

theorem State.offerTaken_serve :
    (s.offerTaken o).print.serve =
      if o = .recordPart then s.print.serve.map fun t => { t with held := false } else s.print.serve := by
  cases o with
  | hireEvent => obtain ⟨p, l, h⟩ := s.offerTaken_hireEvent; rw [h]; rfl
  | _ => rfl

end

/-! ### With room in the queue every offer is taken (R81, Table 5-3) -/

theorem Link.refresh_length (l : Link) (payload : List Byte) : (l.refresh payload).queue.length = l.queue.length := by
  unfold Link.refresh
  split
  · rfl
  · split
    · exact List.length_map _
    · rfl

theorem State.offerTaken_length (s : State) (o : Offer) : (s.offerTaken o).link.queue.length = s.link.queue.length := by
  cases o with
  | hireEvent =>
    unfold State.offerTaken
    dsimp only
    split
    · exact Link.refresh_length _ _
    · rfl
  | _ => rfl

/-- With at most 12 entries queued a frame of any class that is not replaced is taken. -/
theorem Link.offer_admitted {l : Link} {cls : Nat} (hclash : l.clash = false) (hlen : l.queue.length ≤ 12)
    (hcls : replaceable cls = false) (now : Nat) (payload : List Byte) (tag : Tag) :
    ∃ l', l.offer now cls payload tag = some l' ∧ l'.queue.length = l.queue.length + 1 := by
  have hadmits : l.admits cls = true := by
    unfold Link.admits Link.freeEntries queueSize
    rw [decide_eq_true (by omega : 4 ≤ 16 - l.queue.length)]
    rfl
  unfold Link.offer
  rw [if_neg (by simp [hclash]), if_neg (by simp [hcls]), if_pos hadmits]
  exact ⟨_, rfl, insertEntry_length _ _⟩

theorem mem_of_mem_without {α : Type} {x y : α} {xs ys : List α} (h : x ∈ xs ++ ys) : x ∈ xs ++ y :: ys :=
  List.mem_append.2 ((List.mem_append.1 h).imp_right (List.mem_cons_of_mem y))

theorem mem_without_of_ne {α : Type} {x y : α} {xs ys : List α} (h : x ∈ xs ++ y :: ys) (hne : x ≠ y) : x ∈ xs ++ ys :=
  List.mem_append.2 ((List.mem_append.1 h).imp_right fun hx => (List.mem_cons.1 hx).resolve_left hne)

/-- The queue has room for these offers, and none of them replaces a queued frame. -/
structure State.HasRoom (s : State) (os : List Offer) : Prop where
  awake : s.silent = false
  room  : s.link.queue.length + os.length ≤ 13
  fresh : ∀ o ∈ os, replaceable o.cls = false

section
variable {s : State} {o : Offer} {os os' : List Offer}

/-- With room an offer that finds its frame held is taken and queued, and there is room for the others. -/
theorem State.HasRoom.tryOffer (h : s.HasRoom (os ++ o :: os')) :
    (s.tryOffer o).HasRoom (os ++ os')
      ∧ (s.offered o = none ∧ s.tryOffer o = s
        ∨ ∃ payload tag l, s.offered o = some (payload, tag) ∧ s.tryOffer o = (s.onLink fun _ => l).offerTaken o
          ∧ (s.tryOffer o).link.Carries o.cls payload) := by
  obtain ⟨hawake, hroom, hfresh⟩ := h
  have hrest : ∀ x ∈ os ++ os', replaceable x.cls = false := fun x hx => hfresh x (mem_of_mem_without hx)
  have hcls : replaceable o.cls = false := hfresh o (List.mem_append_right _ List.mem_cons_self)
  simp only [List.length_append, List.length_cons] at hroom
  cases hoff : s.offered o with
  | none =>
    have hsame : s.tryOffer o = s := by
      unfold State.tryOffer
      rw [hoff]
    rw [hsame]
    exact ⟨⟨hawake, by rw [List.length_append]; omega, hrest⟩, Or.inl ⟨rfl, rfl⟩⟩
  | some f =>
    obtain ⟨payload, tag⟩ := f
    obtain ⟨l, hl, hlen⟩ := Link.offer_admitted hawake (by omega) hcls s.now payload tag
    have htaken : s.tryOffer o = (s.onLink fun _ => l).offerTaken o := by
      unfold State.tryOffer
      rw [hoff]
      dsimp only
      rw [hl]
    have hcarries : l.Carries o.cls payload := Link.offer_new hl hcls
    have h06 : o.cls ≠ 0 ∧ o.cls ≠ 6 := by simpa [replaceable] using hcls
    refine ⟨⟨(s.tryOffer_kept o).clash.trans hawake, ?_, hrest⟩, Or.inr ⟨payload, tag, l, rfl, htaken, ?_⟩⟩
    · rw [htaken, State.offerTaken_length, List.length_append]
      show l.queue.length + _ ≤ _
      omega
    · rw [htaken]
      exact ((s.onLink fun _ => l).offerTaken_kept o).queued _ _ h06.1 h06.2 hcarries

end

/-- What a block holds, apart from the link: the four blocks that hold frames for re-offer. -/
structure Holders where
  hire     : HireCtl
  intercom : Intercom
  shift    : Shift
  print    : Print

def State.holders (s : State) : Holders := ⟨s.hire, s.intercom, s.shift, s.print⟩

section
variable {s : State}

/-- With room, what `count` counts of the frames held for one offer goes down each time the offer is made: offered as often as it
is held, nothing of it is held after the offers. -/
theorem State.HasRoom.drained {count : Holders → Nat} {o : Offer} (h : s.HasRoom s.offers)
    (hnone : ∀ u : State, u.offered o = none → count u.holders = 0)
    (htaken : ∀ (u : State) (x : Offer),
      count (u.offerTaken x).holders ≤ if x = o then count u.holders - 1 else count u.holders)
    (hcount : count s.holders ≤ s.offers.count o) : count s.flushOffers.holders = 0 := by
  refine Nat.le_zero.1 (flush_tracks (P := fun os u => u.HasRoom os ∧ count u.holders ≤ os.count o) ?_
    (fun os u os' n hP => ⟨⟨hP.1.awake, hP.1.room, hP.1.fresh⟩, hP.2⟩) ⟨h, hcount⟩).2
  rintro os x os' u ⟨hroom, hle⟩
  obtain ⟨hrest, hcase⟩ := hroom.tryOffer
  refine ⟨hrest, ?_⟩
  rw [List.count_append, List.count_cons] at hle
  rw [List.count_append]
  obtain ⟨hoff, hsame⟩ | ⟨payload, tag, l, -, htake, -⟩ := hcase
  · rw [hsame]
    by_cases hx : x = o
    · rw [hnone u (hx ▸ hoff)]
      exact Nat.zero_le _
    · simpa [hx] using hle
  · have hdown := htaken (u.onLink fun _ => l) x
    rw [htake]
    by_cases hx : x = o
    · rw [if_pos hx] at hdown
      simp only [hx, beq_self_eq_true, if_true] at hle
      exact hdown.trans (Nat.sub_le_iff_le_add.2 (by rw [Nat.add_assoc]; exact hle))
    · rw [if_neg hx] at hdown
      simp only [beq_iff_eq, hx, if_false] at hle
      exact hdown.trans hle

/-- With room, an item that its own offer alone releases is released and its frame queued. -/
theorem State.HasRoom.sent {α : Type} {item : Holders → α} {x : α} {release : α → α} {o : Offer} {payload : List Byte}
    (h : s.HasRoom s.offers) (hx : item s.holders = x) (ho : o ∈ s.offers)
    (hoff : ∀ u : State, item u.holders = x → ∃ tag, u.offered o = some (payload, tag))
    (htaken : ∀ (u : State) (y : Offer),
      item (u.offerTaken y).holders = if y = o then release (item u.holders) else item u.holders)
    (htwice : release (release x) = release x) :
    item s.flushOffers.holders = release x ∧ s.flushOffers.link.Carries o.cls payload := by
  have h06 : o.cls ≠ 0 ∧ o.cls ≠ 6 := by simpa [replaceable] using h.fresh o ho
  refine ((flush_tracks (P := fun os u => u.HasRoom os ∧ (o ∈ os ∧ item u.holders = x
      ∨ item u.holders = release x ∧ u.link.Carries o.cls payload)) ?_
    (fun os u os' n hP => ⟨⟨hP.1.awake, hP.1.room, hP.1.fresh⟩, hP.2⟩) ⟨h, Or.inl ⟨ho, hx⟩⟩).2).resolve_left
    fun hno => List.not_mem_nil hno.1
  rintro os y os' u ⟨hroom, hitem⟩
  obtain ⟨hrest, hcase⟩ := hroom.tryOffer
  refine ⟨hrest, ?_⟩
  obtain ⟨hnone, hsame⟩ | ⟨p, tag, l, hsome, htake, hcarries⟩ := hcase
  · rw [hsame]
    refine hitem.imp_left fun ⟨hmem, hheld⟩ => ⟨?_, hheld⟩
    obtain ⟨tag, hsome⟩ := hoff u hheld
    have hne : o ≠ y := by
      rintro rfl
      exact Option.some_ne_none _ (hsome.symm.trans hnone)
    exact mem_without_of_ne hmem hne
  · have hitem' : item (u.tryOffer y).holders = if y = o then release (item u.holders) else item u.holders := by
      rw [htake]
      exact htaken (u.onLink fun _ => l) y
    by_cases hy : y = o
    · subst hy
      rw [if_pos rfl] at hitem'
      refine Or.inr ?_
      obtain ⟨-, hheld⟩ | ⟨hgone, hqueued⟩ := hitem
      · obtain ⟨tag', hsome'⟩ := hoff u hheld
        cases hsome.symm.trans hsome'
        exact ⟨by rw [hitem', hheld], hcarries⟩
      · exact ⟨by rw [hitem', hgone, htwice], (u.tryOffer_kept y).queued _ _ h06.1 h06.2 hqueued⟩
    · rw [if_neg hy] at hitem'
      rw [hitem']
      exact hitem.imp (fun ⟨hmem, hheld⟩ => ⟨mem_without_of_ne hmem (Ne.symm hy), hheld⟩) fun ⟨hgone, hqueued⟩ =>
        ⟨hgone, (u.tryOffer_kept y).queued _ _ h06.1 h06.2 hqueued⟩

end

end Sys2Proof.Machine
end

section
/-! PROOFS. The slot end: the frames held for re-offer, and what becomes of them (O23). -/
namespace Sys2Proof.Machine
open Sys2Proof

/-! ### What is held for re-offer (Table 5-4) -/

/-- The blocks hold a frame that this offer would make. -/
def State.Holds (s : State) : Offer → Prop
  | .reply => s.hire.reply.isSome = true
  | .claim => s.hire.claimHeld = true
  | .object a => a ∈ s.hire.objects
  | .hireEvent => s.hire.event.isSome = true
  | .intercom => s.intercom.events ≠ []
  | .shiftFrame f => f ∈ s.shift.held
  | .summary => ∃ t, s.shift.tx = some t ∧ t.held = true
  | .lateSummary => ∃ t, s.shift.lateTx = some t ∧ t.held = true
  | .recordQuery => ∃ t, s.print.transfer = some t ∧ t.queryHeld = true
  | .recordPart => ∃ t, s.print.serve = some t ∧ t.held = true
  | .distress => False
  | .command _ => False
  | .intercomNew _ => False
  | .shiftRepeat => False
  | .beacon => False

theorem getD_map_eq_true {α : Type} (x : Option α) (p : α → Bool) :
    (x.map p).getD false = true ↔ ∃ t, x = some t ∧ p t = true := by
  cases x <;> simp

theorem State.mem_heldOffers (s : State) (o : Offer) : o ∈ s.heldOffers ↔ s.Holds o := by
  unfold State.heldOffers
  simp only [List.mem_append, List.mem_ite_nil_right, List.mem_singleton, List.mem_map, getD_map_eq_true, or_assoc]
  cases o <;> simp [State.Holds, ← List.isEmpty_eq_false_iff, List.isEmpty_eq_false_iff_exists_mem]

theorem State.Holds.fresh {s : State} {o : Offer} (h : s.Holds o) : replaceable o.cls = false := by
  cases o with
  | distress | beacon => exact h.elim
  | _ => rfl

section
variable (s : State)

theorem State.count_heldOffers_object (a : Addr) : s.hire.objects.count a ≤ s.heldOffers.count (.object a) := by
  have hmap : (s.hire.objects.map Offer.object).count (.object a) = s.hire.objects.count a :=
    List.count_map_of_injective _ _ (fun _ _ h => Offer.object.inj h) _
  simp only [State.heldOffers, List.count_append, hmap]
  omega

/-- What is held for an offer made once is offered as often as it is held. -/
theorem State.count_heldOffers_single {s : State} {α : Type} {x : Option α} {o : Offer} (h : x.isSome = true → s.Holds o) :
    x.toList.length ≤ s.heldOffers.count o := by
  cases x with
  | none => exact Nat.zero_le _
  | some a => exact List.count_pos_iff.2 ((s.mem_heldOffers o).2 (h rfl))

theorem State.count_heldOffers_intercom : s.intercom.events.length ≤ s.heldOffers.count .intercom := by
  have hmap : (s.intercom.events.map fun _ => Offer.intercom).count .intercom = s.intercom.events.length := by
    rw [List.map_const', List.count_replicate_self]
  simp only [State.heldOffers, List.count_append, hmap]
  omega

theorem State.count_heldOffers_shiftFrame (f : ShiftFrame) : s.shift.held.count f ≤ s.heldOffers.count (.shiftFrame f) := by
  have hmap : (s.shift.held.map Offer.shiftFrame).count (.shiftFrame f) = s.shift.held.count f :=
    List.count_map_of_injective _ _ (fun _ _ h => Offer.shiftFrame.inj h) _
  simp only [State.heldOffers, List.count_append, hmap]
  omega

end

/-- A held SHIFT frame is held or queued after the event (Table 5-4). -/
theorem State.settleEvent_shiftFrame {f : ShiftFrame} {s : State}
    (h : f ∈ s.shift.held ∨ s.link.Carries 5 (encShiftFrame f)) :
    f ∈ s.settleEvent.shift.held ∨ s.settleEvent.link.Carries 5 (encShiftFrame f) := by
  refine settleEvent_held (held := fun s => f ∈ s.shift.held) (by decide) (by decide) ?_ ?_ ?_ (fun _ _ _ h => h) ?_ h
  · intro s h
    unfold State.lateCloseIfDue
    split
    · split
      · unfold State.startLateSummary
        dsimp only
        split <;> exact h
      · exact h
    · exact h
  · intro s l o p tag h hp hl
    by_cases ho : o = .shiftFrame f
    · subst ho
      simp only [State.offered, List.contains_iff_mem, h, if_true, Option.some.injEq, Prod.mk.injEq] at hp
      exact Or.inr ⟨rfl, hp.1.symm⟩
    · refine Or.inl (List.count_pos_iff.1 ?_)
      rw [State.offerTaken_held, if_neg ho]
      exact List.count_pos_iff.2 h
  · intro s o h
    cases o with
    | command t =>
      unfold State.offerRefused
      dsimp only
      split <;> exact h
    | _ => exact h
  · intro s h
    show f ∈ s.signUpdate.shift.held
    rw [(signUpdate_blocks s).2.2.2.1]
    exact h

theorem State.offered_object {s : State} {a : Addr} (h : a ∈ s.hire.objects) :
    s.offered (.object a) = some (encObject a, .object a) := if_pos (List.contains_iff_mem.2 h)

theorem State.offered_shiftFrame {s : State} {f : ShiftFrame} (h : f ∈ s.shift.held) :
    ∃ tag, s.offered (.shiftFrame f) = some (encShiftFrame f, tag) := ⟨_, if_pos (List.contains_iff_mem.2 h)⟩

/-! ### A slot end with room for all that is held -/

theorem State.settleEvent_rested {v : State} (h : v.NoLateClose) : v.settleEvent = v.flushOffers.signUpdate := by
  unfold State.settleEvent
  rw [State.lateCloseIfDue_waits h]

theorem State.signUpdate_holders (s : State) : s.signUpdate.holders = s.holders := by
  obtain ⟨hhire, -, hintercom, hshift, -, hprint, -⟩ := s.signUpdate_blocks
  unfold State.holders
  rw [hhire, hintercom, hshift, hprint]

/-- The station at the end of a slot end's work: it offers what it holds, and no late close can be made. -/
structure State.Reoffering (v : State) : Prop where
  all    : v.offers = v.heldOffers
  rested : v.NoLateClose

section
variable {v : State} (hv : v.Reoffering) (hroom : v.HasRoom v.offers)
include hv hroom

/-- What is drained by the offers is drained at the end of the event. -/
theorem State.Reoffering.drained {count : Holders → Nat} {o : Offer}
    (hnone : ∀ u : State, u.offered o = none → count u.holders = 0)
    (htaken : ∀ (u : State) (x : Offer),
      count (u.offerTaken x).holders ≤ if x = o then count u.holders - 1 else count u.holders)
    (hcount : count v.holders ≤ v.heldOffers.count o) : count v.settleEvent.holders = 0 := by
  rw [State.settleEvent_rested hv.rested, State.signUpdate_holders]
  exact hroom.drained hnone htaken (hv.all ▸ hcount)

/-- What is released by its own offer is released and queued at the end of the event. -/
theorem State.Reoffering.sent {α : Type} {item : Holders → α} {x : α} {release : α → α} {o : Offer} {payload : List Byte}
    (hx : item v.holders = x) (ho : v.Holds o)
    (hoff : ∀ u : State, item u.holders = x → ∃ tag, u.offered o = some (payload, tag))
    (htaken : ∀ (u : State) (y : Offer),
      item (u.offerTaken y).holders = if y = o then release (item u.holders) else item u.holders)
    (htwice : release (release x) = release x) :
    item v.settleEvent.holders = release x ∧ v.settleEvent.link.Carries o.cls payload := by
  rw [State.settleEvent_rested hv.rested, State.signUpdate_holders, (State.signUpdate_blocks _).2.1]
  refine hroom.sent hx ?_ hoff htaken htwice
  rw [hv.all]
  exact (v.mem_heldOffers o).2 ho

/-- An item that its own offer alone clears is clear at the end of the event. -/
theorem State.Reoffering.cleared {α : Type} {item : Holders → Option α} {o : Offer}
    (hnone : ∀ u : State, u.offered o = none → item u.holders = none)
    (htaken : ∀ (u : State) (x : Offer), item (u.offerTaken x).holders = if x = o then none else item u.holders)
    (hholds : (item v.holders).isSome = true → v.Holds o) : item v.settleEvent.holders = none := by
  refine Option.toList_eq_nil_iff.1 (List.length_eq_zero_iff.1 (hv.drained hroom (count := fun b => (item b).toList.length)
    (fun u hoff => ?_) (fun u x => ?_) (State.count_heldOffers_single hholds)))
  · rw [hnone u hoff]
    rfl
  · rw [htaken]
    split
    · exact Nat.zero_le _
    · exact Nat.le_refl _

theorem State.Reoffering.reply : v.settleEvent.hire.reply = none :=
  hv.cleared hroom (item := fun b => b.hire.reply) (o := .reply) (fun _ hoff => Option.map_eq_none_iff.1 hoff)
    (fun u x => u.offerTaken_reply x) id

theorem State.Reoffering.event : v.settleEvent.hire.event = none :=
  hv.cleared hroom (item := fun b => b.hire.event) (o := .hireEvent) (fun _ hoff => Option.map_eq_none_iff.1 hoff)
    (fun u x => u.offerTaken_event x) id

theorem State.Reoffering.objects : v.settleEvent.hire.objects = [] := by
  refine List.eq_nil_iff_forall_not_mem.2 fun a => List.count_eq_zero.1
    (hv.drained hroom (count := fun b => b.hire.objects.count a) (o := .object a) (fun u hoff => ?_)
      (fun u x => (u.offerTaken_objects x a).le) (v.count_heldOffers_object a))
  exact List.count_eq_zero.2 fun hmem => Option.some_ne_none _ ((State.offered_object hmem).symm.trans hoff)

theorem State.Reoffering.events : v.settleEvent.intercom.events = [] := by
  refine List.length_eq_zero_iff.1 (hv.drained hroom (count := fun b => b.intercom.events.length) (o := .intercom)
    (fun u hoff => ?_) (fun u x => u.offerTaken_events x) v.count_heldOffers_intercom)
  exact List.length_eq_zero_iff.2 (List.head?_eq_none_iff.1 (Option.map_eq_none_iff.1 hoff))

theorem State.Reoffering.frames : v.settleEvent.shift.held = [] := by
  refine List.eq_nil_iff_forall_not_mem.2 fun f => List.count_eq_zero.1
    (hv.drained hroom (count := fun b => b.shift.held.count f) (o := .shiftFrame f) (fun u hoff => ?_)
      (fun u x => (u.offerTaken_held x f).le) (v.count_heldOffers_shiftFrame f))
  refine List.count_eq_zero.2 fun hmem => ?_
  obtain ⟨tag, hsome⟩ := State.offered_shiftFrame hmem
  exact Option.some_ne_none _ (hsome.symm.trans hoff)

theorem State.Reoffering.claim {c : Claim} (hslot : v.hire.slot = .claiming c) (hheld : v.hire.claimHeld = true) :
    v.settleEvent.link.Carries 1 (encClaim c.kind c.party c.seq) ∧ v.settleEvent.hire.claimHeld = false := by
  have hoff : ∀ u : State, (u.hire.slot, u.hire.claimHeld) = (.claiming c, true) →
      ∃ tag, u.offered .claim = some (encClaim c.kind c.party c.seq, tag) := by
    intro u hu
    obtain ⟨hs, hh⟩ := Prod.mk.inj hu
    unfold State.offered
    rw [hs]
    exact ⟨.claim c.id, if_pos hh⟩
  obtain ⟨hitem, hcarries⟩ := hv.sent hroom (item := fun b => (b.hire.slot, b.hire.claimHeld))
    (release := fun p => (p.1, false)) (o := .claim) (by rw [← hslot, ← hheld]; rfl) hheld hoff
    (fun u y => u.offerTaken_claim y) rfl
  exact ⟨hcarries, congrArg Prod.snd hitem⟩

theorem State.Reoffering.summary {tx : SumTx} {p : SummaryPart} (htx : v.shift.tx = some tx) (hheld : tx.held = true)
    (hpart : tx.parts[tx.k]? = some p) :
    v.settleEvent.link.Carries 5 (encSummary false p) ∧ v.settleEvent.shift.tx = some { tx with held := false } := by
  refine (hv.sent hroom (item := fun b => b.shift.tx) (o := .summary) htx ⟨tx, htx, hheld⟩
    (fun u hu => ⟨.summary tx.gen tx.k, ?_⟩)
    (fun u y => u.offerTaken_tx y) rfl).symm
  unfold State.offered
  rw [show u.shift.tx = some tx from hu, Option.bind_some, hpart]
  rfl

theorem State.Reoffering.lateSummary {tx : SumTx} {p : SummaryPart} (htx : v.shift.lateTx = some tx) (hheld : tx.held = true)
    (hpart : tx.parts[tx.k]? = some p) :
    v.settleEvent.link.Carries 5 (encSummary true p) ∧ v.settleEvent.shift.lateTx = some { tx with held := false } := by
  refine (hv.sent hroom (item := fun b => b.shift.lateTx) (o := .lateSummary) htx ⟨tx, htx, hheld⟩
    (fun u hu => ⟨.lateSummary tx.gen tx.k, ?_⟩)
    (fun u y => u.offerTaken_lateTx y) rfl).symm
  unfold State.offered
  rw [show u.shift.lateTx = some tx from hu, Option.bind_some, hpart]
  rfl

theorem State.Reoffering.recordQuery {tr : Transfer} (htr : v.print.transfer = some tr) (hheld : tr.queryHeld = true) :
    v.settleEvent.link.Carries 7 (encRecordQuery tr.hireNo tr.target tr.first)
      ∧ v.settleEvent.print.transfer = some { tr with queryHeld := false } := by
  refine (hv.sent hroom (item := fun b => b.print.transfer) (o := .recordQuery) htr ⟨tr, htr, hheld⟩
    (fun u hu => ⟨.recordQuery tr.gen, ?_⟩)
    (fun u y => u.offerTaken_transfer y) rfl).symm
  unfold State.offered
  rw [show u.print.transfer = some tr from hu]
  rfl

theorem State.Reoffering.recordPart {sv : Serve} {p : List Byte} (hsv : v.print.serve = some sv) (hheld : sv.held = true)
    (hpart : sv.parts[sv.k]? = some p) :
    v.settleEvent.link.Carries 7 (encRecordPart sv.k sv.parts.length sv.hireNo p)
      ∧ v.settleEvent.print.serve = some { sv with held := false } := by
  refine (hv.sent hroom (item := fun b => b.print.serve) (o := .recordPart) hsv ⟨sv, hsv, hheld⟩
    (fun u hu => ⟨.recordPart sv.gen sv.k, ?_⟩)
    (fun u y => u.offerTaken_serve y) rfl).symm
  unfold State.offered
  rw [show u.print.serve = some sv from hu, Option.map_some, List.getD_eq_getElem?_getD, hpart]
  rfl

end

/-! ### A slot end with the queue full -/

/-- A held frame that is refused is held on, and nothing else happens (Table 5-4). -/
theorem State.Holds.refused {s : State} {o : Offer} (h : s.Holds o) : s.offerRefused o = s := by
  cases o with
  | summary =>
    obtain ⟨t, ht, hheld⟩ := h
    have hsame : s.shift.tx.map (fun t => { t with held := true }) = s.shift.tx := by
      rw [ht, Option.map_some, ← hheld]
    exact congrArg (fun x => ({ s with shift := { s.shift with tx := x } } : State)) hsame
  | lateSummary =>
    obtain ⟨t, ht, hheld⟩ := h
    have hsame : s.shift.lateTx.map (fun t => { t with held := true }) = s.shift.lateTx := by
      rw [ht, Option.map_some, ← hheld]
    exact congrArg (fun x => ({ s with shift := { s.shift with lateTx := x } } : State)) hsame
  | recordQuery =>
    obtain ⟨t, ht, hheld⟩ := h
    have hsame : s.print.transfer.map (fun t => { t with queryHeld := true }) = s.print.transfer := by
      rw [ht, Option.map_some, ← hheld]
    exact congrArg (fun x => ({ s with print := { s.print with transfer := x } } : State)) hsame
  | recordPart =>
    obtain ⟨t, ht, hheld⟩ := h
    have hsame : s.print.serve.map (fun t => { t with held := true }) = s.print.serve := by
      rw [ht, Option.map_some, ← hheld]
    exact congrArg (fun x => ({ s with print := { s.print with serve := x } } : State)) hsame
  | command t => exact h.elim
  | _ => rfl

/-- With the queue full every offer of a held frame is refused (R81, Table 5-3). -/
theorem State.Holds.tryOffer_full {s : State} {o : Offer} (h : s.Holds o) (hfull : 16 ≤ s.link.queue.length) :
    s.tryOffer o = s := by
  have hno : ∀ payload tag, s.link.offer s.now o.cls payload tag = none := by
    intro payload tag
    unfold Link.offer
    have hadmits : s.link.admits o.cls = false := by
      simp [Link.admits, Link.freeEntries, queueSize, Nat.sub_eq_zero_of_le hfull]
    simp only [h.fresh, hadmits, Bool.false_and, Bool.false_eq_true, if_false, ite_self]
  unfold State.tryOffer
  split
  · rfl
  · rw [hno]
    exact h.refused

/-- These offers are of frames that `v` holds, and none has changed it so far. -/
def State.HoldsOn (v : State) (os : List Offer) (u : State) : Prop :=
  (∀ o ∈ os, v.Holds o) ∧ ∃ os' n, u = ({ v with offers := os', free := n } : State)

theorem State.Reoffering.full {v : State} (hv : v.Reoffering) (hfull : 16 ≤ v.link.queue.length) :
    ∃ os n, v.settleEvent = ({ v with offers := os, free := n } : State).signUpdate := by
  rw [State.settleEvent_rested hv.rested]
  have hstep : ∀ (os : List Offer) (o : Offer) (os' : List Offer) (u : State), v.HoldsOn (os ++ o :: os') u →
      v.HoldsOn (os ++ os') (u.tryOffer o) := by
    rintro os o os' u ⟨hos, os'', n, rfl⟩
    have ho : v.Holds o := hos o (List.mem_append_right _ List.mem_cons_self)
    refine ⟨fun x hx => hos x (mem_of_mem_without hx), os'', n, ?_⟩
    exact State.Holds.tryOffer_full (s := { v with offers := os'', free := n }) (by cases o <;> exact ho) hfull
  obtain ⟨-, os, n, h⟩ := flush_tracks hstep (fun os u os' n ⟨hos, _, _, hu⟩ => ⟨hos, os', n, by rw [hu]⟩)
    (s := v) ⟨fun o ho => (v.mem_heldOffers o).1 (hv.all ▸ ho), v.offers, v.free, rfl⟩
  exact ⟨os, n, by rw [h]⟩

end Sys2Proof.Machine
end

section
/-! PROOFS. The statement about the slot end (O23). -/
namespace Sys2Proof.Machine
open Sys2Proof

/-! ### What a slot end leaves for its re-offers -/

/-- The counting of a slot end touches the pulse unit, the slot's hire and the accumulators. -/
theorem State.slotCounted_form (s : State) : ∃ p sl tally speed acc,
    s.slotCounted = { s with
      pulse := p, hire := { s.hire with slot := sl, tally := tally, speed := speed }, shift := { s.shift with acc := acc } }
    ∧ (sl = s.hire.slot ∨ ∃ h h', s.hire.slot = .hired h ∧ sl = .hired h') := by
  by_cases hslot : ∃ h, s.hire.slot = .hired h
  · obtain ⟨h, hslot⟩ := hslot
    rw [State.slotCounted_hired hslot, State.slotShift, Shift.added_fields]
    exact ⟨_, _, _, _, _, rfl, Or.inr ⟨h, _, hslot, rfl⟩⟩
  · rw [State.slotCounted_other fun h hh => hslot ⟨h, hh⟩, State.slotShift, Shift.added_fields]
    exact ⟨_, _, _, _, _, rfl, Or.inl rfl⟩

theorem State.offerReport_form (s : State) :
    ∃ c js, s.offerReport = { s with close := c, print := { s.print with jobs := js } } := by
  unfold State.offerReport
  split <;> exact ⟨_, _, rfl⟩

theorem State.offerSlips_form (slips : List Addr) : ∀ s : State,
    ∃ c js, slips.foldl State.offerSlip s = { s with close := c, print := { s.print with jobs := js } } := by
  induction slips with
  | nil => exact fun s => ⟨_, _, rfl⟩
  | cons a slips ih =>
    intro s
    have hone : ∃ c js, s.offerSlip a = { s with close := c, print := { s.print with jobs := js } } := by
      unfold State.offerSlip
      split <;> exact ⟨_, _, rfl⟩
    obtain ⟨_, _, hone⟩ := hone
    obtain ⟨c, js, hrest⟩ := ih (s.offerSlip a)
    rw [List.foldl_cons, hrest, hone]
    exact ⟨c, js, rfl⟩

theorem State.reofferJobs_form (s : State) :
    ∃ c js, s.reofferJobs = { s with close := c, print := { s.print with jobs := js } } := by
  unfold State.reofferJobs
  dsimp only
  split
  · obtain ⟨_, _, hreport⟩ := s.offerReport_form
    rw [hreport]
    obtain ⟨c, js, hslips⟩ := State.offerSlips_form _ _
    rw [hslips]
    exact ⟨c, js, rfl⟩
  · exact State.offerSlips_form _ _

/-- `v` is the station `s` at the end of a slot end's work: it holds and offers what `s` holds, but for a SHIFT_REFUSE whose conditions
stand no more. -/
structure State.SlotEnded (s v : State) : Prop where
  link     : v.link = s.link
  pay      : v.pay = s.pay
  reply    : v.hire.reply = s.hire.reply
  held     : v.hire.claimHeld = s.hire.claimHeld
  objects  : v.hire.objects = s.hire.objects
  event    : v.hire.event = s.hire.event
  events   : v.intercom.events = s.intercom.events
  frames   : v.shift.held = s.shift.held.filter fun f => s.standsHeld f
  late     : v.shift.pendingLate = s.shift.pendingLate
  tx       : v.shift.tx = s.shift.tx
  lateTx   : v.shift.lateTx = s.shift.lateTx
  transfer : v.print.transfer = s.print.transfer
  serve    : v.print.serve = s.print.serve
  slot     : v.hire.slot = s.hire.slot ∨ ∃ h h', s.hire.slot = .hired h ∧ v.hire.slot = .hired h'
  offers   : v.offers = s.offers ++ v.heldOffers

theorem State.slotEnd_slotEnded (s : State) : s.SlotEnded s.slotEnd := by
  obtain ⟨p, sl, tally, speed, acc, hcounted, hslot⟩ := s.slotCounted_form
  have hstands : ∀ f, s.slotCounted.standsHeld f = s.standsHeld f := by
    have hfree : sl.isFree = s.hire.slot.isFree := by
      obtain hsame | ⟨h, h', hs, hs'⟩ := hslot
      · rw [hsame]
      · rw [hs, hs']
        rfl
    intro f
    rw [hcounted]
    unfold State.standsHeld
    dsimp only
    rw [hfree]
  obtain ⟨c, js, hjobs⟩ := s.slotCounted.reoffer.reofferJobs_form
  have hend : s.slotEnd = _ := hjobs
  rw [State.reoffer_eq] at hend
  unfold State.heldStanding at hend
  simp only [hstands] at hend
  rw [hcounted] at hend
  rw [hend]
  exact ⟨rfl, rfl, rfl, rfl, rfl, rfl, rfl, rfl, rfl, rfl, rfl, rfl, rfl, hslot, rfl⟩

section
variable {s v : State} (h : s.SlotEnded v) (hq : s.Quiet)
include h hq

theorem State.SlotEnded.reoffering : v.Reoffering := by
  obtain ⟨hoffers, hlate⟩ := hq
  refine ⟨by rw [h.offers, hoffers]; rfl, ?_⟩
  unfold State.NoLateClose at hlate ⊢
  rw [h.late, h.pay]
  obtain hslot | ⟨_, _, _, hslot⟩ := h.slot
  · rwa [hslot]
  · exact Or.inr (Or.inl (by rw [hslot]; exact Slot.noConfusion))

theorem State.SlotEnded.hasRoom (hawake : s.silent = false) (hroom : s.link.queue.length + s.heldOffers.length ≤ 12) :
    v.HasRoom v.offers := by
  have hall := (h.reoffering hq).all
  have hfewer : v.heldOffers.length ≤ s.heldOffers.length := by
    have hframes := List.length_filter_le (fun f => s.standsHeld f) s.shift.held
    unfold State.heldOffers
    rw [h.reply, h.held, h.objects, h.event, h.events, h.frames, h.tx, h.lateTx, h.transfer, h.serve]
    simp only [List.length_append, List.length_map]
    omega
  refine ⟨by rw [State.silent, h.link]; exact hawake, ?_, fun o ho => ((v.mem_heldOffers o).1 (hall ▸ ho)).fresh⟩
  rw [hall, h.link]
  omega

end

/-! ### The statement -/

/-- The record of a HIRED hire after a slot end, from its credit and its steps (R28, R29, R31, R33, R36, R37). -/
theorem Hire.slotEnd_rc (h : Hire) (tally n sum seconds : Nat) (fault : Bool) :
    ∀ stepped,
      stepped = (({ h.rc with level := n } : HireRecord).creditSlot h.snap.band (min tally h.snap.pmax)).takeSteps h.snap →
      (h.slotEnd tally n sum seconds fault).rc = { stepped with
        charging := nextCharging h.snap.band (sum * 18000 / h.snap.k) stepped.charging
        paidPulses := h.rc.paidPulses + min tally h.snap.pmax
        hiredTenths := h.rc.hiredTenths + 1
        lastSlot := seconds
        pulseFault := h.rc.pulseFault || fault }
      ∧ stepped.level = n := by
  rintro stepped rfl
  obtain ⟨hpulses, htenths, hfault, hlevel⟩ :=
    ({ h.rc with level := n } : HireRecord).slot_sameUse h.snap (min tally h.snap.pmax)
  refine ⟨?_, hlevel⟩
  rw [← show _ = h.rc.paidPulses from hpulses, ← show _ = h.rc.hiredTenths from htenths,
    ← show _ = h.rc.pulseFault from hfault]
  rfl

/-- Settles O23. -/
theorem slotEndCountsAndCharges : Obligations.SlotEndCountsAndCharges := by
  intro limit c s hr hslot hlimit hc pulse shift hpulse hshift
  obtain rfl : limit = s.ringLimit := hlimit.trans s.ringLimit_eq.symm
  obtain rfl : pulse = s.slotPulse := by rw [hpulse, hc]; rfl
  obtain rfl : shift = s.slotShift := by rw [hshift, hc]; rfl
  have htake : exec .slotEnd s = .next s.slotEnd.settleEvent :=
    (event_next hr).trans (by rw [State.takeSlotEnd, if_pos (Option.isSome_iff_ne_none.2 hslot)])
  have hended := s.slotEnd_slotEnded
  generalize s.slotEnd = v at htake hended
  refine ⟨fun h hh => ?_, fun hno => ?_, fun hq hawake hroom => ?_, fun hq hawake hfull => ?_⟩
  · obtain ⟨t, ht, hk⟩ := execSlotEnd_kept hr hslot
    rw [State.slotCounted_hired hh] at hk
    obtain ⟨hrc, hlevel⟩ := Hire.slotEnd_rc h s.hire.tally (s.sharingLevel h.rc.kind) s.slotPulse.ring.sum
      s.clock.seconds s.slotPulse.seen _ rfl
    refine ⟨t, _, ht, hk, rfl, ?_⟩
    rw [hrc]
    exact ⟨rfl, rfl, rfl, hlevel, rfl, _, rfl, rfl⟩
  · obtain ⟨t, ht, hk⟩ := execSlotEnd_kept hr hslot
    rw [State.slotCounted_other hno] at hk
    exact ⟨t, ht, hk⟩
  · have hv := hended.reoffering hq
    have hfits := hended.hasRoom hq hawake hroom
    have hreply := hv.reply hfits
    have hevent := hv.event hfits
    have hobjects := hv.objects hfits
    have hevents := hv.events hfits
    have hframes := hv.frames hfits
    refine ⟨_, htake, fun seq r hheld => ?_, hreply, fun c hcl hheld => ?_, fun a ha => ?_, hobjects, fun e he => ?_, hevent,
      fun e he => ?_, hevents, fun f hf hstands => ?_, hframes, fun tx p htx hheld hpart => ?_, fun tx p htx hheld hpart => ?_,
      fun tr htr hheld => ?_, fun sv p hsv hheld hpart => ?_⟩
    · exact (State.settleEvent_reply (Or.inl (hended.reply.trans hheld))).resolve_left
        (by rw [hreply]; exact (Option.some_ne_none _).symm)
    · refine hv.claim hfits (hended.slot.elim (·.trans hcl) ?_) (hended.held.trans hheld)
      rintro ⟨h, _, hh, -⟩
      exact Slot.noConfusion (hcl.symm.trans hh)
    · exact (State.settleEvent_object (Or.inl (hended.objects.symm ▸ ha))).resolve_left
        (by rw [hobjects]; exact List.not_mem_nil)
    · exact (State.settleEvent_event (Or.inl (hended.event.trans he))).resolve_left
        (by rw [hevent]; exact (Option.some_ne_none _).symm)
    · exact (State.settleEvent_said (Or.inl (hended.events.symm ▸ he))).resolve_left
        (by rw [hevents]; exact List.not_mem_nil)
    · refine (State.settleEvent_shiftFrame (Or.inl ?_)).resolve_left (by rw [hframes]; exact List.not_mem_nil)
      rw [hended.frames]
      exact List.mem_filter.2 ⟨hf, hstands⟩
    · exact hv.summary hfits (hended.tx.trans htx) hheld hpart
    · exact hv.lateSummary hfits (hended.lateTx.trans htx) hheld hpart
    · exact hv.recordQuery hfits (hended.transfer.trans htr) hheld
    · exact hv.recordPart hfits (hended.serve.trans hsv) hheld hpart
  · obtain ⟨os, n, hfinal⟩ := (hended.reoffering hq).full (by rw [hended.link]; exact hfull)
    rw [hfinal] at htake
    obtain ⟨hhire, hlink, hintercom, hshift', -, hprint, -⟩ := ({ v with offers := os, free := n } : State).signUpdate_blocks
    refine ⟨_, htake, ?_⟩
    rw [hhire, hlink, hintercom, hshift', hprint]
    exact ⟨hended.link, hended.reply, hended.held, hended.objects, hended.event, hended.events, hended.frames, hended.tx,
      hended.lateTx, hended.transfer, hended.serve⟩

end Sys2Proof.Machine
end

section
/-! PROOFS. What an empty queue does, and what one unit of time moves (O2). -/
namespace Sys2Proof.Machine
open Sys2Proof

/-! ### An empty queue (log entries 1, 2) -/

theorem step_idle {s : State} (h : s.pending = []) : step s = .next s.idle := by
  unfold step
  rw [h]

theorem State.idle_of_none_due {s : State} (h : s.dueEvents = []) : s.idle = s.tick := by
  unfold State.idle
  rw [h]

theorem State.idle_takes_due {s : State} (h : s.dueEvents ≠ []) :
    ∃ e ∈ s.dueEvents, ∃ n, s.idle = { s with pending := [e], free := n } := by
  unfold State.idle
  split
  · next hnone => exact absurd hnone h
  · next i hone => exact ⟨i, by rw [hone]; exact List.mem_singleton_self i, s.free, rfl⟩
  · have hlt : Config.tieOrder s.free % s.dueEvents.length < s.dueEvents.length :=
      Nat.mod_lt _ (List.length_pos_iff.2 h)
    refine ⟨_, ?_, _, rfl⟩
    rw [List.getD_eq_getElem _ _ hlt]
    exact List.getElem_mem hlt

/-! ### One unit of time, block by block (R55) -/

/-- The clock's phase moves whether the station runs or not (R56). -/
theorem State.tick_stopped {s : State} (h : s.supply.running = false) : s.tick =
    { s with clock := { s.clock with phase := s.clock.phase + 1 }
             supply := { s.supply with start := s.supply.start.map (· - 1), fail := s.supply.fail.map (· - 1) } } := by
  unfold State.tick
  exact if_neg (by rw [State.onClock_supply, h]; exact Bool.false_ne_true)

theorem State.tick_running {s : State} (h : s.supply.running = true) :
    s.tick = ({ s with clock := { s.clock with phase := s.clock.phase + 1 } } : State).tickRunning := by
  unfold State.tick
  exact if_pos h

/-- Of the slot's states only an open claim has a timer (R8). -/
theorem Slot.tick_other {sl : Slot} (h : ∀ c, sl ≠ .claiming c) : sl.tick = sl := by
  cases sl with
  | claiming c => exact absurd rfl (h c)
  | free => rfl
  | hired _ => rfl
  | stopped _ => rfl
  | paying _ => rfl

theorem guardTick_some (n : Nat) : guardTick (some n) = if 1 < n then some (n - 1) else none := by
  cases n with
  | zero => rfl
  | succ n =>
    show (if n = 0 then none else some n) = _
    split
    · next h => rw [if_neg (by omega)]
    · next h => rw [if_pos (by omega), Nat.add_sub_cancel]

section
variable {i : Intercom}

theorem Intercom.tick_endTimer_held {was : HeldState} (h : i.endState = .held was) : i.tick.endTimer = i.endTimer := by
  unfold Intercom.tick
  rw [h]

theorem Intercom.tick_endTimer (h : ∀ was, i.endState ≠ .held was) : i.tick.endTimer = i.endTimer.map (· - 1) := by
  unfold Intercom.tick
  dsimp only
  split
  · next was hheld => exact absurd hheld (h was)
  · rfl

theorem Intercom.tick_talkTimer_held {a : Addr} (h : i.talk = .held a) : i.tick.talkTimer = i.talkTimer := by
  unfold Intercom.tick
  rw [h]

theorem Intercom.tick_talkTimer (h : ∀ a, i.talk ≠ .held a) : i.tick.talkTimer = i.talkTimer.map (· - 1) := by
  unfold Intercom.tick
  dsimp only
  split
  · next a hheld => exact absurd hheld (h a)
  · rfl

end

/-- Settles O2. -/
theorem emptyQueueLetsTimePassOrTakesOneDueEvent : Obligations.EmptyQueueLetsTimePassOrTakesOneDueEvent := by
  refine ⟨fun s hs => ⟨fun hnone => ?_, fun hdue => ?_⟩, fun s => ⟨State.tick_stopped, fun hr => ?_⟩⟩
  · rw [step_idle hs, State.idle_of_none_due hnone]
  · obtain ⟨e, he, n, hidle⟩ := State.idle_takes_due hdue
    exact ⟨e, he, n, by rw [step_idle hs, hidle]⟩
  · rw [State.tick_running hr]
    have hclaim : ∀ c, s.hire.slot = .claiming c → s.hire.slot.tick = .claiming { c with window := c.window.map (· - 1) } :=
      fun c hc => by rw [hc]; rfl
    have hguard : ∀ n, s.shift.repeatGuard = some n →
        guardTick s.shift.repeatGuard = if 1 < n then some (n - 1) else none :=
      fun n hn => by rw [hn, guardTick_some]
    exact ⟨⟨rfl, rfl⟩, ⟨rfl, hclaim, Slot.tick_other⟩, ⟨rfl, rfl, rfl, Quad.get_map _ _, rfl⟩, ⟨rfl, rfl⟩,
      ⟨rfl, fun _ => Intercom.tick_endTimer_held, Intercom.tick_endTimer, fun _ => Intercom.tick_talkTimer_held,
        Intercom.tick_talkTimer⟩,
      ⟨rfl, rfl, rfl, hguard, rfl⟩, ⟨rfl, Quad.get_map _ _, rfl, rfl, rfl⟩, rfl, rfl, rfl, rfl, rfl, rfl⟩

end Sys2Proof.Machine
end

section
/-! PROOFS. Pulses, seconds of the clock, and the pulse fault with its rows (O24). -/
namespace Sys2Proof.Machine
open Sys2Proof

/-! ### The fault by itself (R51 to R53, Table 3-3) -/

section
variable (run clean tenths : Nat) (clamped : Bool)

/-- The fault rises at the 20th clamped slot end in a row, and at no other (R51). -/
theorem PulseFault.next_clear_isRaised :
    ((PulseFault.clear run).next clamped).isRaised = true ↔ clamped = true ∧ 19 ≤ run := by
  cases clamped with
  | false => exact ⟨fun h => Bool.noConfusion h, fun h => Bool.noConfusion h.1⟩
  | true =>
    show (if 19 ≤ run then PulseFault.raised 0 1 else .clear (run + 1)).isRaised = true ↔ _
    split
    · next h => exact ⟨fun _ => ⟨rfl, h⟩, fun _ => rfl⟩
    · next h => exact ⟨fun hr => Bool.noConfusion hr, fun hc => absurd hc.2 h⟩

/-- The fault clears at the 20th unclamped slot end in a row, and at no other (R52). -/
theorem PulseFault.next_raised_isRaised :
    ((PulseFault.raised clean tenths).next clamped).isRaised = false ↔ clamped = false ∧ 19 ≤ clean := by
  cases clamped with
  | true => exact ⟨fun h => Bool.noConfusion h, fun h => Bool.noConfusion h.1⟩
  | false =>
    show (if 19 ≤ clean then PulseFault.clear 0 else .raised (clean + 1) _).isRaised = false ↔ _
    split
    · next h => exact ⟨fun _ => ⟨rfl, h⟩, fun _ => rfl⟩
    · next h => exact ⟨fun hr => Bool.noConfusion hr, fun hc => absurd hc.2 h⟩

theorem PulseFault.next_rises (h : 19 ≤ run) : (PulseFault.clear run).next true = .raised 0 1 := if_pos h

theorem PulseFault.next_clears (h : 19 ≤ clean) : (PulseFault.raised clean tenths).next false = .clear 0 := if_pos h

theorem PulseFault.next_run (h : run < 19) : (PulseFault.clear run).next true = .clear (run + 1) :=
  if_neg (Nat.not_le.2 h)

/-- The fault tenths count from 0 to 9 and around (R53). -/
theorem nextTenth_eq (h : tenths < 10) : (if 9 ≤ tenths then 0 else tenths + 1) = (tenths + 1) % 10 := by
  split <;> omega

theorem PulseFault.next_raised_clamped (h : tenths < 10) :
    (PulseFault.raised clean tenths).next true = .raised 0 ((tenths + 1) % 10) := by
  rw [← nextTenth_eq tenths h]
  rfl

theorem PulseFault.next_raised_unclamped (hc : clean < 19) (h : tenths < 10) :
    (PulseFault.raised clean tenths).next false = .raised (clean + 1) ((tenths + 1) % 10) := by
  rw [← nextTenth_eq tenths h]
  exact if_neg (Nat.not_le.2 hc)

theorem PulseFault.second_raised_iff : (PulseFault.raised clean tenths).second = true ↔ 9 ≤ tenths := decide_eq_true_iff

end

/-! ### What a slot end leaves of the pulse unit and the totals -/

theorem State.slotCounted_pulse (s : State) : s.slotCounted.pulse = s.slotPulse := by
  by_cases hslot : ∃ h, s.hire.slot = .hired h
  · obtain ⟨h, hslot⟩ := hslot
    rw [State.slotCounted_hired hslot]
  · rw [State.slotCounted_other fun h hh => hslot ⟨h, hh⟩]

theorem State.slotCounted_shift (s : State) : s.slotCounted.shift = s.slotShift := by
  by_cases hslot : ∃ h, s.hire.slot = .hired h
  · obtain ⟨h, hslot⟩ := hslot
    rw [State.slotCounted_hired hslot]
  · rw [State.slotCounted_other fun h hh => hslot ⟨h, hh⟩]

/-- The totals of a slot end stand after it unless a late close may be made at its end (R53, R153). -/
theorem State.slotEnd_leaves {s t : State} (hk : s.slotCounted.reofferJobs.Kept t) :
    t.pulse = s.slotPulse ∧ (s.shift.pendingLate = none → t.shift.acc = s.slotShift.acc) := by
  obtain ⟨c, js, hjobs⟩ := s.slotCounted.reofferJobs_form
  rw [hjobs] at hk
  refine ⟨hk.pulse.trans s.slotCounted_pulse, fun hlate => ?_⟩
  have hpending : s.slotCounted.shift.pendingLate = none := by
    rw [State.slotCounted_shift, State.slotShift, Shift.added_fields]
    exact hlate
  obtain ⟨_, _, _, _, hacc, _⟩ := hk.shift hpending
  exact hacc.trans (congrArg Shift.acc s.slotCounted_shift)

theorem State.slotShift_faultSeconds {s : State} (hshift : s.shift.state ≠ .offShift) (h : s.pulse.fault.second = true) :
    s.slotShift.acc.faultSeconds = min 4294967295 (s.shift.acc.faultSeconds + 1) := by
  rw [State.slotShift, Shift.added, if_neg hshift, h]
  rfl

theorem State.slotClamped_iff (s : State) : s.slotClamped = true ↔ s.ringLimit < s.pulse.raw := decide_eq_true_iff

theorem State.slotClamped_false_iff (s : State) : s.slotClamped = false ↔ s.pulse.raw ≤ s.ringLimit :=
  decide_eq_false_iff_not.trans Nat.not_lt

/-! ### The rows of the fault (log entry 4) -/

section
variable {s : State} {crosses : State → Prop} [DecidablePred crosses]

/-- Where its threshold is crossed, a row of the fault is the slot end. -/
theorem faultRow_crossing (hr : s.supply.running = true) (hslot : s.pulse.slot ≠ none) (h : crosses s) :
    ∃ t, event (fun s => if crosses s then s.takeSlotEnd else s) s = .next t ∧ exec .slotEnd s = .next t
      ∧ t.pulse.fault = s.pulse.fault.next s.slotClamped
      ∧ (s.shift.pendingLate = none → t.shift.acc = s.slotShift.acc) := by
  obtain ⟨t, ht, hk⟩ := execSlotEnd_kept hr hslot
  obtain ⟨hpulse, hacc⟩ := State.slotEnd_leaves hk
  refine ⟨t, ?_, ht, by rw [hpulse]; rfl, hacc⟩
  rw [← ht, event_next hr, if_pos h]
  exact (event_next hr).symm

/-- At any other moment it changes nothing. -/
theorem faultRow_still (hr : s.supply.running = true) (h : ¬ crosses s) :
    ∃ t, event (fun s => if crosses s then s.takeSlotEnd else s) s = .next t ∧ s.Kept t :=
  event_kept hr (by rw [if_neg h]; exact .refl s)

end

/-- The slot end raises the fault (R51). -/
abbrev State.faultRises (s : State) : Prop :=
  !s.pulse.fault.isRaised ∧ (s.pulse.fault.next s.slotClamped).isRaised

/-- The slot end clears the fault (R52). -/
abbrev State.faultClears (s : State) : Prop :=
  s.pulse.fault.isRaised ∧ !(s.pulse.fault.next s.slotClamped).isRaised

section
variable {s : State} {run clean tenths : Nat}

theorem State.faultRises_clear (h : s.pulse.fault = .clear run) :
    s.faultRises ↔ s.ringLimit < s.pulse.raw ∧ 19 ≤ run := by
  rw [State.faultRises, h, PulseFault.next_clear_isRaised, State.slotClamped_iff]
  exact and_iff_right rfl

theorem State.not_faultRises_raised (h : s.pulse.fault = .raised clean tenths) : ¬ s.faultRises := by
  rw [State.faultRises, h]
  exact fun hc => Bool.noConfusion hc.1

theorem State.faultClears_raised (h : s.pulse.fault = .raised clean tenths) :
    s.faultClears ↔ s.pulse.raw ≤ s.ringLimit ∧ 19 ≤ clean := by
  rw [State.faultClears, h, Bool.not_eq_true', PulseFault.next_raised_isRaised, State.slotClamped_false_iff]
  exact and_iff_right rfl

theorem State.not_faultClears_clear (h : s.pulse.fault = .clear run) : ¬ s.faultClears := by
  rw [State.faultClears, h]
  exact fun hc => Bool.noConfusion hc.1

end

/-! ### Pulses -/

/-- The station with one more pulse counted, for a HIRED hire as well (R28, R46). -/
def State.pulseCounted (s : State) : State :=
  { s with pulse := { s.pulse with raw := min 4095 (s.pulse.raw + 1) }
           hire := { s.hire with tally := s.hire.tally + (if s.hire.slot.shown = .hired then 1 else 0) } }

theorem execOdometerPulse_eq (s : State) : exec .odometerPulse s = event State.pulseCounted s := by
  show execOdometerPulse s = _
  unfold execOdometerPulse
  congr 1
  funext u
  obtain ⟨_, _, ⟨slot⟩⟩ := u
  cases slot <;> rfl

/-- Settles O24: the counters first, then the fault by itself, then its rows by the state of the fault. -/
theorem pulsesSecondsAndFaultsAreCounted : Obligations.PulsesSecondsAndFaultsAreCounted := by
  refine ⟨⟨fun s hr => ⟨_, (execOdometerPulse_eq s).trans (event_next hr), s.pulseCounted.settleEvent_kept⟩, fun s => rfl⟩,
    ⟨PulseFault.next_run, PulseFault.next_rises 19 (Nat.le_refl _), fun run => ⟨rfl, rfl⟩,
      fun clean tenths ht => ⟨PulseFault.next_raised_clamped clean tenths ht,
        fun hc => PulseFault.next_raised_unclamped clean tenths hc ht,
        fun hc => PulseFault.next_clears clean tenths (Nat.le_of_eq hc.symm),
        (PulseFault.second_raised_iff clean tenths).trans (by omega), fun clamped => rfl⟩,
      fun run clamped hrun => (PulseFault.next_clear_isRaised run clamped).trans (and_congr_right' (by omega))⟩,
    fun s hr hslot => ⟨fun run hfault => ⟨fun hraw hrun => ?_, fun hno => ?_, ?_, ?_⟩,
      fun clean tenths hfault => ⟨?_, fun hraw hclean => ?_, fun hno => ?_, fun ht => ?_, fun ht => ?_⟩⟩⟩
  · obtain ⟨t, ht, hend, hnext, -⟩ := faultRow_crossing (crosses := State.faultRises) hr hslot
      ((State.faultRises_clear hfault).2 ⟨hraw, hrun⟩)
    refine ⟨t, ht, hend, ?_⟩
    rw [hnext, hfault, s.slotClamped_iff.2 hraw, PulseFault.next_rises run hrun]
  · exact faultRow_still (crosses := State.faultRises) hr
      fun hc => by have := (State.faultRises_clear hfault).1 hc; omega
  · exact faultRow_still (crosses := State.faultClears) hr (State.not_faultClears_clear hfault)
  · exact faultRow_still (crosses := fun s => s.pulse.fault.second = true) hr
      (by rw [hfault]; exact Bool.false_ne_true)
  · exact faultRow_still (crosses := State.faultRises) hr (State.not_faultRises_raised hfault)
  · obtain ⟨t, ht, hend, hnext, -⟩ := faultRow_crossing (crosses := State.faultClears) hr hslot
      ((State.faultClears_raised hfault).2 ⟨hraw, hclean⟩)
    refine ⟨t, ht, hend, ?_⟩
    rw [hnext, hfault, s.slotClamped_false_iff.2 hraw, PulseFault.next_clears clean tenths hclean]
  · exact faultRow_still (crosses := State.faultClears) hr
      fun hc => by have := (State.faultClears_raised hfault).1 hc; omega
  · have hsecond : s.pulse.fault.second = true := by rw [hfault, PulseFault.second_raised_iff]; exact ht
    obtain ⟨t, htake, hend, -, hacc⟩ := faultRow_crossing (crosses := fun s => s.pulse.fault.second = true) hr hslot hsecond
    exact ⟨t, htake, hend, fun hshift hlate => by rw [hacc hlate, State.slotShift_faultSeconds hshift hsecond]⟩
  · exact faultRow_still (crosses := fun s => s.pulse.fault.second = true) hr
      (by rw [hfault, PulseFault.second_raised_iff]; exact Nat.not_le.2 ht)

end Sys2Proof.Machine
end

section
/-! PROOFS. The calendar: the date and the minute of a seconds value that was set (O56). -/
namespace Sys2Proof.Machine
open Sys2Proof

/-! ### Counting days into years and months (R56) -/

/-- Counting on through `n` whole years ends in the year after them. -/
theorem splitYear_years (n : Nat) : ∀ fuel y d, n ≤ fuel → d < daysInYear (y + n) →
    splitYear fuel y (((List.range n).map fun i => daysInYear (y + i)).sum + d) = (y + n, d) := by
  induction n with
  | zero =>
    intro fuel y d _ hd
    rw [List.range_zero, List.map_nil, List.sum_nil, Nat.zero_add]
    cases fuel with
    | zero => rfl
    | succ fuel => exact if_pos hd
  | succ n ih =>
    intro fuel y d hfuel hd
    obtain ⟨fuel, rfl⟩ : ∃ k, fuel = k + 1 := ⟨fuel - 1, by omega⟩
    have hlast : y + (n + 1) = y + 1 + n := by omega
    have hshift : (fun i => daysInYear (y + i)) ∘ Nat.succ = fun i => daysInYear (y + 1 + i) :=
      funext fun i => congrArg daysInYear (by omega)
    rw [List.range_succ_eq_map, List.map_cons, List.map_map, List.sum_cons, Nat.add_zero y, Nat.add_assoc, splitYear,
      if_neg (by omega), Nat.add_sub_cancel_left, hshift, hlast]
    exact ih fuel (y + 1) d (by omega) (hlast ▸ hd)

/-- Counting on through `n` whole months of a year ends in the month after them. -/
theorem splitMonth_months (y n : Nat) : ∀ fuel m d, n ≤ fuel → d < daysInMonth y (n + m) →
    splitMonth fuel y m (((List.range n).map fun i => daysInMonth y (i + m)).sum + d) = (n + m, d + 1) := by
  induction n with
  | zero =>
    intro fuel m d _ hd
    rw [List.range_zero, List.map_nil, List.sum_nil, Nat.zero_add, Nat.zero_add]
    rw [Nat.zero_add] at hd
    cases fuel with
    | zero => rfl
    | succ fuel => exact if_pos hd
  | succ n ih =>
    intro fuel m d hfuel hd
    obtain ⟨fuel, rfl⟩ : ∃ k, fuel = k + 1 := ⟨fuel - 1, by omega⟩
    have hlast : n + 1 + m = n + (m + 1) := by omega
    have hshift : (fun i => daysInMonth y (i + m)) ∘ Nat.succ = fun i => daysInMonth y (i + (m + 1)) :=
      funext fun i => congrArg (daysInMonth y) (by omega)
    rw [List.range_succ_eq_map, List.map_cons, List.map_map, List.sum_cons, Nat.zero_add, Nat.add_assoc, splitMonth,
      if_neg (by omega), Nat.add_sub_cancel_left, hshift, hlast]
    exact ih fuel (m + 1) d (by omega) (hlast ▸ hd)

/-! ### The days of a year -/

/-- The first months of a year and a day in the next one lie within the year. -/
theorem daysBeforeMonth_add_lt {y m d : Nat} (hm : 1 ≤ m) (hm' : m ≤ 12) (hd : d < daysInMonth y m) :
    daysBeforeMonth y m + d < daysInYear y := by
  have hnext : daysBeforeMonth y (m + 1) = daysBeforeMonth y m + daysInMonth y m := by
    obtain ⟨m, rfl⟩ : ∃ k, m = k + 1 := ⟨m - 1, by omega⟩
    unfold daysBeforeMonth
    rw [Nat.add_sub_cancel, Nat.add_sub_cancel, List.range_succ, List.map_append, List.sum_append]
    rfl
  have hwhole : daysBeforeMonth y 13 = daysInYear y := by
    simp only [daysBeforeMonth, daysInYear, daysInMonth, List.range_succ, List.range_zero]
    cases isLeap y <;> rfl
  have hwithin : daysBeforeMonth y (m + 1) ≤ daysBeforeMonth y 13 :=
    ((List.range_sublist.2 (by omega)).map _).sum_le_sum fun _ _ => Nat.zero_le _
  omega

/-! ### A clock setting read back (R60) -/

theorem secondsOf_day (y m d : Nat) {h mi : Nat} (hh : h ≤ 23) (hmi : mi ≤ 59) :
    secondsOf y m d h mi / 86400 = daysBeforeYear y + (daysBeforeMonth y m + (d - 1)) := by
  unfold secondsOf
  omega

theorem secondsOf_minuteOfDay (y m d : Nat) {h mi : Nat} (hh : h ≤ 23) (hmi : mi ≤ 59) :
    minuteOfDay (secondsOf y m d h mi) = 60 * h + mi := by
  unfold minuteOfDay secondsOf
  omega

theorem clockEntryOk_iff (y m d h mi : Nat) : clockEntryOk y m d h mi = true ↔
    (2000 ≤ y ∧ y ≤ 2099) ∧ (1 ≤ m ∧ m ≤ 12) ∧ (1 ≤ d ∧ d ≤ daysInMonth y m) ∧ h ≤ 23 ∧ mi ≤ 59 := by
  simp only [clockEntryOk, dateOk, Bool.and_eq_true, decide_eq_true_eq, and_assoc]

/-- A date that exists in 2000 to 2099 is read back from its seconds value. -/
theorem dateOf_secondsOf {y m d h mi : Nat} (hok : clockEntryOk y m d h mi = true) :
    dateOf (secondsOf y m d h mi) = { year := y, month := m, day := d } := by
  obtain ⟨⟨hy, hy'⟩, ⟨hm, hm'⟩, ⟨hd, hd'⟩, hh, hmi⟩ := (clockEntryOk_iff y m d h mi).1 hok
  have hyear := splitYear_years (y - 2000) 137 2000 (daysBeforeMonth y m + (d - 1)) (by omega)
    (by rw [Nat.add_sub_cancel' hy]; exact daysBeforeMonth_add_lt hm hm' (by omega))
  have hmonth := splitMonth_months y (m - 1) 11 1 (d - 1) (by omega) (by rw [Nat.sub_add_cancel hm]; omega)
  rw [Nat.add_sub_cancel' hy] at hyear
  rw [Nat.sub_add_cancel hm, Nat.sub_add_cancel hd] at hmonth
  unfold dateOf
  rw [secondsOf_day y m d hh hmi, daysBeforeYear, hyear]
  dsimp only
  rw [daysBeforeMonth, hmonth]

end Sys2Proof.Machine
end
section
/-! PROOFS. The service keys, and what the driver display shows (R60, R171, R177, R179; O56). -/
namespace Sys2Proof.Machine
open Sys2Proof

/-! ### A completed sequence from the idle state (R171) -/

/-- A sequence whose operation offers nothing ends in its own effect and the sign's recompute. -/
theorem sequenceEvent_idle {own : KeySeq → Bool} {f : State → State} {s v : State} (hr : s.supply.running = true)
    (h0 : s.addr = 0) (hlow : s.supply.state ≠ .low) (hkeys : s.console.keys = .idle) (hf : f s.endKeys = v) (hq : v.Quiet) :
    sequenceEvent own f s = .next v.signUpdate := by
  have htaken : s.keysTaken = true := by
    rw [State.keysTaken, s.isConsole_iff.2 h0]
    exact bne_iff_ne.2 hlow
  refine event_quiet hr ?_ hq
  rw [if_pos htaken]
  exact (if_pos (Or.inl hkeys)).trans hf

theorem Print.full_iff (p : Print) : p.full = true ↔ 4 ≤ p.jobs.length := decide_eq_true_iff

theorem State.keyJob_room {s : State} (j : Job) (h : s.print.jobs.length < 4) : s.keyJob j = s.addJob j :=
  if_neg fun hfull => absurd ((Print.full_iff _).1 hfull) (Nat.not_le.2 h)

theorem State.keyJob_full {s : State} (j : Job) (h : 4 ≤ s.print.jobs.length) : s.keyJob j = s.say .printFull :=
  if_pos ((Print.full_iff _).2 h)

section
variable {s : State} (y mo d h mi : Nat)

theorem State.takeClockSetting_set (hoff : s.shift.state = .offShift) (hok : clockEntryOk y mo d h mi = true) :
    s.takeClockSetting y mo d h mi
      = (s.onClock fun _ => { seconds := secondsOf y mo d h mi, phase := 0, isSet := true }).say .clockShown := by
  unfold State.takeClockSetting
  rw [if_neg (not_not_intro hoff), if_pos hok]

theorem State.takeClockSetting_invalid (hoff : s.shift.state = .offShift) (hok : clockEntryOk y mo d h mi = false) :
    s.takeClockSetting y mo d h mi = s.say .entryInvalid := by
  unfold State.takeClockSetting
  rw [if_neg (not_not_intro hoff), hok]
  rfl

theorem State.takeClockSetting_onShift (hon : s.shift.state ≠ .offShift) :
    s.takeClockSetting y mo d h mi = s.say .clockOffShiftOnly := if_pos hon

end

section
variable (s : State)

theorem exec_servicePage : exec .servicePage s = sequenceEvent (isFunctionSeq 4) State.takeServicePage s := rfl

theorem exec_lastReport : exec .lastReport s = sequenceEvent (isFunctionSeq 5) State.takeLastReport s := rfl

theorem exec_print (no : Nat) : exec (.print no) s = sequenceEvent isPrintSeq (fun s => s.takePrint no) s := rfl

theorem exec_clockSetting (y mo d h mi : Nat) :
    exec (.clockSetting y mo d h mi) s = sequenceEvent (isFunctionSeq 2) (fun s => s.takeClockSetting y mo d h mi) s := rfl

end

/-! ### The driver display (R177, R179) -/

/-- The selected station as the driver display shows it: station 0 itself, or a seat from its row (R177). -/
def State.selectedShow (s : State) : SelectedShow :=
  if s.console.selected = 0 then s.ownShow else s.seatShow s.console.selected

/-- The driver display when the service page is not shown (R60, R171, R177). -/
def State.normalShow (s : State) : DriverDisplay :=
  { selected := s.selectedShow, message := s.console.message
    clock := if s.console.message = some .clockShown then some s.clock.shown else none
    entry := s.console.keys.shown, talk := s.intercom.talk, callers := s.intercom.queue.map (·.addr)
    lamps := if s.sign.signSilent then none else s.sign.lamps, signSilent := s.sign.signSilent
    dot := s.distress.latch.isSome, rows := s.close.rows.toList.map (·.st)
    outcome := s.display.outcome, change := s.display.change }

section
variable {s : State}

theorem State.driverDisplay_blank (h : s.supply.running = false ∨ s.supply.state = .low ∨ s.addr ≠ 0) :
    s.driverDisplay = .blank := by
  refine if_neg fun ⟨hr, hlow, h0⟩ => ?_
  obtain h | h | h := h
  · exact Bool.false_ne_true (h.symm.trans hr)
  · exact hlow h
  · exact h (s.isConsole_iff.1 h0)

theorem State.driverDisplay_lit (hr : s.supply.running = true) (hlow : s.supply.state ≠ .low) (h0 : s.addr = 0) :
    s.driverDisplay = if s.console.page then .page s.servicePage else .normal s.normalShow :=
  if_pos ⟨hr, hlow, s.isConsole_iff.2 h0⟩

/-- The service page lists each seat that has been heard, by its last beacon (R177). -/
theorem State.mem_servicePage_seats (a : Addr) (n e : Nat) (c : Bool) :
    (a, n, e, c) ∈ s.servicePage.seats
      ↔ a ≠ 0 ∧ ∃ b, (s.peer.rows.get a).beacon = some b ∧ n = b.tariffNo ∧ e = b.edition ∧ c = b.clockSet := by
  have hseat : a ∈ seatAddrs ↔ a ≠ 0 := by revert a; decide
  rw [← hseat]
  unfold State.servicePage
  rw [List.mem_filterMap]
  constructor
  · rintro ⟨a', ha', hrow⟩
    obtain ⟨b, hb, heq⟩ := Option.map_eq_some_iff.1 hrow
    cases heq
    exact ⟨ha', b, hb, rfl, rfl, rfl⟩
  · rintro ⟨ha, b, hb, rfl, rfl, rfl⟩
    exact ⟨a, ha, by rw [hb]; rfl⟩

/-- What is shown of the selected station whichever it is (R174, R175). -/
theorem State.selectedShow_always :
    s.selectedShow.addr = s.console.selected ∧ s.selectedShow.last = s.console.lastReply.get s.console.selected
      ∧ s.selectedShow.claiming = ((s.console.cmds.get s.console.selected).map (·.claiming)).getD false := by
  unfold State.selectedShow
  split
  · next h =>
    rw [h]
    exact ⟨rfl, rfl, rfl⟩
  · exact ⟨rfl, rfl, rfl⟩

theorem State.selectedShow_own (h : s.console.selected = 0) : s.selectedShow = s.ownShow := if_pos h

theorem State.selectedShow_seat (h : s.console.selected ≠ 0) : s.selectedShow = s.seatShow s.console.selected := if_neg h

theorem State.ownShow_hired {h : Hire} (hslot : s.hire.slot = .hired h) :
    s.ownShow.hireState = .hired ∧ s.ownShow.kind = h.rc.kind ∧ s.ownShow.due = h.rc.running
      ∧ s.ownShow.level = h.rc.level ∧ s.ownShow.charging = h.rc.charging ∧ s.ownShow.privacy = h.rc.privacy := by
  unfold State.ownShow
  rw [hslot]
  exact ⟨rfl, rfl, rfl, rfl, rfl, rfl⟩

theorem State.ownShow_stopped {h : Hire} {due : Nat} (hslot : s.hire.slot = .stopped h) (hdue : h.rc.due = some due) :
    s.ownShow.hireState = .stopped ∧ s.ownShow.due = due ∧ s.ownShow.figures = some h.figures := by
  unfold State.ownShow
  rw [hslot]
  exact ⟨rfl, congrArg (Option.getD · 0) hdue, rfl⟩

theorem State.ownShow_free (hslot : s.hire.slot = .free) : s.ownShow.hireState = .free ∧ s.ownShow.due = 0 := by
  unfold State.ownShow
  rw [hslot]
  exact ⟨rfl, rfl⟩

end

section
variable {r : PeerRow} {b : Beacon}

/-- An override of a row is read before its beacon (R88, R89). -/
theorem PeerRow.read_overridden {o : Override} (h : r.ovr = some o) :
    r.hireState = o.state ∧ ∀ due, o.due = some due → r.due = due := by
  unfold PeerRow.hireState PeerRow.due
  rw [h]
  exact ⟨rfl, fun due hdue => by rw [Option.bind_some, hdue]⟩

theorem PeerRow.read_beacon (hb : r.beacon = some b) (h : r.ovr = none) :
    r.hireState = b.hireState ∧ r.due = roleDue b.role := by
  unfold PeerRow.hireState PeerRow.due
  rw [h, hb]
  exact ⟨rfl, rfl⟩

end

/-- A seat with a beacon is shown by it, but for what an override of its row holds (R89, R177, log entry 45). -/
theorem State.seatShow_beacon {s : State} {a : Addr} {r : PeerRow} {b : Beacon} (hrow : r = s.peer.rows.get a)
    (hb : r.beacon = some b) :
    (s.seatShow a).absent = !r.present ∧ (s.seatShow a).shiftState = b.shiftState ∧ (s.seatShow a).clockSet = b.clockSet
      ∧ (s.seatShow a).pulseFault = b.pulseFault ∧ (s.seatShow a).privacy = s.console.privacyInd.get a
      ∧ (s.seatShow a).level = roleLevel b.role ∧ (s.seatShow a).charging = roleCharging b.role
      ∧ (∀ o, r.ovr = some o →
          (s.seatShow a).hireState = o.state ∧ ∀ due, o.due = some due → (s.seatShow a).due = due)
      ∧ (r.ovr = none → (s.seatShow a).hireState = b.hireState ∧ (s.seatShow a).due = roleDue b.role) := by
  unfold State.seatShow
  rw [← hrow]
  dsimp only
  rw [hb]
  exact ⟨rfl, rfl, rfl, rfl, rfl, rfl, rfl, fun _ => PeerRow.read_overridden, PeerRow.read_beacon hb⟩

/-- The digits after FUNCTION are shown, but those after FUNCTION 9 are masked (R171). -/
theorem KeySeq.shown_function (n : Nat) (ds : List Nat) : (KeySeq.function (some n) ds).shown
    = some { prompt := .function, digits := ds.map fun x => if n = 9 then none else some x } := by
  unfold KeySeq.shown
  by_cases h : n = 9
  · simp only [h, if_true]
  · simp only [h, Option.some.injEq, if_false]

/-! ### The statement -/

/-- Settles O56. -/
theorem serviceKeysSetTheClockAndPrint : Obligations.ServiceKeysSetTheClockAndPrint := by
  refine ⟨fun s => ⟨State.driverDisplay_blank, fun hr hlow h0 => ?_⟩, fun s hr h0 hq hkeys hlow => ?_,
    fun y mo d h mi hok => ?_, rfl, rfl⟩
  · rw [State.driverDisplay_lit hr hlow h0]
    refine ⟨fun hpage => ?_, fun hpage => ?_⟩
    · rw [hpage]
      exact ⟨_, rfl, rfl, rfl, rfl, rfl, rfl, rfl, State.mem_servicePage_seats⟩
    · rw [hpage]
      have hentry : ∀ {k : KeySeq} {e : Option EntryShow}, k.shown = e → s.console.keys = k → s.normalShow.entry = e :=
        fun hk hkeys => (congrArg KeySeq.shown hkeys).trans hk
      obtain ⟨haddr, hlast, hclaiming⟩ := s.selectedShow_always
      refine ⟨s.normalShow, rfl, rfl, fun h => if_pos h, fun h => if_neg h, hentry rfl, fun ds => hentry rfl,
        fun ds => hentry rfl, fun ds => hentry rfl, fun c ds => hentry rfl, fun n ds => hentry (KeySeq.shown_function n ds),
        rfl, rfl, rfl, rfl, Option.isSome_iff_ne_none, rfl, rfl, rfl, haddr, hlast, hclaiming, fun hown => ?_,
        fun r b hseat hrow hb => ?_⟩
      · have hshown : s.normalShow.selected = s.ownShow := State.selectedShow_own hown
        rw [hshown]
        exact ⟨rfl, rfl, rfl, rfl, fun h => State.ownShow_hired, fun h due => State.ownShow_stopped, State.ownShow_free⟩
      · have hshown : s.normalShow.selected = s.seatShow s.console.selected := State.selectedShow_seat hseat
        rw [hshown]
        exact State.seatShow_beacon hrow hb
  · rintro c0 rfl say rfl
    simp only [exec_servicePage, exec_lastReport, exec_clockSetting]
    have hends {own f} (v : State) (hf : f s.endKeys = v) (hv : v.Quiet) : sequenceEvent own f s = .next v.signUpdate :=
      sequenceEvent_idle hr h0 hlow hkeys hf hv
    refine ⟨hends _ rfl hq, fun job c hc => ?_, fun hno => hends _ (if_neg hno) hq, fun y mo d h mi =>
      ⟨fun hoff hok => hends _ (State.takeClockSetting_set y mo d h mi hoff hok) hq,
        fun hoff hok => hends _ (State.takeClockSetting_invalid y mo d h mi hoff hok) hq,
        fun hon => hends _ (State.takeClockSetting_onShift y mo d h mi hon) hq⟩⟩
    obtain ⟨rfl, hdone, rfl⟩ | ⟨no, rfl, rfl⟩ := hc
    · rw [exec_lastReport]
      exact ⟨fun hroom => hends _ ((if_pos hdone).trans (State.keyJob_room _ hroom)) hq,
        fun hfull => hends _ ((if_pos hdone).trans (State.keyJob_full _ hfull)) hq⟩
    · rw [exec_print]
      exact ⟨fun hroom => hends _ (State.keyJob_room _ hroom) hq, fun hfull => hends _ (State.keyJob_full _ hfull) hq⟩
  · obtain ⟨-, -, -, hh, hmi⟩ := (clockEntryOk_iff y mo d h mi).1 hok
    exact ⟨dateOf_secondsOf hok, secondsOf_minuteOfDay y mo d hh hmi⟩

end Sys2Proof.Machine
end
section
/-! PROOFS. The tariff image and the band it selects (R62 to R66, R69, R70, Table 12-7; O6). -/
namespace Sys2Proof.Machine
open Sys2Proof

/-! ### Numbers and fields of bytes (R198) -/

theorem beNat_concat (bs : List Byte) (b : Byte) : beNat (bs ++ [b]) = beNat bs * 256 + b.toNat := by
  unfold beNat
  rw [List.foldl_concat]

theorem beNat_lt (bs : List Byte) : beNat bs < 256 ^ bs.length := by
  induction bs using List.reverseRecOn with
  | nil => exact Nat.one_pos
  | append_singleton bs b ih =>
    have hb : b.toNat < 256 := b.isLt
    rw [beNat_concat, List.length_append, List.length_singleton, Nat.pow_succ]
    omega

theorem fieldAt_lt (bs : List Byte) (i k : Nat) : fieldAt bs i k < 256 ^ k :=
  (beNat_lt _).trans_le (Nat.pow_le_pow_right (by decide) (List.length_take_le k _))

/-- A field of a piece of the bytes is the field at its place in the whole. -/
theorem fieldAt_piece (bs : List Byte) (o w i k : Nat) (h : i + k ≤ w) :
    fieldAt ((bs.drop o).take w) i k = fieldAt bs (o + i) k := by
  unfold fieldAt
  rw [List.drop_take, List.take_take, List.drop_drop, Nat.min_eq_left (by omega)]

theorem fieldAt_byte (bs : List Byte) {i : Nat} (h : i < bs.length) : fieldAt bs i 1 = bs[i].toNat := by
  have hone : (bs.drop i).take 1 = [bs[i]] := by rw [List.drop_eq_getElem_cons h]; rfl
  rw [fieldAt, hone]
  exact Nat.zero_add _

/-- Bytes read one by one are fields of one byte. -/
theorem bytes_eq_fields (bs : List Byte) (o c : Nat) (h : o + c ≤ bs.length) :
    ((bs.drop o).take c).map (·.toNat) = (List.range c).map fun i => fieldAt bs (o + i) 1 := by
  apply List.ext_getElem
  · simp only [List.length_map, List.length_take, List.length_drop, List.length_range]
    omega
  · intro i hi hi'
    have hlt : i < c := by simpa using hi'
    simp [fieldAt_byte bs (show o + i < bs.length by omega)]

/-- Entries of one width that fill their place are the pieces at every multiple of it. -/
theorem chunks_eq_pieces {w : Nat} (hw : 0 < w) (c : Nat) : ∀ (bs : List Byte) (o : Nat), o + w * c ≤ bs.length →
    chunks w c ((bs.drop o).take (w * c)) = (List.range c).map fun i => (bs.drop (o + w * i)).take w := by
  induction c with
  | zero => intros; rfl
  | succ c ih =>
    intro bs o h
    rw [Nat.mul_succ] at h
    have hne : ((bs.drop o).take (w * (c + 1))).isEmpty = false := by
      rw [List.isEmpty_eq_false_iff, ← List.length_pos_iff, List.length_take, List.length_drop, Nat.mul_succ]
      omega
    have hhead : ((bs.drop o).take (w * (c + 1))).take w = (bs.drop o).take w := by
      rw [List.take_take, Nat.min_eq_left (Nat.le_mul_of_pos_right w c.succ_pos)]
    have htail : ((bs.drop o).take (w * (c + 1))).drop w = (bs.drop (o + w)).take (w * c) := by
      rw [List.drop_take, List.drop_drop, Nat.mul_succ, Nat.add_sub_cancel]
    rw [chunks, hne, hhead, htail, ih bs (o + w) (by omega), List.range_succ_eq_map, List.map_cons, List.map_map]
    refine congrArg (_ :: ·) (List.map_congr_left fun i _ => ?_)
    rw [Function.comp_apply, Nat.mul_succ, Nat.add_assoc, Nat.add_comm w]

/-- The entries that are read, the first `k` of them. -/
theorem chunks_take {w : Nat} (hw : 0 < w) {c k : Nat} (bs : List Byte) (o : Nat) (h : o + w * c ≤ bs.length) (hk : k ≤ c) :
    (chunks w c ((bs.drop o).take (w * c))).take k = (List.range k).map fun i => (bs.drop (o + w * i)).take w := by
  rw [chunks_eq_pieces hw c bs o h, ← List.map_take, List.take_range, Nat.min_eq_left hk]

/-! ### Bands, extras and entries at their places (Table 12-7) -/

/-- The parameters of a band entry at offset `o`, with a mode. -/
def bandFields (bs : List Byte) (o : Nat) (mode : BandMode) : Band :=
  { mode := mode, fb := fieldAt bs (o + 2) 3, fmin := fieldAt bs (o + 5) 3, d0 := fieldAt bs (o + 8) 2
    t0 := fieldAt bs (o + 10) 2, ld := fieldAt bs (o + 12) 2, sd := fieldAt bs (o + 14) 3, lt := fieldAt bs (o + 17) 2
    st := fieldAt bs (o + 19) 3, vs := fieldAt bs (o + 22) 2, vh := fieldAt bs (o + 24) 1, f1 := fieldAt bs (o + 25) 2
    f2 := fieldAt bs (o + 27) 2, f3 := fieldAt bs (o + 29) 2, f4 := fieldAt bs (o + 31) 2 }

/-- The band at offset `o`, whatever its fields hold. -/
def bandAt (bs : List Byte) (o : Nat) : Option Band :=
  if fieldAt bs o 1 = 0 then none
  else some (bandFields bs o (if fieldAt bs (o + 1) 1 = 0 then .switched else .combined))

/-- The code of the extras table at offset `o`, whatever its fields hold. -/
def extraAt (bs : List Byte) (o : Nat) : Option ExtraDef :=
  if fieldAt bs o 1 = 0 then none
  else some
    { kind := if fieldAt bs (o + 1) 1 = 1 then .fixed else if fieldAt bs (o + 1) 1 = 2 then .entered else .perPassenger
      amount := fieldAt bs (o + 2) 3, limit := fieldAt bs (o + 5) 1 }

def calEntryAt (bs : List Byte) (o : Nat) : CalEntry :=
  { weekday := fieldAt bs o 1 % 2 == 1, saturday := fieldAt bs o 1 / 2 % 2 == 1, sunday := fieldAt bs o 1 / 4 % 2 == 1
    holiday := fieldAt bs o 1 / 8 % 2 == 1, start := fieldAt bs (o + 1) 2, band := fieldAt bs (o + 3) 1 }

/-- The mode of a defined band is one of the two, and its parameters lie in their ranges (R64). -/
def BandFits (bs : List Byte) (o : Nat) : Prop :=
  ∀ b, bandAt bs o = some b → fieldAt bs (o + 1) 1 ≤ 1 ∧ bandOk b = true

/-- The kind, the amount and the limit of a defined code (R65). -/
def ExtraFits (bs : List Byte) (o : Nat) : Prop :=
  ∀ x, extraAt bs o = some x → 1 ≤ fieldAt bs (o + 1) 1 ∧ fieldAt bs (o + 1) 1 ≤ 3 ∧ 1 ≤ x.limit ∧ x.limit ≤ 6
    ∧ (x.kind = .entered → x.amount = 0) ∧ (x.kind ≠ .entered → 1 ≤ x.amount ∧ x.amount ≤ 50000)

theorem between_iff {lo n hi : Nat} : between lo n hi = true ↔ lo ≤ n ∧ n ≤ hi := by
  simp only [between, Bool.and_eq_true, decide_eq_true_eq]

/-- The factors fall from f1 = 1000 to f4, so f4 alone needs a lower bound (R64). -/
theorem bandOk_iff (b : Band) : bandOk b = true ↔
    b.fb ≤ 50000 ∧ b.fmin ≤ 50000 ∧ b.d0 ≤ 5000 ∧ b.t0 ≤ 1800 ∧ 1 ≤ b.ld ∧ b.ld ≤ 2000 ∧ 1 ≤ b.sd ∧ b.sd ≤ 5000
      ∧ 10 ≤ b.lt ∧ b.lt ≤ 6000 ∧ 1 ≤ b.st ∧ b.st ≤ 5000 ∧ 50 ≤ b.vs ∧ b.vs ≤ 600 ∧ b.vh ≤ 50 ∧ b.vh + 10 ≤ b.vs
      ∧ b.f1 = 1000 ∧ b.f2 ≤ b.f1 ∧ b.f3 ≤ b.f2 ∧ b.f4 ≤ b.f3 ∧ 100 ≤ b.f4 := by
  simp only [bandOk, Bool.and_eq_true, decide_eq_true_eq, beq_iff_eq, between_iff]
  omega

theorem parseBand_undefined {e : List Byte} (h : fieldAt e 0 1 = 0) : parseBand e = some none := if_pos h

theorem parseBand_mode {e : List Byte} (hdef : fieldAt e 0 1 ≠ 0) {mode : BandMode}
    (h : fieldAt e 1 1 = if mode = .switched then 0 else 1) :
    parseBand e = if bandOk (bandFields e 0 mode) then some (some (bandFields e 0 mode)) else none := by
  unfold parseBand
  rw [if_neg hdef]
  dsimp only
  rw [h]
  cases mode with
  | switched => rfl
  | combined => rfl

theorem parseBand_noMode {e : List Byte} (hdef : fieldAt e 0 1 ≠ 0) (h : ¬ fieldAt e 1 1 ≤ 1) : parseBand e = none := by
  unfold parseBand
  rw [if_neg hdef]
  dsimp only
  split
  · next h0 => exact absurd (h0.trans_le (Nat.zero_le 1)) h
  · next h1 => exact absurd h1.le h
  · rfl

theorem bandAt_defined {bs : List Byte} {o : Nat} (hdef : fieldAt bs o 1 ≠ 0) :
    bandAt bs o = some (bandFields bs o (if fieldAt bs (o + 1) 1 = 0 then .switched else .combined)) := if_neg hdef

theorem parseBand_eq_some_iff (e : List Byte) (y : Option Band) :
    parseBand e = some y ↔ y = bandAt e 0 ∧ BandFits e 0 := by
  unfold BandFits
  by_cases hdef : fieldAt e 0 1 = 0
  · have hnone : bandAt e 0 = none := if_pos hdef
    rw [parseBand_undefined hdef, hnone]
    exact ⟨fun h => ⟨(Option.some.inj h).symm, fun _ => nofun⟩, fun ⟨h, _⟩ => congrArg some h.symm⟩
  · rw [bandAt_defined hdef]
    by_cases hmode : fieldAt e 1 1 ≤ 1
    · have hcoded : fieldAt e 1 1
          = if (if fieldAt e 1 1 = 0 then BandMode.switched else .combined) = .switched then 0 else 1 := by
        by_cases h0 : fieldAt e 1 1 = 0
        · rw [if_pos h0]
          exact h0
        · have h1 : fieldAt e 1 1 = 1 := by omega
          rw [if_neg h0]
          exact h1
      rw [parseBand_mode hdef hcoded, Option.ite_none_right_eq_some, Option.some_inj, and_comm, eq_comm (b := y)]
      refine and_congr_right fun _ => ⟨?_, fun h => (h _ rfl).2⟩
      rintro hok _ ⟨⟩
      exact ⟨hmode, hok⟩
    · rw [parseBand_noMode hdef hmode]
      exact ⟨nofun, fun ⟨_, h⟩ => (hmode (h _ rfl).1).elim⟩

theorem parseExtra_eq_some_iff (e : List Byte) (y : Option ExtraDef) :
    parseExtra e = some y ↔ y = extraAt e 0 ∧ ExtraFits e 0 := by
  unfold parseExtra ExtraFits extraAt
  by_cases hdef : fieldAt e 0 1 = 0
  · simp [hdef, eq_comm]
  · simp only [hdef, if_false, Nat.zero_add, Option.some.injEq, forall_eq', between_iff]
    by_cases hlim : 1 ≤ fieldAt e 5 1 ∧ fieldAt e 5 1 ≤ 6
    · rw [if_pos hlim]
      split
      · next h => simp [h, hlim, eq_comm, and_comm]
      · next h => simp [h, hlim, eq_comm, and_comm]
      · next h => simp [h, hlim, eq_comm, and_comm]
      · next h1 h2 h3 =>
        simp only [reduceCtorEq, false_iff]
        rintro ⟨-, hlow, hhigh, -⟩
        interval_cases fieldAt e 1 1 <;> contradiction
    · rw [if_neg hlim]
      simp only [reduceCtorEq, false_iff]
      exact fun ⟨_, _, _, hlow, hhigh, _⟩ => hlim ⟨hlow, hhigh⟩

theorem bandAt_piece (bs : List Byte) (o : Nat) : bandAt ((bs.drop o).take 33) 0 = bandAt bs o := by
  simp [bandAt, bandFields, fieldAt_piece]

theorem bandFits_piece (bs : List Byte) (o : Nat) : BandFits ((bs.drop o).take 33) 0 ↔ BandFits bs o := by
  simp [BandFits, bandAt_piece, fieldAt_piece]

theorem extraAt_piece (bs : List Byte) (o : Nat) : extraAt ((bs.drop o).take 6) 0 = extraAt bs o := by
  simp [extraAt, fieldAt_piece]

theorem extraFits_piece (bs : List Byte) (o : Nat) : ExtraFits ((bs.drop o).take 6) 0 ↔ ExtraFits bs o := by
  simp [ExtraFits, extraAt_piece, fieldAt_piece]

theorem parseCalEntry_piece (bs : List Byte) (o : Nat) : parseCalEntry ((bs.drop o).take 4) = calEntryAt bs o := by
  simp [parseCalEntry, calEntryAt, fieldAt_piece]

theorem parseHoliday_piece (bs : List Byte) (o : Nat) :
    parseHoliday ((bs.drop o).take 4) = ⟨fieldAt bs o 2, fieldAt bs (o + 2) 1, fieldAt bs (o + 3) 1⟩ := by
  simp [parseHoliday, fieldAt_piece]

/-- A table that is read item by item is read whole exactly where each item is. -/
theorem allSome_map_eq_some_iff {α β : Type} {f : α → Option β} {g : α → β} {P : α → Prop}
    (hf : ∀ x y, f x = some y ↔ y = g x ∧ P x) (xs : List α) :
    ∀ ys, allSome (xs.map f) = some ys ↔ ys = xs.map g ∧ ∀ x ∈ xs, P x := by
  induction xs with
  | nil => simp [allSome, eq_comm]
  | cons x xs ih =>
    intro ys
    rw [List.map_cons, List.map_cons, List.forall_mem_cons]
    cases hx : f x with
    | none =>
      have hno : ¬ P x := fun hp => Option.some_ne_none _ (((hf x _).2 ⟨rfl, hp⟩).symm.trans hx)
      simp [allSome, hno]
    | some y =>
      obtain ⟨rfl, hp⟩ := (hf x y).1 hx
      simp [allSome, ih, hp, eq_comm, and_comm]

/-! ### The image as laid out (Table 12-7) -/

/-- The items of the image at their places. -/
def imageAt (bs : List Byte) : Image :=
  { number := fieldAt bs 2 2, edition := fieldAt bs 4 1, k := fieldAt bs 5 2, vmax := fieldAt bs 7 2
    respCode := fieldAt bs 9 1 / 64, bright := fieldAt bs 9 1 % 4, pollUnits := fieldAt bs 10 1, currency := fieldAt bs 11 2
    clearCode := [fieldAt bs 13 1, fieldAt bs 14 1, fieldAt bs 15 1, fieldAt bs 16 1]
    bands := [bandAt bs 19, bandAt bs 52, bandAt bs 85, bandAt bs 118]
    calendar := (List.range (fieldAt bs 17 1)).map fun i => calEntryAt bs (151 + 4 * i)
    holidays := (List.range (fieldAt bs 18 1)).map fun i =>
      ⟨fieldAt bs (199 + 4 * i) 2, fieldAt bs (201 + 4 * i) 1, fieldAt bs (202 + 4 * i) 1⟩
    extras := (List.range 8).map fun i => extraAt bs (263 + 6 * i)
    tips := (List.range (fieldAt bs 311 1)).map fun i => fieldAt bs (312 + i) 1 }

/-- The counts allow the tables that are read (R65). -/
def CountsFit (bs : List Byte) : Prop := fieldAt bs 17 1 ≤ 12 ∧ fieldAt bs 18 1 ≤ 16 ∧ fieldAt bs 311 1 ≤ 4

/-- A table of entries of one width at offset `o`, read entry by entry. -/
theorem allSome_chunks_eq_some_iff {β : Type} {parse : List Byte → Option β} {item : List Byte → Nat → β}
    {Fits : List Byte → Nat → Prop} {w : Nat} (hw : 0 < w)
    (hparse : ∀ e y, parse e = some y ↔ y = item e 0 ∧ Fits e 0)
    (hitem : ∀ bs o, item ((bs.drop o).take w) 0 = item bs o) (hfits : ∀ bs o, Fits ((bs.drop o).take w) 0 ↔ Fits bs o)
    {bs : List Byte} {o c : Nat} (h : o + w * c ≤ bs.length) (ys : List β) :
    allSome ((chunks w c ((bs.drop o).take (w * c))).map parse) = some ys
      ↔ ys = (List.range c).map (fun i => item bs (o + w * i)) ∧ ∀ i < c, Fits bs (o + w * i) := by
  rw [chunks_eq_pieces hw c bs o h, List.map_map]
  refine (allSome_map_eq_some_iff (g := fun i => item bs (o + w * i)) (P := fun i => Fits bs (o + w * i))
    (fun i y => ?_) _ ys).trans ?_
  · rw [Function.comp_apply, hparse, hitem, hfits]
  · simp only [List.mem_range]

section
variable {bs : List Byte}

theorem clearCode_read (hlen : bs.length = 320) : ((bs.drop 13).take 4).map (·.toNat) = (imageAt bs).clearCode :=
  bytes_eq_fields bs 13 4 (by omega)

theorem tips_read (hlen : bs.length = 320) (h : CountsFit bs) :
    ((bs.drop 312).take (fieldAt bs 311 1)).map (·.toNat) = (imageAt bs).tips := by
  obtain ⟨-, -, htips⟩ := h
  exact bytes_eq_fields bs 312 _ (by omega)

theorem calendar_read (hlen : bs.length = 320) (h : CountsFit bs) :
    ((chunks 4 12 ((bs.drop 151).take 48)).take (fieldAt bs 17 1)).map parseCalEntry = (imageAt bs).calendar := by
  obtain ⟨hcal, -, -⟩ := h
  rw [chunks_take (w := 4) (c := 12) (by decide) bs 151 (by omega) hcal, List.map_map]
  exact List.map_congr_left fun i _ => parseCalEntry_piece bs (151 + 4 * i)

theorem holidays_read (hlen : bs.length = 320) (h : CountsFit bs) :
    ((chunks 4 16 ((bs.drop 199).take 64)).take (fieldAt bs 18 1)).map parseHoliday = (imageAt bs).holidays := by
  obtain ⟨-, hhol, -⟩ := h
  rw [chunks_take (w := 4) (c := 16) (by decide) bs 199 (by omega) hhol, List.map_map]
  refine List.map_congr_left fun i _ => (parseHoliday_piece bs (199 + 4 * i)).trans ?_
  rw [Nat.add_right_comm 199 _ 2, Nat.add_right_comm 199 _ 3]

theorem readImage_eq_some_iff (hlen : bs.length = 320) (im : Image) :
    readImage bs = some im ↔ im = imageAt bs ∧ (∀ i < 4, BandFits bs (19 + 33 * i))
      ∧ (∀ i < 8, ExtraFits bs (263 + 6 * i)) ∧ CountsFit bs := by
  have hbands := allSome_chunks_eq_some_iff (w := 33) (o := 19) (c := 4) (by decide) parseBand_eq_some_iff bandAt_piece
    bandFits_piece (bs := bs) (by omega)
  have hextras := allSome_chunks_eq_some_iff (w := 6) (o := 263) (c := 8) (by decide) parseExtra_eq_some_iff extraAt_piece
    extraFits_piece (bs := bs) (by omega)
  unfold readImage
  dsimp only
  split
  · next bands extras hb he =>
    obtain ⟨rfl, hbf⟩ := (hbands bands).1 hb
    obtain ⟨rfl, hef⟩ := (hextras extras).1 he
    split
    · next hcounts =>
      rw [clearCode_read hlen, calendar_read hlen hcounts, holidays_read hlen hcounts, tips_read hlen hcounts,
        Option.some_inj, eq_comm]
      exact ⟨fun h => ⟨h, hbf, hef, hcounts⟩, And.left⟩
    · next hcounts => exact ⟨nofun, fun ⟨_, _, _, h⟩ => (hcounts h).elim⟩
  · next hno =>
    exact ⟨nofun, fun ⟨_, hbf, hef, _⟩ => (hno _ _ ((hbands _).2 ⟨rfl, hbf⟩) ((hextras _).2 ⟨rfl, hef⟩)).elim⟩

end

/-! ### Validation (R63 to R65) -/

theorem frameOk_iff (bs : List Byte) : frameOk bs = true ↔
    bs.length = 320 ∧ fieldAt bs 0 2 = 320 ∧ (crc32 (bs.take 316)).toNat = fieldAt bs 316 4 := by
  simp only [frameOk, Bool.and_eq_true, beq_iff_eq]
  tauto

/-- Validation holds what was read whole where the frame, the numbers and the tables pass. -/
theorem validateImage_eq_some_iff (bs : List Byte) (im : Image) : validateImage (some bs) = some im ↔
    frameOk bs = true ∧ readImage bs = some im ∧ globalsOk im = true ∧ tablesOk im = true := by
  unfold validateImage
  dsimp only
  split
  · next im' h =>
    simp only [h, Option.ite_none_right_eq_some, Option.some_inj, Bool.and_eq_true]
    constructor
    · rintro ⟨⟨⟨hf, hg⟩, ht⟩, rfl⟩
      exact ⟨hf, rfl, hg, ht⟩
    · rintro ⟨hf, rfl, hg, ht⟩
      exact ⟨⟨⟨hf, hg⟩, ht⟩, rfl⟩
  · next h =>
    rw [h]
    exact ⟨nofun, fun ⟨_, h, _⟩ => nomatch h⟩

/-- The upper bounds of what two bytes or two bits carry need no check (Table 12-7). -/
theorem globalsOk_imageAt_iff (bs : List Byte) : globalsOk (imageAt bs) = true ↔
    1 ≤ (imageAt bs).number ∧ 1000 ≤ (imageAt bs).k ∧ (imageAt bs).k ≤ 60000 ∧ 100 ≤ (imageAt bs).vmax
      ∧ (imageAt bs).vmax ≤ 300 ∧ bandAt bs 19 ≠ none ∧ 2 ≤ (imageAt bs).pollUnits ∧ (imageAt bs).pollUnits ≤ 50
      ∧ 1 ≤ (imageAt bs).currency ∧ (imageAt bs).currency ≤ 999 ∧ (∀ d ∈ (imageAt bs).clearCode, d ≤ 9)
      ∧ ∀ p ∈ (imageAt bs).tips, p ≤ 30 := by
  have hnumber : (imageAt bs).number ≤ 65535 := Nat.le_of_lt_succ (fieldAt_lt bs 2 2)
  have hresp : (imageAt bs).respCode ≤ 3 := by
    have : fieldAt bs 9 1 < 256 := fieldAt_lt bs 9 1
    show fieldAt bs 9 1 / 64 ≤ 3
    omega
  have hbright : (imageAt bs).bright ≤ 3 := Nat.le_of_lt_succ (Nat.mod_lt _ (by decide))
  have hband0 : (imageAt bs).bands.head?.join = bandAt bs 19 := rfl
  simp only [globalsOk, Bool.and_eq_true, decide_eq_true_eq, between_iff, List.all_eq_true, hband0, Option.isSome_iff_ne_none,
    hnumber, hresp, hbright, and_true, and_assoc]

/-- Two entries with the same start minute have no day type in common (R65). -/
def CalEntry.Apart (e f : CalEntry) : Prop :=
  e.start = f.start → ¬ ((e.weekday = true ∧ f.weekday = true) ∨ (e.saturday = true ∧ f.saturday = true)
    ∨ (e.sunday = true ∧ f.sunday = true) ∨ (e.holiday = true ∧ f.holiday = true))

theorem CalEntry.Apart.symm {e f : CalEntry} (h : e.Apart f) : f.Apart e := by
  intro hstart hshared
  refine h hstart.symm ?_
  simpa only [and_comm] using hshared

theorem CalEntry.apart_iff (e f : CalEntry) : (!(e.start == f.start && sharesDay e f)) = true ↔ e.Apart f := by
  simp only [CalEntry.Apart, sharesDay, Bool.not_eq_true', beq_iff_eq, ← Bool.not_eq_true, Bool.or_eq_true, Bool.and_eq_true,
    or_assoc, not_and]

theorem calendarDistinct_iff (es : List CalEntry) : calendarDistinct es = true ↔ es.Pairwise CalEntry.Apart := by
  induction es with
  | nil => exact ⟨fun _ => .nil, fun _ => rfl⟩
  | cons e es ih => simp only [calendarDistinct, Bool.and_eq_true, List.all_eq_true, CalEntry.apart_iff, ih, List.pairwise_cons]

theorem calEntryOk_iff (bands : List (Option Band)) (e : CalEntry) : calEntryOk bands e = true ↔
    (e.weekday = true ∨ e.saturday = true ∨ e.sunday = true ∨ e.holiday = true) ∧ e.start ≤ 1439
      ∧ ∃ b, bands[e.band]? = some (some b) := by
  simp only [calEntryOk, Bool.and_eq_true, Bool.or_eq_true, decide_eq_true_eq, Option.isSome_iff_exists, Option.join_eq_some_iff,
    or_assoc, and_assoc]

theorem dateOk_iff (y m d : Nat) : dateOk y m d = true ↔
    2000 ≤ y ∧ y ≤ 2099 ∧ 1 ≤ m ∧ m ≤ 12 ∧ 1 ≤ d ∧ d ≤ daysInMonth y m := by
  simp only [dateOk, Bool.and_eq_true, decide_eq_true_eq, and_assoc]

theorem tablesOk_iff (im : Image) : tablesOk im = true ↔
    (∀ e ∈ im.calendar, (e.weekday = true ∨ e.saturday = true ∨ e.sunday = true ∨ e.holiday = true) ∧ e.start ≤ 1439
        ∧ ∃ b, im.bands[e.band]? = some (some b))
      ∧ im.calendar.Pairwise CalEntry.Apart
      ∧ ∀ d ∈ im.holidays, 2000 ≤ d.year ∧ d.year ≤ 2099 ∧ 1 ≤ d.month ∧ d.month ≤ 12 ∧ 1 ≤ d.day
          ∧ d.day ≤ daysInMonth d.year d.month := by
  simp only [tablesOk, Bool.and_eq_true, List.all_eq_true, calEntryOk_iff, calendarDistinct_iff, dateOk_iff, and_assoc]

/-- Bytes are held, laid out as they stand, exactly where every stage of validation passes. -/
theorem validateImage_eq_imageAt_iff (bs : List Byte) (im : Image) : validateImage (some bs) = some im ↔
    im = imageAt bs ∧ frameOk bs = true ∧ globalsOk (imageAt bs) = true ∧ (∀ i < 4, BandFits bs (19 + 33 * i))
      ∧ CountsFit bs ∧ tablesOk (imageAt bs) = true ∧ ∀ i < 8, ExtraFits bs (263 + 6 * i) := by
  rw [validateImage_eq_some_iff]
  constructor
  · rintro ⟨hframe, hread, hglobals, htables⟩
    obtain ⟨rfl, hbands, hextras, hcounts⟩ := (readImage_eq_some_iff ((frameOk_iff bs).1 hframe).1 im).1 hread
    exact ⟨rfl, hframe, hglobals, hbands, hcounts, htables, hextras⟩
  · rintro ⟨rfl, hframe, hglobals, hbands, hcounts, htables, hextras⟩
    exact ⟨hframe, (readImage_eq_some_iff ((frameOk_iff bs).1 hframe).1 _).2 ⟨rfl, hbands, hextras, hcounts⟩, hglobals, htables⟩

/-! ### Band selection (R69, R70) -/

/-- The entry has the greatest start minute of a list. -/
def CalEntry.LatestOf (e : CalEntry) (es : List CalEntry) : Prop := e ∈ es ∧ ∀ f ∈ es, f.start ≤ e.start

theorem latestEntry_concat_none {es : List CalEntry} (h : latestEntry es = none) (e : CalEntry) :
    latestEntry (es ++ [e]) = some e := by
  unfold latestEntry at h ⊢
  rw [List.foldl_concat, h]

theorem latestEntry_concat_some {es : List CalEntry} {b : CalEntry} (h : latestEntry es = some b) (e : CalEntry) :
    latestEntry (es ++ [e]) = if b.start < e.start then some e else some b := by
  unfold latestEntry at h ⊢
  rw [List.foldl_concat, h]

theorem latestEntry_latestOf (es : List CalEntry) :
    (es = [] ∧ latestEntry es = none) ∨ ∃ e, latestEntry es = some e ∧ e.LatestOf es := by
  induction es using List.reverseRecOn with
  | nil => exact Or.inl ⟨rfl, rfl⟩
  | append_singleton es e ih =>
    right
    obtain ⟨rfl, hnone⟩ | ⟨b, hb, hmem, hmax⟩ := ih
    · exact ⟨e, latestEntry_concat_none hnone e, by simp [CalEntry.LatestOf]⟩
    · rw [latestEntry_concat_some hb]
      split
      · next h =>
        refine ⟨e, rfl, by simp, fun f hf => ?_⟩
        obtain hf | hf := List.mem_append.1 hf
        · exact (hmax f hf).trans h.le
        · exact (congrArg _ (List.mem_singleton.1 hf)).le
      · next h =>
        refine ⟨b, rfl, List.mem_append_left _ hmem, fun f hf => ?_⟩
        obtain hf | hf := List.mem_append.1 hf
        · exact hmax f hf
        · exact (congrArg _ (List.mem_singleton.1 hf)).le.trans (Nat.le_of_not_lt h)

/-- The day type of a clock value (R69): 2000-01-01, day 0, was a Saturday (R56). -/
theorem CalEntry.onDay_eq (e : CalEntry) (im : Image) (seconds : Nat) : e.onDay im seconds =
    if dateOf seconds ∈ im.holidays then e.holiday else if seconds / 86400 % 7 = 0 then e.saturday
      else if seconds / 86400 % 7 = 1 then e.sunday else e.weekday := by
  unfold CalEntry.onDay dayOfWeek
  simp only [List.contains_iff_mem]
  split
  · rfl
  · split
    · next h => rw [if_neg (by omega), if_pos (by omega)]
    · next h => rw [if_pos (by omega)]
    · next h0 h6 => rw [if_neg fun h => h6 (by omega), if_neg fun h => h0 (by omega)]

/-- The entries that count on the day of a clock value (R69). -/
def Image.countedOn (im : Image) (seconds : Nat) : List CalEntry := im.calendar.filter fun e => e.onDay im seconds

/-- Those of them that have started by its minute of day (R70). -/
def Image.startedOn (im : Image) (seconds : Nat) : List CalEntry :=
  (im.countedOn seconds).filter fun e => e.start ≤ minuteOfDay seconds

section
variable {im : Image} {seconds : Nat} {e f : CalEntry}

theorem Image.mem_countedOn : e ∈ im.countedOn seconds ↔ e ∈ im.calendar ∧ e.onDay im seconds = true := List.mem_filter

theorem Image.mem_startedOn : e ∈ im.startedOn seconds ↔ e ∈ im.countedOn seconds ∧ e.start ≤ minuteOfDay seconds := by
  rw [Image.startedOn, List.mem_filter, decide_eq_true_eq]

/-- Two entries that count on one day have its day type in common, so their start minutes differ (R65). -/
theorem eq_of_countedOn_of_start (hdistinct : im.calendar.Pairwise CalEntry.Apart) (he : e ∈ im.countedOn seconds)
    (hf : f ∈ im.countedOn seconds) (hstart : e.start = f.start) : e = f := by
  obtain ⟨he, hday⟩ := Image.mem_countedOn.1 he
  obtain ⟨hf, hday'⟩ := Image.mem_countedOn.1 hf
  by_contra hne
  have hsymm : Std.Symm CalEntry.Apart := ⟨fun _ _ => CalEntry.Apart.symm⟩
  refine hdistinct.forall he hf hne hstart ?_
  rw [CalEntry.onDay_eq] at hday hday'
  split_ifs at hday hday' <;> simp only [hday, hday', and_self, true_or, or_true]

theorem latestEntry_eq_of_latestOf (hdistinct : im.calendar.Pairwise CalEntry.Apart) {es : List CalEntry}
    (hsub : ∀ f ∈ es, f ∈ im.countedOn seconds) (he : e.LatestOf es) : latestEntry es = some e := by
  obtain ⟨hmem, hmax⟩ := he
  obtain ⟨rfl, -⟩ | ⟨b, hb, hbmem, hbmax⟩ := latestEntry_latestOf es
  · cases hmem
  · rw [hb, eq_of_countedOn_of_start hdistinct (hsub b hbmem) (hsub e hmem) ((hmax b hbmem).antisymm (hbmax e hmem))]

theorem selectBand_started (h : latestEntry (im.startedOn seconds) = some e) : selectBand im seconds = e.band := by
  unfold Image.startedOn Image.countedOn at h
  unfold selectBand
  dsimp only
  rw [h]

theorem selectBand_carried (hnone : im.startedOn seconds = []) (h : latestEntry (im.countedOn seconds) = some e) :
    selectBand im seconds = e.band := by
  unfold Image.startedOn Image.countedOn at hnone
  unfold Image.countedOn at h
  unfold selectBand
  dsimp only
  rw [hnone, h]
  rfl

theorem selectBand_noEntry (h : im.countedOn seconds = []) : selectBand im seconds = 0 := by
  unfold Image.countedOn at h
  unfold selectBand
  dsimp only
  rw [h]
  rfl

/-- The band comes from an entry of the calendar, or is band 0 (R70). -/
theorem selectBand_cases (im : Image) (seconds : Nat) :
    selectBand im seconds = 0 ∨ ∃ e ∈ im.calendar, selectBand im seconds = e.band := by
  obtain ⟨hnone, -⟩ | ⟨e, he, hmem, -⟩ := latestEntry_latestOf (im.startedOn seconds)
  · obtain ⟨hnone', -⟩ | ⟨e, he, hmem, -⟩ := latestEntry_latestOf (im.countedOn seconds)
    · exact Or.inl (selectBand_noEntry hnone')
    · exact Or.inr ⟨e, (Image.mem_countedOn.1 hmem).1, selectBand_carried hnone he⟩
  · exact Or.inr ⟨e, (Image.mem_countedOn.1 (Image.mem_startedOn.1 hmem).1).1, selectBand_started he⟩

/-- In a held image band 0 and the bands of the entries are defined (R64, R65). -/
theorem selectBand_defined (hglobals : globalsOk im = true) (htables : tablesOk im = true) (seconds : Nat) :
    ∃ b, im.bands[selectBand im seconds]? = some (some b) := by
  obtain h | ⟨e, he, h⟩ := selectBand_cases im seconds
  · have hband0 : im.bands.head?.join.isSome = true := by
      simp only [globalsOk, Bool.and_eq_true] at hglobals
      tauto
    rw [h, ← List.head?_eq_getElem?]
    obtain ⟨b, hb⟩ := Option.isSome_iff_exists.1 hband0
    exact ⟨b, Option.join_eq_some_iff.1 hb⟩
  · obtain ⟨hentries, -⟩ := (tablesOk_iff im).1 htables
    obtain ⟨-, -, hb⟩ := hentries e he
    rwa [h]

end

/-! ### The statement -/

/-- Settles O6. -/
theorem tariffImageIsHeldAndSelectsItsBand : Obligations.TariffImageIsHeldAndSelectsItsBand := by
  refine ⟨rfl, fun bs n hn band hband entry hentry extra hextra im him frame numbers bands tables hframe hnumbers hbands
    htables => ?_, fun read im seconds m hheld hm counted hcounted => ?_⟩
  · obtain rfl : n = fieldAt bs := hn
    obtain rfl : band = bandAt bs := hband
    obtain rfl : entry = calEntryAt bs := hentry
    obtain rfl : extra = extraAt bs := hextra
    obtain rfl : im = imageAt bs := him
    have hframeOk : frameOk bs = true ↔ frame := by rw [hframe, frameOk_iff]
    have hglobalsOk : globalsOk (imageAt bs) = true ↔ numbers := by
      rw [hnumbers]
      exact globalsOk_imageAt_iff bs
    have hbandsFit : (∀ i < 4, BandFits bs (19 + 33 * i)) ↔ bands := by
      rw [hbands]
      refine forall₂_congr fun i _ => forall₂_congr fun b _ => ?_
      rw [bandOk_iff, Nat.add_right_comm]
    have htablesFit : (CountsFit bs ∧ tablesOk (imageAt bs) = true ∧ ∀ i < 8, ExtraFits bs (263 + 6 * i)) ↔ tables := by
      have hkind (i : Nat) : 264 + 6 * i = 263 + 6 * i + 1 := Nat.add_right_comm 263 1 _
      simp only [htables, CountsFit, tablesOk_iff, ExtraFits, hkind, and_assoc]
      rfl
    have hheld (im : Image) : validateImage (some bs) = some im ↔ im = imageAt bs ∧ frame ∧ numbers ∧ bands ∧ tables := by
      rw [validateImage_eq_imageAt_iff, hframeOk, hglobalsOk, hbandsFit, htablesFit]
    exact ⟨fun h => (hheld _).2 ⟨rfl, h⟩,
      fun h => Option.eq_none_iff_forall_ne_some.2 fun im him => h ((hheld im).1 him).2⟩
  · obtain ⟨bs, rfl⟩ : ∃ bs, read = some bs := by
      cases read with
      | none => cases hheld
      | some bs => exact ⟨bs, rfl⟩
    obtain ⟨-, -, hglobals, htables⟩ := (validateImage_eq_some_iff bs im).1 hheld
    obtain ⟨-, hdistinct, -⟩ := (tablesOk_iff im).1 htables
    obtain rfl : m = minuteOfDay seconds := hm
    obtain rfl : counted = im.countedOn seconds := by
      simp only [hcounted, Image.countedOn, CalEntry.onDay_eq]
    refine ⟨fun e he hstart hmax => selectBand_started ?_, fun e he hlate => selectBand_carried ?_ ?_,
      selectBand_noEntry, selectBand_defined hglobals htables seconds⟩
    · refine latestEntry_eq_of_latestOf hdistinct (fun f hf => (Image.mem_startedOn.1 hf).1)
        ⟨Image.mem_startedOn.2 ⟨he, hstart⟩, fun f hf => ?_⟩
      obtain ⟨hf, hfstart⟩ := Image.mem_startedOn.1 hf
      exact hmax f hf hfstart
    · refine List.eq_nil_iff_forall_not_mem.2 fun f hf => ?_
      obtain ⟨hf, hfstart⟩ := Image.mem_startedOn.1 hf
      exact absurd hfstart (hlate f hf).1.not_ge
    · exact latestEntry_eq_of_latestOf hdistinct (fun f hf => hf) ⟨he, fun f hf => (hlate f hf).2⟩

end Sys2Proof.Machine
end

section
/-! PROOFS. Admission to the transmit queue (O26). -/
namespace Sys2Proof.Machine
open Sys2Proof

/-! ### Where an entry is placed (R81) -/

/-- In a queue in the order of classes a new entry stands behind the older ones of its class and of lower ones. -/
theorem insertEntry_splits (e : Entry) : ∀ {q : List Entry}, q.Pairwise (fun a b => a.cls ≤ b.cls) →
    ∃ older younger, q = older ++ younger ∧ (∀ x ∈ older, x.cls ≤ e.cls) ∧ (∀ x ∈ younger, e.cls < x.cls)
      ∧ insertEntry e q = older ++ e :: younger
  | [], _ => ⟨[], [], rfl, List.forall_mem_nil _, List.forall_mem_nil _, rfl⟩
  | x :: xs, h => by
    obtain ⟨hx, hxs⟩ := List.pairwise_cons.1 h
    unfold insertEntry
    split
    · next hle =>
      obtain ⟨older, younger, rfl, hold, hyoung, hins⟩ := insertEntry_splits e hxs
      exact ⟨x :: older, younger, rfl, List.forall_mem_cons.2 ⟨hle, hold⟩, hyoung, by rw [hins]; rfl⟩
    · next hlt =>
      have hlt := Nat.lt_of_not_le hlt
      exact ⟨[], x :: xs, rfl, List.forall_mem_nil _,
        List.forall_mem_cons.2 ⟨hlt, fun y hy => hlt.trans_le (hx y hy)⟩, rfl⟩

/-! ### What an offer meets in the queue (R82, Table 5-3) -/

section
variable (l : Link) (cls : Nat)

theorem replaceable_iff : replaceable cls = true ↔ cls = 0 ∨ cls = 6 := by
  simp [replaceable]

theorem Link.has_iff : l.has cls = true ↔ ∃ e ∈ l.queue, e.cls = cls := by
  simp [Link.has]

theorem Link.inFlight_iff : l.inFlight cls = true ↔ ∃ e ∈ l.queue, e.cls = cls ∧ e.begun = true := by
  simp [Link.inFlight]

theorem Link.admits_iff : l.admits cls = true ↔ l.queue.length ≤ 12 ∨ (l.queue.length ≤ 15 ∧ cls ≤ 3) := by
  have hfree : l.freeEntries = 16 - l.queue.length := rfl
  simp only [Link.admits, Bool.or_eq_true, Bool.and_eq_true, decide_eq_true_eq]
  omega

end

section
variable {l : Link} {cls : Nat} (now : Nat) (payload : List Byte) (tag : Tag)

theorem Link.offer_clashed (h : l.clash = true) : l.offer now cls payload tag = none := if_pos h

/-- The entry that a taken offer becomes (R81). -/
def newEntry (now cls : Nat) (payload : List Byte) (tag : Tag) : Entry :=
  { cls := cls, payload := payload, tag := tag, offered := now, begun := false }

/-- An offer that replaces nothing goes by the free entries alone. -/
theorem Link.offer_fresh (hc : l.clash = false) (hr : ¬ (replaceable cls = true ∧ l.has cls = true)) :
    l.offer now cls payload tag =
      if l.admits cls then some { l with queue := insertEntry (newEntry now cls payload tag) l.queue } else none := by
  unfold Link.offer
  rw [if_neg (by rw [hc]; exact Bool.false_ne_true), if_neg (by rwa [Bool.and_eq_true])]
  rfl

/-- An offer that replaces takes the place of the one queued, or waits beside the one in flight. -/
theorem Link.offer_replacing (hc : l.clash = false) (hr : replaceable cls = true) (hh : l.has cls = true) :
    l.offer now cls payload tag =
      if l.inFlight cls then some { l with repl := some ⟨payload, false⟩ } else some (l.replace cls payload) := by
  unfold Link.offer
  rw [if_neg (by rw [hc]; exact Bool.false_ne_true), if_pos (by rw [hr, hh]; rfl)]

end

/-- Settles O26. -/
theorem offersAreAdmittedByFreeEntries : Obligations.OffersAreAdmittedByFreeEntries := by
  intro l now cls payload tag hsorted hlen
  refine ⟨Link.offer_clashed now payload tag, fun hc hnew => ?_, fun hc hcls hhas => ?_⟩
  · have hfresh : ¬ (replaceable cls = true ∧ l.has cls = true) := by
      rintro ⟨hr, hh⟩
      obtain ⟨h0, h6⟩ | hnone := hnew
      · exact ((replaceable_iff cls).1 hr).elim h0 h6
      · obtain ⟨e, he, hecls⟩ := (l.has_iff cls).1 hh
        exact hnone e he hecls
    rw [Link.offer_fresh now payload tag hc hfresh]
    refine ⟨fun hroom => ?_, fun hfull => if_neg fun hadm => ?_⟩
    · obtain ⟨older, younger, hq, hold, hyoung, hins⟩ := insertEntry_splits (newEntry now cls payload tag) hsorted
      refine ⟨older, younger, hq, hold, hyoung, ?_⟩
      rw [if_pos ((l.admits_iff cls).2 hroom), hins]
      rfl
    · have hroom := (l.admits_iff cls).1 hadm
      omega
  · rw [Link.offer_replacing now payload tag hc ((replaceable_iff cls).2 hcls) ((l.has_iff cls).2 hhas)]
    refine ⟨fun hstill => ?_, fun hflies => if_pos ((l.inFlight_iff cls).2 hflies)⟩
    refine if_neg fun hflies => ?_
    obtain ⟨e, he, hecls, hbegun⟩ := (l.inFlight_iff cls).1 hflies
    exact Bool.false_ne_true ((hstill e he hecls).symm.trans hbegun)

end Sys2Proof.Machine
end

section
/-! PROOFS. The events of the line (O27). -/
namespace Sys2Proof.Machine
open Sys2Proof

/-! ### What a line event does to the link (R73 to R82) -/

section
variable {l : Link} {e : Entry} {es : List Entry}

theorem Link.idle_busy (h : l.queue = [] ∨ ∃ x ∈ l.queue, x.begun = true) :
    l.idle = { l with synced := true, pause := none } := by
  unfold Link.idle
  dsimp only
  split
  · rfl
  · next hnone =>
    rw [h.resolve_right fun hflies => hnone (List.any_eq_true.2 hflies)]

theorem Link.idle_head (hq : l.queue = e :: es) (hn : ∀ x ∈ e :: es, x.begun = false) :
    l.idle = if 6 ≤ l.fairness ∧ e.cls ≠ 0 then { l with synced := true, pause := some 20 }
      else { l with synced := true, pause := none, queue := { e with begun := true } :: es } := by
  have hany : ¬ (l.queue.any (·.begun)) = true := by
    rw [hq, List.any_eq_true]
    rintro ⟨x, hx, hb⟩
    exact Bool.false_ne_true ((hn x hx).symm.trans hb)
  unfold Link.idle
  dsimp only
  rw [if_neg hany]
  unfold Link.beginHead
  simp only [hq]
  rfl

theorem Link.endPause_off (h : l.pause = none) : l.endPause = l := by
  unfold Link.endPause
  rw [h]
  rfl

theorem Link.endPause_idle (hp : l.pause ≠ none) (h : l.synced = false ∨ l.queue = []) :
    l.endPause = { l with pause := none } := by
  unfold Link.endPause
  rw [if_pos (Option.isSome_iff_ne_none.2 hp)]
  dsimp only
  split
  · next hs =>
    rw [h.resolve_left fun hno => Bool.false_ne_true (hno.symm.trans hs)]
  · rfl

theorem Link.endPause_head (hp : l.pause ≠ none) (hs : l.synced = true) (hq : l.queue = e :: es) :
    l.endPause = { l with pause := none, queue := { e with begun := true } :: es
                          fairness := if e.cls = 0 then l.fairness else 0 } := by
  unfold Link.endPause Link.beginHead
  rw [if_pos (Option.isSome_iff_ne_none.2 hp)]
  dsimp only
  rw [if_pos hs]
  simp only [hq]
  split <;> rfl

theorem Link.attemptEnds_eq (l : Link) : l.attemptEnds = { l with
    repl := none
    queue := l.queue.map fun x =>
      if x.begun then { x with begun := false, payload := (l.repl.map (·.payload)).getD x.payload } else x } := by
  unfold Link.attemptEnds
  cases l.repl <;> rfl

end

/-- A line event is the change it makes to the link and the sign's recompute (R94). -/
theorem event_onLink {s : State} {f : Link → Link} {l : Link} (hr : s.supply.running = true) (hq : s.Quiet)
    (hf : f s.link = l) : event (fun u => u.onLink f) s = .next (State.signUpdate { s with link := l }) :=
  event_quiet hr (by rw [← hf]; rfl) hq

/-- A frame that no block takes cuts a fairness pause, and nothing else (R77, R80). -/
theorem event_cutPause {s : State} (hr : s.supply.running = true) (hq : s.Quiet) :
    event State.cutPause s = .next (State.signUpdate { s with link := { s.link with pause := none } }) :=
  event_onLink hr hq rfl

section
variable (s : State)

theorem exec_lineIdle : exec .lineIdle s = event (fun u => u.onLink Link.idle) s := rfl

theorem exec_fairnessPauseEnd : exec .fairnessPauseEnd s = event (fun u => u.onLink Link.endPause) s := rfl

theorem exec_arbitrationLost : exec .arbitrationLost s = event (fun u => u.onLink Link.attemptEnds) s := rfl

theorem exec_transmitAbort : exec .transmitAbort s = event (fun u => u.onLink Link.attemptEnds) s := rfl

theorem exec_truncatedFrame (cause : Truncation) : exec (.truncatedFrame cause) s
    = event (fun u => u.onLink fun l => { l with synced := l.synced && cause == .recessive, pause := none }) s := rfl

end

/-- Settles O27. -/
theorem lineEventsMoveTheHeadOfTheQueue : Obligations.LineEventsMoveTheHeadOfTheQueue := by
  intro s hr hq
  have hline {f : Link → Link} {l : Link} (hf : f s.link = l) := event_onLink hr hq hf
  simp only [exec_lineIdle, exec_fairnessPauseEnd, exec_truncatedFrame]
  refine ⟨fun e es hqueue hstill => ⟨fun hgo => hline ?_, fun hfair hcls => hline ?_⟩,
    fun h => hline (Link.idle_busy h), fun hp h => hline (Link.endPause_idle hp h),
    fun e es hqueue hp hs => hline (Link.endPause_head hp hs hqueue), fun hp => hline (Link.endPause_off hp), ?_, ?_, ?_⟩
  · rw [Link.idle_head hqueue hstill, if_neg fun ⟨hfair, hcls⟩ => hgo.elim (Nat.not_lt.2 hfair) hcls]
  · rw [Link.idle_head hqueue hstill, if_pos ⟨hfair, hcls⟩]
  · rintro c (rfl | rfl)
    · exact (exec_arbitrationLost s).trans (hline s.link.attemptEnds_eq)
    · exact (exec_transmitAbort s).trans (hline s.link.attemptEnds_eq)
  · refine hline ?_
    rw [show (Truncation.recessive == Truncation.recessive) = true from rfl, Bool.and_true]
  · rintro cause (rfl | rfl)
    · refine hline ?_
      rw [show (Truncation.stopBit == Truncation.recessive) = false from rfl, Bool.and_false]
    · refine hline ?_
      rw [show (Truncation.badLength == Truncation.recessive) = false from rfl, Bool.and_false]

end Sys2Proof.Machine
end

section
/-! PROOFS. The beacon: when it is offered, and what it carries (O33). -/
namespace Sys2Proof.Machine
open Sys2Proof

/-! ### The beacon period (R84, R91) -/

/-- What the end of the beacon period does: a beacon is composed and offered, but by a LINK_SILENT station (R84, R91). -/
def State.beaconDue (s : State) : State :=
  if s.peer.period.isSome then
    if s.silent then s.onPeer fun p => { p with period := some 2500 }
    else (s.onPeer fun p => { p with period := some 2500, own := some s.composeBeacon }).offer .beacon
  else s

theorem exec_beaconPeriod (s : State) : exec .beaconPeriod s = event State.beaconDue s := rfl

/-- A beacon offered is queued, or takes the place of the one that waits, or is refused; nothing else comes of it (R82, R84). -/
theorem State.tryOffer_beacon {s : State} {b : Beacon} (h : s.peer.own = some b) :
    s.tryOffer .beacon = { s with link := (s.link.offer s.now 6 (encBeacon b) .beacon).getD s.link } := by
  have hoff : s.offered .beacon = some (encBeacon b, .beacon) := by
    unfold State.offered
    rw [h]
    rfl
  unfold State.tryOffer
  rw [hoff]
  dsimp only [Offer.cls]
  cases s.link.offer s.now 6 (encBeacon b) .beacon <;> rfl

section
variable {s : State} (hr : s.supply.running = true) (hq : s.Quiet)
include hr hq

theorem beaconPeriod_offers (hp : s.peer.period ≠ none) (hs : s.silent = false) :
    exec .beaconPeriod s = .next (State.signUpdate { s with
      peer := { s.peer with period := some 2500, own := some s.composeBeacon }
      link := (s.link.offer s.now 6 (encBeacon s.composeBeacon) .beacon).getD s.link }) := by
  have hdue : s.beaconDue =
      (s.onPeer fun p => { p with period := some 2500, own := some s.composeBeacon }).offer .beacon := by
    rw [State.beaconDue, if_pos (Option.isSome_iff_ne_none.2 hp), hs]
    rfl
  rw [exec_beaconPeriod, event_one hr hdue hq, State.tryOffer_beacon rfl]
  rfl

theorem beaconPeriod_silent (hp : s.peer.period ≠ none) (hs : s.silent = true) :
    exec .beaconPeriod s = .next (State.signUpdate { s with peer := { s.peer with period := some 2500 } }) := by
  rw [exec_beaconPeriod]
  refine event_quiet hr ?_ hq
  rw [State.beaconDue, if_pos (Option.isSome_iff_ne_none.2 hp), hs]
  rfl

theorem beaconPeriod_off (hp : s.peer.period = none) : exec .beaconPeriod s = .next s.signUpdate := by
  rw [exec_beaconPeriod]
  refine event_quiet hr ?_ hq
  rw [State.beaconDue, hp]
  rfl

end

/-! ### The role word of a seat (R33, R38, Table 12-1) -/

theorem chargingOf_chargingCode (c : Option Charging) : chargingOf (chargingCode c) = c := by
  obtain _ | _ | _ := c <;> rfl

theorem chargingCode_le (c : Option Charging) : chargingCode c ≤ 2 := by
  obtain _ | _ | _ := c <;> decide

/-- A seat's role word is read back field by field. -/
theorem seatRole_read {due level : Nat} (c : Option Charging) (hdue : due ≤ 999999) (hlevel : level ≤ 4) :
    roleDue (seatRole due level c) = due ∧ roleLevel (seatRole due level c) = level
      ∧ roleCharging (seatRole due level c) = c := by
  have hc := chargingCode_le c
  have hword : (seatRole due level c).toNat = 256 * due + 16 * chargingCode c + level := by
    unfold seatRole
    rw [BitVec.toNat_ofNat]
    exact Nat.mod_eq_of_lt (by omega)
  unfold roleDue roleLevel roleCharging
  rw [hword]
  refine ⟨by omega, by omega, ?_⟩
  rw [show (256 * due + 16 * chargingCode c + level) / 16 % 4 = chargingCode c by omega]
  exact chargingOf_chargingCode c

section
variable {s : State}

theorem State.composeBeacon_role_console (h0 : s.addr = 0) : s.composeBeacon.role = BitVec.ofNat 32 s.clock.seconds :=
  if_pos (s.isConsole_iff.2 h0)

theorem State.composeBeacon_role_seat (h0 : s.addr ≠ 0) : s.composeBeacon.role =
    seatRole s.hire.slot.runningAmount s.hire.slot.level s.hire.slot.charging :=
  if_neg fun h => h0 (s.isConsole_iff.1 h)

/-- Of a hire, the amount that runs while HIRED, and the due afterwards (R38). -/
theorem Slot.engaged_shown {sl : Slot} {h : Hire} (hs : sl = .hired h ∨ sl = .stopped h ∨ sl = .paying h) :
    sl.level = h.rc.level ∧ sl.charging = h.rc.charging ∧ sl.kind = h.rc.kind ∧ sl.privacy = h.rc.privacy := by
  obtain rfl | rfl | rfl := hs <;> exact ⟨rfl, rfl, rfl, rfl⟩

theorem Slot.runningAmount_eq {sl : Slot} {h : Hire} {amount : Nat} (hs : sl = .hired h ∧ amount = h.rc.running
    ∨ (sl = .stopped h ∨ sl = .paying h) ∧ h.rc.due = some amount) : sl.runningAmount = amount := by
  obtain ⟨rfl, rfl⟩ | ⟨rfl | rfl, hdue⟩ := hs
  · rfl
  · exact congrArg (Option.getD · 0) hdue
  · exact congrArg (Option.getD · 0) hdue

end

/-- Settles O33. -/
theorem beaconIsComposedAndOffered : Obligations.BeaconIsComposedAndOffered := by
  intro s hr hq
  refine ⟨beaconPeriod_offers hr hq, beaconPeriod_silent hr hq, beaconPeriod_off hr hq, rfl, rfl, rfl, rfl, rfl,
    fun im him => ?_, fun hno => ?_, State.composeBeacon_role_console, fun h0 => ⟨fun hfree => ?_, ?_⟩, fun h hs => ?_,
    fun hfree => ?_, fun h => ?_⟩
  · show s.identity.1 = _ ∧ s.identity.2 = _
    rw [State.identity, him]
    exact ⟨rfl, rfl⟩
  · show s.identity.1 = _ ∧ s.identity.2 = _
    rw [State.identity, hno]
    exact ⟨rfl, rfl⟩
  · rw [State.composeBeacon_role_seat h0]
    obtain hslot | ⟨c, hslot⟩ := hfree <;> rw [hslot] <;> rfl
  · intro h amount hs hdue hlevel
    have hengaged : s.hire.slot = .hired h ∨ s.hire.slot = .stopped h ∨ s.hire.slot = .paying h :=
      hs.imp And.left And.left
    obtain ⟨hl, hc, -, -⟩ := Slot.engaged_shown hengaged
    rw [State.composeBeacon_role_seat h0, Slot.runningAmount_eq hs, hl, hc]
    exact seatRole_read h.rc.charging hdue hlevel
  · obtain ⟨-, -, hk, hp⟩ := Slot.engaged_shown hs
    exact ⟨hk, hp⟩
  · unfold State.composeBeacon
    obtain hslot | ⟨c, hslot⟩ := hfree <;> rw [hslot] <;> exact ⟨rfl, rfl, rfl⟩
  · unfold State.composeBeacon
    refine ⟨fun hslot => ?_, fun hslot => ?_, fun hslot => ?_⟩ <;> rw [hslot] <;> rfl

end Sys2Proof.Machine
end

section
/-! PROOFS. Every step ends its event (O25). -/
namespace Sys2Proof.Machine
open Sys2Proof

/-! ### What being quiet reads of the state -/

/-- A state that has the offers, the slot, the session and the pending late close of a quiet one is quiet. -/
theorem State.Quiet.of_same {s t : State} (h : s.Quiet) (ho : t.offers = s.offers)
    (hp : t.shift.pendingLate = s.shift.pendingLate) (hs : t.hire.slot = s.hire.slot)
    (hy : t.pay.session = s.pay.session) : t.Quiet := by
  refine ⟨ho.trans h.1, ?_⟩
  unfold State.NoLateClose
  rw [hp, hs, hy]
  exact h.2

theorem State.Quiet.onSupply {s : State} (h : s.Quiet) (f : Supply → Supply) : (s.onSupply f).Quiet :=
  h.of_same rfl rfl rfl rfl

theorem State.Quiet.onPrint {s : State} (h : s.Quiet) (f : Print → Print) : (s.onPrint f).Quiet :=
  h.of_same rfl rfl rfl rfl

theorem State.Quiet.onDistress {s : State} (h : s.Quiet) (f : Distress → Distress) : (s.onDistress f).Quiet :=
  h.of_same rfl rfl rfl rfl

/-! ### The end of an event (R81, R153) -/

/-- After the late close that may be made, none may be made any more (R153). -/
theorem State.lateCloseIfDue_noLateClose (s : State) : s.lateCloseIfDue.NoLateClose := by
  unfold State.lateCloseIfDue
  split
  · split
    · exact Or.inl rfl
    · next hwait =>
      refine Or.inr ?_
      by_cases hfree : s.hire.slot = .free
      · refine Or.inr fun hnone => hwait ?_
        rw [hfree, hnone]
        rfl
      · exact Or.inl hfree
  · next hnone => exact Or.inl hnone

/-- The end of an event offers what was offered and makes the late close that may be made (R81, R153). -/
theorem State.settleEvent_ends (s : State) : s.settleEvent.Quiet := by
  refine ⟨s.settleEvent_offers, ?_⟩
  obtain ⟨held, tx, late, hshift⟩ := s.lateCloseIfDue.flushOffers_shift
  have hsign : s.settleEvent.shift = s.lateCloseIfDue.flushOffers.shift := (State.signUpdate_blocks _).2.2.2.1
  have hkept : s.lateCloseIfDue.Kept s.settleEvent := (State.flushOffers_kept _).trans (State.signUpdate_kept _)
  unfold State.NoLateClose
  rw [hsign, hshift, hkept.slot, hkept.pay]
  exact s.lateCloseIfDue_noLateClose

/-! ### Every command -/

/-- The outcome is a next state that is quiet. -/
def EndsEvent (o : Host.Outcome State Fault Refusal) : Prop := ∃ t, o = .next t ∧ t.Quiet

theorem EndsEvent.ofNext {t : State} (h : t.Quiet) : EndsEvent (.next t) := ⟨t, rfl, h⟩

theorem event_endsEvent {s : State} (h : s.Quiet) (f : State → State) : EndsEvent (event f s) := by
  refine .ofNext ?_
  split
  · exact State.settleEvent_ends _
  · exact h

theorem TakenAsEvent.endsEvent {s : State} {o : Host.Outcome State Fault Refusal} (ht : TakenAsEvent s o) (h : s.Quiet) :
    EndsEvent o := by
  obtain rfl | ⟨f, -, rfl⟩ := ht
  · exact .ofNext h
  · exact event_endsEvent h f

/-! ### A start that is cut (R193 to R195) -/

theorem State.inDoubt_shift (s : State) (q : CardSession) : (s.inDoubt q).shift = s.shift := rfl

theorem State.restorePay_shift (s : State) : s.restorePay.shift = s.shift := by
  unfold State.restorePay
  dsimp only
  split
  · split
    · rfl
    · exact State.inDoubt_shift _ _
  all_goals rfl

theorem State.sendShift_pendingLate (s : State) (f : ShiftFrame) :
    (s.sendShift f).shift.pendingLate = s.shift.pendingLate := by
  unfold State.sendShift
  split <;> rfl

/-- A restoration gives no late close to make: the pending one does not outlive the start (R169). -/
theorem State.restoreShift_pendingLate (s : State) : s.restoreShift.shift.pendingLate = s.shift.pendingLate := by
  unfold State.restoreShift
  dsimp only
  rw [State.account_eq, Shift.added_fields]
  dsimp only
  cases s.shift.state == .closing with
  | true =>
    rw [if_pos rfl]
    split
    · exact State.sendShift_pendingLate _ _
    · rfl
  | false => rfl

theorem State.restoreCut_quiet {s : State} (h : s.offers = []) (hp : s.shift.pendingLate = none) (short : Bool) :
    (s.restoreCut short).Quiet := by
  unfold State.restoreCut
  split
  · exact ⟨h, Or.inl hp⟩
  · refine ⟨rfl, Or.inl ?_⟩
    show (State.restoreShift _).shift.pendingLate = none
    rw [State.restoreShift_pendingLate, State.restorePay_shift]
    exact hp

theorem State.startCut_quiet {s : State} (h : s.Quiet) (pins : StrapPins) (image : Option (List Byte)) (c : StopCause)
    (short : Bool) : (s.startCut pins image c short).Quiet := by
  have hcut : ((s.readStart pins image).restoreCut short).Quiet := State.restoreCut_quiet rfl rfl short
  unfold State.startCut
  split
  · exact h.onSupply _
  · exact hcut.onSupply _
  · exact hcut.onSupply _

theorem execStart_endsEvent {s : State} (h : s.Quiet) (pins : StrapPins) (image : Option (List Byte)) (reach : StartEnd) :
    EndsEvent (execStart pins image reach s) := by
  refine .ofNext ?_
  split
  · cases reach with
    | complete => exact State.settleEvent_ends _
    | cutEarly c => exact h.onSupply _
    | cutInDomain c short => exact State.startCut_quiet h pins image c short
  · exact h

/-! ### Every command and every step -/

section
variable {s : State} (h : s.Quiet)
include h

theorem execResetAsserted_endsEvent : EndsEvent (execResetAsserted s) := by
  refine .ofNext ?_
  split
  · exact (h.onSupply _).onSupply _
  · exact h.onSupply _

theorem execBackupLoss_endsEvent : EndsEvent (execBackupLoss s) := by
  refine .ofNext ?_
  split
  · exact h
  · exact h.onSupply _

theorem execSupplyFail_endsEvent (cut : Bool) : EndsEvent (execSupplyFail cut s) := by
  refine .ofNext ?_
  split
  · split
    · exact h.onSupply _
    · exact h.onSupply _
  · exact h

theorem execSupplyLevelChange_endsEvent (mv : Nat) : EndsEvent (execSupplyLevelChange mv s) := by
  unfold execSupplyLevelChange
  exact event_endsEvent (h.onSupply _) _

theorem execPaperOut_endsEvent : EndsEvent (execPaperOut s) := by
  unfold execPaperOut
  exact event_endsEvent (h.onPrint _) _

theorem execPaperReturn_endsEvent : EndsEvent (execPaperReturn s) := by
  unfold execPaperReturn
  exact event_endsEvent (h.onPrint _) _

theorem execDistressInputActive_endsEvent : EndsEvent (execDistressInputActive s) := by
  unfold execDistressInputActive inputEvent
  exact event_endsEvent (h.onDistress _) _

theorem execDistressInputInactive_endsEvent : EndsEvent (execDistressInputInactive s) := by
  unfold execDistressInputInactive inputEvent
  exact event_endsEvent (h.onDistress _) _

/-- The commands that a stopped station takes end their event as well (R189 to R193). -/
theorem exec_takenStopped_endsEvent {c : Instr} (hc : c.takenStopped = true) : EndsEvent (exec c s) := by
  unfold Instr.takenStopped at hc
  split at hc
  next pins image reach => exact execStart_endsEvent h pins image reach
  next => exact execResetAsserted_endsEvent h
  next => exact .ofNext (h.onSupply _)
  next => exact execBackupLoss_endsEvent h
  next cut => exact execSupplyFail_endsEvent h cut
  next mv => exact execSupplyLevelChange_endsEvent h mv
  next => exact .ofNext (h.of_same rfl rfl rfl rfl)
  next => exact execPaperOut_endsEvent h
  next => exact execPaperReturn_endsEvent h
  next => exact execDistressInputActive_endsEvent h
  next => exact execDistressInputInactive_endsEvent h
  next => cases hc

end

theorem exec_endsEvent (c : Instr) {s : State} (h : s.Quiet) : EndsEvent (exec c s) := by
  cases hc : c.takenStopped with
  | false => exact (exec_taken hc s).endsEvent h
  | true => exact exec_takenStopped_endsEvent h hc

/-- Time passing offers nothing and closes nothing. -/
theorem State.tick_quiet {s : State} (h : s.Quiet) : s.tick.Quiet := by
  have hslot : ∀ sl : Slot, sl.tick = .free ↔ sl = .free := by
    intro sl
    cases sl <;> simp [Slot.tick]
  unfold State.tick
  dsimp only
  split
  · obtain ⟨ho, hp⟩ := h
    refine ⟨ho, hp.imp_right fun hp => hp.imp_left fun hs => ?_⟩
    exact fun hfree => hs ((hslot _).1 hfree)
  · exact h.of_same rfl rfl rfl rfl

theorem State.idle_quiet {s : State} (h : s.Quiet) : s.idle.Quiet := by
  unfold State.idle
  split
  · exact State.tick_quiet h
  · exact h.of_same rfl rfl rfl rfl
  · exact h.of_same rfl rfl rfl rfl

/-- Settles O25. -/
theorem everyStepEndsItsEvent : Obligations.EveryStepEndsItsEvent := by
  refine ⟨⟨rfl, Or.inl rfl⟩, fun s t h hstep => ?_⟩
  unfold step at hstep
  split at hstep
  · cases hstep
    exact State.idle_quiet h
  · next c rest _ =>
    obtain ⟨t', ht', hquiet⟩ := exec_endsEvent c (s := { s with pending := rest }) (h.of_same rfl rfl rfl rfl)
    cases hstep.symm.trans ht'
    exact hquiet

end Sys2Proof.Machine
end

section
/-! PROOFS. Frames that no block takes: what the receive checks refuse (O29). -/
namespace Sys2Proof.Machine
open Sys2Proof

/-! ### A cyclic check taken in by its own register (R198) -/

/-- A register shifted out by its own bits, from its highest one on. -/
theorem crcBit_ownBit {w : Nat} (gen r : BitVec w) {k : Nat} (hk : k < w) {b : Bool} (hb : b = r.getLsbD (w - 1 - k)) :
    crcBit gen (r <<< k) b = r <<< (k + 1) := by
  have hmsb : (r <<< k).msb = b := by
    rw [hb, BitVec.msb_eq_getLsbD_last, BitVec.getLsbD_shiftLeft, decide_eq_true (by omega : w - 1 < w),
      decide_eq_false (by omega : ¬ w - 1 < k), show w - 1 - k = w - 1 - k from rfl]
    rfl
  unfold crcBit
  rw [hmsb, bne_self_eq_false, if_neg Bool.false_ne_true, BitVec.shiftLeft_add]

/-- A register shifted out by its own byte that stands `k` bits below its top. -/
theorem crcByte_ownByte {w : Nat} (gen r : BitVec w) {k : Nat} {x : Byte} (hk : k + 8 ≤ w)
    (hx : ∀ i < 8, x.getLsbD i = r.getLsbD (w - 1 - (k + (7 - i)))) : crcByte gen (r <<< k) x = r <<< (k + 8) := by
  have hbit (j : Nat) (hj : j < 8) {b : Bool} (hb : b = x.getLsbD (7 - j)) :
      crcBit gen (r <<< (k + j)) b = r <<< (k + (j + 1)) := by
    refine crcBit_ownBit gen r (by omega) ?_
    rw [hb, hx _ (by omega), show w - 1 - (k + (7 - (7 - j))) = w - 1 - (k + j) by omega]
  have h0 : crcBit gen (r <<< k) (x.getLsbD 7) = r <<< (k + 1) := hbit 0 (by decide) rfl
  unfold crcByte
  simp only [List.foldl_cons, List.foldl_nil]
  rw [h0, hbit 1 (by decide) rfl, hbit 2 (by decide) rfl, hbit 3 (by decide) rfl, hbit 4 (by decide) rfl,
    hbit 5 (by decide) rfl, hbit 6 (by decide) rfl, hbit 7 (by decide) rfl]

theorem crc16_withCrc16 (bs : List Byte) : crc16 (withCrc16 bs) = 0 := by
  have hhigh : ∀ i < 8, (u8 ((crc16 bs).toNat / 256)).getLsbD i = (crc16 bs).getLsbD (16 - 1 - (0 + (7 - i))) := by
    intro i hi
    rw [u8, BitVec.getLsbD_ofNat, decide_eq_true hi, Bool.true_and, BitVec.getLsbD, show 256 = 2 ^ 8 from rfl,
      Nat.testBit_div_two_pow, show 16 - 1 - (0 + (7 - i)) = i + 8 by omega]
  have hlow : ∀ i < 8, (u8 (crc16 bs).toNat).getLsbD i = (crc16 bs).getLsbD (16 - 1 - (8 + (7 - i))) := by
    intro i hi
    rw [u8, BitVec.getLsbD_ofNat, decide_eq_true hi, Bool.true_and, BitVec.getLsbD,
      show 16 - 1 - (8 + (7 - i)) = i by omega]
  have hown : crcByte 0x1021#16 (crcByte 0x1021#16 (crc16 bs <<< 0) (u8 ((crc16 bs).toNat / 256))) (u8 (crc16 bs).toNat)
      = crc16 bs <<< 16 := by
    rw [crcByte_ownByte _ _ (by decide) hhigh, crcByte_ownByte _ _ (by decide) hlow]
  rw [BitVec.shiftLeft_zero] at hown
  unfold withCrc16 be16
  rw [crc16, List.foldl_append]
  exact hown.trans (BitVec.shiftLeft_eq_zero (Nat.le_refl 16))

/-! ### What the receive checks ask (R74, R76) -/

theorem addrOf_eq_some {n : Nat} {a : Addr} (h : addrOf n = some a) : a.val = n := by
  unfold addrOf at h
  split at h
  · cases h
    rfl
  · cases h

/-- What the receive checks have found of a frame that passes them. -/
theorem goodFrame_checks {key len : Byte} {rest : List Byte} {i : Instr} (h : goodFrame (key :: len :: rest) = some i) :
    rest.length = len.toNat + 2 ∧ withCrc16 (key :: len :: rest.take len.toNat) = key :: len :: rest
      ∧ ∃ sender : Addr, sender.val = key.toNat % 4
        ∧ parseTargeted (key.toNat / 4) sender (rest.take len.toNat) = some i := by
  unfold goodFrame at h
  dsimp only at h
  split at h
  · next hchecks =>
    obtain ⟨-, -, hlen, hcrc⟩ := hchecks
    refine ⟨hlen, hcrc, ?_⟩
    split at h
    · next sender haddr => exact ⟨sender, addrOf_eq_some haddr, h⟩
    · cases h
  · cases h

theorem goodFrame_ne_some_of_short {cs : List Byte} (hlen : cs.length < 4) (i : Instr) : goodFrame cs ≠ some i := by
  intro h
  match cs, hlen, h with
  | [], _, h => cases h
  | [_], _, h => cases h
  | key :: len :: rest, hlen, h =>
    obtain ⟨hrest, -, -⟩ := goodFrame_checks h
    simp only [List.length_cons] at hlen
    omega

theorem goodFrame_ne_some_of_crc {cs : List Byte} (hcrc : crc16 cs ≠ 0) (i : Instr) : goodFrame cs ≠ some i := by
  intro h
  match cs, hcrc, h with
  | [], _, h => cases h
  | [_], _, h => cases h
  | key :: len :: rest, hcrc, h =>
    obtain ⟨-, hown, -⟩ := goodFrame_checks h
    exact hcrc (hown ▸ crc16_withCrc16 _)

/-- A DISTRESS frame is good only from address 0 (R105). -/
theorem parseTargeted_distress {sender : Addr} (h : sender ≠ 0) (p : List Byte) : parseTargeted 0 sender p = none := by
  show (if sender = 0 ∧ p.length = 6 then _ else none) = none
  rw [if_neg fun hboth => h hboth.1]

theorem goodFrame_ne_some_of_distress {key : Byte} {rest : List Byte} (hcls : key.toNat / 4 = 0) (hsender : key.toNat % 4 ≠ 0)
    (i : Instr) : goodFrame (key :: rest) ≠ some i := by
  intro h
  match rest, h with
  | [], h => cases h
  | len :: rest, h =>
    obtain ⟨-, -, sender, hval, hparse⟩ := goodFrame_checks h
    have hne : sender ≠ 0 := by
      rintro rfl
      exact hsender hval.symm
    rw [hcls, parseTargeted_distress hne] at hparse
    cases hparse

/-! ### The rows of a dropped frame and of a DISTRESS frame (R76, R80, R105) -/

theorem execFrameDropped_bad {chars : List Byte} (h : goodFrame chars = none) (s : State) :
    execFrameDropped chars s = event State.cutPause s := by
  unfold execFrameDropped
  rw [h]

theorem execDistressFrame_console (time no : Nat) (s : State) :
    execDistressFrame 0 time no s = frameEvent 0 (fun u => u) s := rfl

theorem execDistressFrame_other {sender : Addr} (h : sender ≠ 0) (time no : Nat) (s : State) :
    execDistressFrame sender time no s = event State.cutPause s := by
  unfold execDistressFrame
  simp only [if_neg h]

/-- Settles O29. -/
theorem framesThatNoBlockTakesChangeNothing : Obligations.FramesThatNoBlockTakesChangeNothing := by
  refine ⟨fun chars s hbad => ?_, ⟨?_, ?_, ?_, ?_⟩, fun sender time no s hr hq => ⟨?_, fun hother => ?_⟩⟩
  · have hrow : exec (.frameDropped chars) s = event State.cutPause s := execFrameDropped_bad hbad s
    rw [hrow]
    exact ⟨event_stopped, event_cutPause⟩
  · exact fun cs hlen => Option.eq_none_iff_forall_ne_some.2 (goodFrame_ne_some_of_short hlen)
  · exact fun cs hcrc => Option.eq_none_iff_forall_ne_some.2 (goodFrame_ne_some_of_crc hcrc)
  · exact fun key len rest hlen => Option.eq_none_iff_forall_ne_some.2 fun i h => hlen (goodFrame_checks h).1
  · exact fun key rest hcls hsender => Option.eq_none_iff_forall_ne_some.2 (goodFrame_ne_some_of_distress hcls hsender)
  · rintro rfl hs
    exact (execDistressFrame_console time no s).trans ((frameEvent_ignored hr hs rfl).2 hq)
  · exact (execDistressFrame_other hother time no s).trans (event_cutPause hr hq)

end Sys2Proof.Machine
end

section
/-! PROOFS. The peer table: hire events and ageing rows (O32). -/
namespace Sys2Proof.Machine
open Sys2Proof

/-! ### The conflict test (R14) -/

/-- The slot after the conflict test: an EXCLUSIVE HIRED hire that sees another HIRED hire becomes SHARED with its flag (R14). -/
def State.testedSlot (s : State) : Slot :=
  match s.hire.slot with
  | .hired h =>
    if h.rc.kind = .exclusive ∧ s.peers.any PeerRow.isHired = true then
      .hired { h with rc := { h.rc with conflict := true, kind := .shared } }
    else .hired h
  | sl => sl

theorem State.conflictTest_eq (s : State) : s.conflictTest = s.onHire fun c => { c with slot := s.testedSlot } := by
  have hsame : ∀ sl, s.hire.slot = sl → s = s.onHire fun c => { c with slot := sl } := by
    rintro sl rfl
    rfl
  unfold State.conflictTest State.testedSlot
  cases hslot : s.hire.slot with
  | hired h =>
    dsimp only
    split
    · rfl
    · exact hsame _ hslot
  | free => exact hsame _ hslot
  | claiming c => exact hsame _ hslot
  | stopped h => exact hsame _ hslot
  | paying h => exact hsame _ hslot

/-! ### What `State.Kept` leaves of the peer table and the test -/

section
variable {s t : State} (h : s.Kept t)
include h

theorem State.Kept.peers : t.peers = s.peers := by
  have haddr : t.addr = s.addr := congrArg Straps.addr h.straps
  unfold State.peers
  rw [h.rows, haddr]

theorem State.Kept.testedSlot : t.testedSlot = s.testedSlot := by
  unfold State.testedSlot
  rw [h.slot, h.peers]

theorem State.Kept.conflictTest : s.conflictTest.Kept t.conflictTest := by
  rw [State.conflictTest_eq, State.conflictTest_eq]
  exact { h with slot := h.testedSlot }

theorem State.Kept.onRows (f : Quad PeerRow → Quad PeerRow) :
    (s.onPeer fun p => { p with rows := f p.rows }).Kept (t.onPeer fun p => { p with rows := f p.rows }) :=
  { h with rows := congrArg f h.rows }

end

/-! ### Hire events (R88) -/

section
variable (s : State) (a : Addr) (no due : Nat) (kind : Kind) (o : HireOutcome)

theorem exec_hireStartReceived : exec (.hireStartReceived a no kind) s
    = frameEvent a (fun u => u.override a fun _ => { state := .hired, kind := some kind, due := none }) s := rfl

theorem exec_hireStopReceived : exec (.hireStopReceived a no due) s
    = frameEvent a (fun u => u.override a fun x => { state := .stopped, kind := x.bind (·.kind), due := some due }) s := rfl

theorem exec_hireClosedReceived : exec (.hireClosedReceived a no o) s
    = frameEvent a (fun u => u.override a fun _ => { state := .free, kind := none, due := some 0 }) s := rfl

end

section
variable {s : State} {a : Addr} {f : Option Override → Override} (hr : s.supply.running = true) (hs : s.HearsFrom a)
include hr hs

/-- A hire event from a present address overrides its row, with the conflict test. -/
theorem override_present (hp : (s.peer.rows.get a).present = true) {ov : Override} (hov : f (s.peer.rows.get a).ovr = ov) :
    ∃ t, frameEvent a (fun u => u.override a f) s = .next t
      ∧ (State.conflictTest { s with peer := { s.peer with rows :=
          (s.peer.rows.set a { s.peer.rows.get a with ovr := some ov }) } }).Kept t := by
  refine frameEvent_kept hr hs ?_
  have hrow : s.heardFrame.override a f = State.conflictTest (s.heardFrame.onPeer fun p => { p with rows :=
      (p.rows.set a { s.peer.rows.get a with ovr := some ov }) }) := by
    rw [← hov]
    exact if_pos hp
  rw [hrow]
  exact (s.heardFrame_kept.onRows fun q => q.set a { s.peer.rows.get a with ovr := some ov }).conflictTest

theorem override_absent (hp : (s.peer.rows.get a).present = false) :
    ∃ t, frameEvent a (fun u => u.override a f) s = .next t ∧ s.Kept t := by
  refine frameEvent_kept hr hs ?_
  have hrow : s.heardFrame.override a f = s.heardFrame := if_neg fun h => Bool.false_ne_true (hp.symm.trans h)
  rw [hrow]
  exact s.heardFrame_kept

end

/-! ### A command that falls due for a seat (R173, R176) -/

/-- The console with a command formed for a target at this moment (R173). -/
def Console.forming (c : Console) (now : Nat) (a : Addr) (cmd : Cmd) : Console :=
  { c with
    cmds := c.cmds.set a (some { cmd := cmd, seq := c.nextSeq, formed := now, claiming := false, handed := false
                                 limit := none })
    nextSeq := (c.nextSeq + 1) % 16 }

/-- The console with a command deferred for a target, or discarded as a third (R176). -/
def Console.deferring (c : Console) (a : Addr) (cmd : Cmd) : Console :=
  { c with deferred := if (c.deferred.get a).length < 2 then c.deferred.set a (c.deferred.get a ++ [cmd]) else c.deferred }

section
variable {s : State} {a : Addr} (cmd : Cmd)

theorem State.giveCommand_seat (ha : a ≠ 0) :
    s.giveCommand a cmd = (s.onConsole fun c => c.forming s.now a cmd).offer (.command a) := by
  unfold State.giveCommand State.formCommand
  simp only [if_neg ha]
  rfl

theorem State.dueCommand_ready (ha : a ≠ 0) (h : s.console.ready a = true) :
    s.dueCommand a cmd = (s.onConsole fun c => c.forming s.now a cmd).offer (.command a) := by
  unfold State.dueCommand
  rw [if_pos h, State.giveCommand_seat cmd ha]

theorem State.dueCommand_busy (h : s.console.ready a = false) :
    s.dueCommand a cmd = s.onConsole fun c => c.deferring a cmd := by
  unfold State.dueCommand State.onConsole Console.deferring
  rw [h, if_neg Bool.false_ne_true]
  by_cases hroom : (s.console.deferred.get a).length < 2
  · simp only [if_pos hroom]
  · simp only [if_neg hroom]

/-- A command that falls due for a seat touches the console, and may offer its COMMAND. -/
theorem State.dueCommand_form (ha : a ≠ 0) :
    ∃ c os, s.dueCommand a cmd = { s with console := c, offers := os } := by
  cases h : s.console.ready a with
  | true => exact ⟨_, _, State.dueCommand_ready cmd ha h⟩
  | false => exact ⟨_, s.offers, State.dueCommand_busy cmd h⟩

end

/-! ### A row that becomes absent (R87) -/

/-- What the age expiry of a row does (R87, R111, R115, R116). -/
def State.ageExpiry (s : State) (a : Addr) : State :=
  if a ≠ s.addr ∧ (s.peer.rows.get a).present then (s.loseRow a).afterLoss a else s

theorem exec_peerAgeExpiry (a : Addr) (s : State) : exec (.peerAgeExpiry a) s = event (fun u => u.ageExpiry a) s := rfl

/-- An event ends a talk where the COMMAND of its CONNECT is refused (R113), and changes no talk otherwise. -/
theorem State.settleEvent_talk (s : State) :
    s.settleEvent.intercom.talk = s.intercom.talk ∨ s.settleEvent.intercom.talk = .none := by
  unfold State.settleEvent
  rw [(State.signUpdate_blocks _).2.2.1]
  refine flush_keeps (P := fun u => u.intercom.talk = s.intercom.talk ∨ u.intercom.talk = .none) (fun u o h => ?_)
    (fun _ _ _ h => h) (Or.inl ?_)
  · unfold State.tryOffer
    split
    · exact h
    · split
      · cases o with
        | hireEvent =>
          obtain ⟨p, l, ht⟩ := (u.onLink _).offerTaken_hireEvent
          rw [ht]
          exact h
        | _ => exact h
      · cases o with
        | command t =>
          unfold State.offerRefused
          dsimp only
          split
          · exact Or.inr rfl
          · exact h
        | _ => exact h
  · obtain ⟨sh, os, n, hform⟩ := s.lateCloseIfDue_form'
    rw [hform]

section
variable {s : State} {a : Addr}

theorem State.ageExpiry_other (h : a = s.addr ∨ (s.peer.rows.get a).present = false) : s.ageExpiry a = s := by
  refine if_neg fun ⟨hother, hp⟩ => ?_
  exact h.elim hother fun hno => Bool.false_ne_true (hno.symm.trans hp)

section
variable (hother : a ≠ s.addr) (hp : (s.peer.rows.get a).present = true)
include hother hp

theorem State.ageExpiry_lost : s.ageExpiry a = (s.loseRow a).afterLoss a := if_pos ⟨hother, hp⟩

theorem State.ageExpiry_seat (h0 : s.addr ≠ 0) : s.ageExpiry a = if a = 0 then (s.loseRow a).disconnectEnd else s.loseRow a := by
  rw [State.ageExpiry_lost hother hp]
  exact if_neg fun hcon => h0 ((s.loseRow a).isConsole_iff.1 hcon)

theorem State.ageExpiry_console (h0 : s.addr = 0) : s.ageExpiry a = ((s.loseRow a).dropCaller a).endTalkWith a true := by
  rw [State.ageExpiry_lost hother hp]
  exact if_pos ((s.loseRow a).isConsole_iff.2 h0)

end

/-- The talk with a seat ends at station 0, whether its DISCONNECT is formed, deferred or discarded (R115, R176). -/
theorem State.endTalkWith_form (s : State) (ha : a ≠ 0) (tell : Bool) : ∃ talk timer c os,
    s.endTalkWith a tell = { s with intercom := { s.intercom with talk := talk, talkTimer := timer }, console := c, offers := os }
      ∧ talk.partner ≠ some a := by
  by_cases hpartner : s.intercom.talk.partner = some a
  · unfold State.endTalkWith State.endTalk
    rw [if_pos hpartner, hpartner]
    dsimp only
    cases tell with
    | true =>
      obtain ⟨c, os, hform⟩ := State.dueCommand_form (s := s.detachTalk) .disconnect ha
      rw [if_pos rfl, hform]
      exact ⟨.none, none, c, os, rfl, Option.some_ne_none a ∘ Eq.symm⟩
    | false => exact ⟨.none, none, _, _, rfl, Option.some_ne_none a ∘ Eq.symm⟩
  · exact ⟨_, _, _, _, if_neg hpartner, hpartner⟩

theorem peerAgeExpiry_console (hr : s.supply.running = true) (hother : a ≠ s.addr)
    (hp : (s.peer.rows.get a).present = true) (h0 : s.addr = 0) :
    ∃ t, exec (.peerAgeExpiry a) s = .next t ∧ t.peer.rows = (s.loseRow a).peer.rows ∧ t.hire.slot = s.hire.slot
      ∧ t.intercom.queue = s.intercom.queue.filter (fun e => e.addr != a) ∧ t.intercom.talk.partner ≠ some a := by
  obtain ⟨talk, timer, c, os, hform, hpartner⟩ :=
    ((s.loseRow a).dropCaller a).endTalkWith_form (fun ha => hother (ha.trans h0.symm)) true
  have hdone : (s.ageExpiry a) = _ := (State.ageExpiry_console hother hp h0).trans hform
  have hkept := (s.ageExpiry a).settleEvent_kept
  have htalk := (s.ageExpiry a).settleEvent_talk
  refine ⟨_, (exec_peerAgeExpiry a s).trans (event_next hr), ?_⟩
  rw [hkept.rows, hkept.slot, hkept.callers]
  rw [hdone] at htalk ⊢
  refine ⟨rfl, rfl, rfl, ?_⟩
  obtain htalk | htalk := htalk <;> rw [htalk]
  · exact hpartner
  · exact Option.some_ne_none a ∘ Eq.symm

end

/-- Settles O32. -/
theorem hireEventsAndAgeSetThePeerRow : Obligations.HireEventsAndAgeSetThePeerRow := by
  refine ⟨fun a no due kind o s hr hs => ⟨fun hp c ov hc => ?_, fun hp c hc => ?_⟩, fun a s hr rows hrows => ?_⟩
  · obtain ⟨rfl, rfl⟩ | ⟨rfl, rfl⟩ | ⟨rfl, rfl⟩ := hc
    · rw [exec_hireStartReceived]
      exact override_present hr hs hp rfl
    · rw [exec_hireStopReceived]
      exact override_present hr hs hp rfl
    · rw [exec_hireClosedReceived]
      exact override_present hr hs hp rfl
  · obtain rfl | rfl | rfl := hc
    · rw [exec_hireStartReceived]
      exact override_absent hr hs hp
    · rw [exec_hireStopReceived]
      exact override_absent hr hs hp
    · rw [exec_hireClosedReceived]
      exact override_absent hr hs hp
  · subst hrows
    have hkept {e : State} (he : s.ageExpiry a = e) : ∃ t, exec (.peerAgeExpiry a) s = .next t ∧ e.Kept t := by
      rw [exec_peerAgeExpiry]
      exact event_kept hr (he ▸ .refl _)
    refine ⟨fun hother hp => ⟨fun h0 ha => hkept ?_, fun ha hend => hkept ?_, fun ha hend => hkept ?_,
      peerAgeExpiry_console hr hother hp⟩, fun h => hkept (State.ageExpiry_other h)⟩
    · rw [State.ageExpiry_seat hother hp h0, if_neg ha]
      rfl
    · subst ha
      rw [State.ageExpiry_seat hother hp hother.symm, if_pos rfl]
      unfold State.disconnectEnd
      rw [show (s.loseRow 0).intercom.endState = s.intercom.endState from rfl]
      obtain hend | hend | ⟨w, hend⟩ := hend <;> rw [hend] <;> rfl
    · subst ha
      rw [State.ageExpiry_seat hother hp hother.symm, if_pos rfl]
      unfold State.disconnectEnd
      rw [show (s.loseRow 0).intercom.endState = s.intercom.endState from rfl]
      obtain hend | hend := hend <;> rw [hend] <;> rfl

end Sys2Proof.Machine
end

section
/-! PROOFS. What an event's offers leave of the line, the shift and a command just formed. -/
namespace Sys2Proof.Machine
open Sys2Proof

/-! ### The line (R80, R91) -/

theorem State.offerTaken_line (s : State) (o : Offer) :
    (s.offerTaken o).link.fairness = s.link.fairness ∧ (s.offerTaken o).link.pause = s.link.pause := by
  cases o with
  | hireEvent =>
    unfold State.offerTaken
    dsimp only
    split
    · exact (Link.refresh_flags s.link _).2.2
    · exact ⟨rfl, rfl⟩
  | _ => exact ⟨rfl, rfl⟩

/-- A refused COMMAND is gone with LINK BUSY shown, and with it the talk that its CONNECT would have opened (R113, R173). -/
theorem State.offerRefused_command (s : State) (a : Addr) : ∃ i,
    s.offerRefused (.command a) = { s with
      console := { s.console with cmds := s.console.cmds.set a none, message := some (.linkBusy a) }, intercom := i } := by
  unfold State.offerRefused
  dsimp only
  split
  · exact ⟨_, rfl⟩
  · exact ⟨s.intercom, rfl⟩

theorem State.offerRefused_link (s : State) (o : Offer) : (s.offerRefused o).link = s.link := by
  cases o with
  | command a =>
    obtain ⟨i, h⟩ := s.offerRefused_command a
    rw [h]
  | _ => rfl

/-- What one offer can do, said once: nothing is held for it, or it is taken, or it is refused (R81). -/
theorem State.tryOffer_cases (s : State) (o : Offer) :
    (s.offered o = none ∧ s.tryOffer o = s)
      ∨ ∃ payload tag, s.offered o = some (payload, tag)
        ∧ ((∃ l, s.link.offer s.now o.cls payload tag = some l ∧ s.tryOffer o = (s.onLink fun _ => l).offerTaken o)
          ∨ s.link.offer s.now o.cls payload tag = none ∧ s.tryOffer o = s.offerRefused o) := by
  unfold State.tryOffer
  cases hoff : s.offered o with
  | none => exact Or.inl ⟨rfl, rfl⟩
  | some f =>
    obtain ⟨payload, tag⟩ := f
    refine Or.inr ⟨payload, tag, rfl, ?_⟩
    dsimp only
    cases hl : s.link.offer s.now o.cls payload tag with
    | none => exact Or.inr ⟨rfl, rfl⟩
    | some l => exact Or.inl ⟨l, rfl, rfl⟩

theorem State.tryOffer_line (s : State) (o : Offer) :
    (s.tryOffer o).link.fairness = s.link.fairness ∧ (s.tryOffer o).link.pause = s.link.pause := by
  obtain ⟨-, h⟩ | ⟨payload, tag, -, ⟨l, hl, h⟩ | ⟨-, h⟩⟩ := s.tryOffer_cases o
  · rw [h]
    exact ⟨rfl, rfl⟩
  · obtain ⟨-, -, hf, hp⟩ := Link.offer_flags hl
    obtain ⟨gf, gp⟩ := (s.onLink fun _ => l).offerTaken_line o
    rw [h]
    exact ⟨gf.trans hf, gp.trans hp⟩
  · rw [h, State.offerRefused_link]
    exact ⟨rfl, rfl⟩

/-- The end of an event changes neither the fairness count nor its pause (R80). -/
theorem State.settleEvent_line (s : State) :
    s.settleEvent.link.fairness = s.link.fairness ∧ s.settleEvent.link.pause = s.link.pause := by
  unfold State.settleEvent
  rw [(State.signUpdate_blocks _).2.1]
  refine flush_keeps (P := fun u => u.link.fairness = s.link.fairness ∧ u.link.pause = s.link.pause) (fun u o h => ?_)
    (fun _ _ _ h => h) ?_
  · obtain ⟨hf, hp⟩ := u.tryOffer_line o
    exact ⟨hf.trans h.1, hp.trans h.2⟩
  · rw [(State.lateCloseIfDue_held s).2.2]
    exact ⟨rfl, rfl⟩

/-! ### The shift -/

/-- With no late close to make, an event's end leaves the guard of the repeats (R151). -/
theorem State.settleEvent_repeatGuard {s : State} (h : s.NoLateClose) :
    s.settleEvent.shift.repeatGuard = s.shift.repeatGuard := by
  obtain ⟨held, tx, late, hshift⟩ := s.flushOffers_shift
  rw [State.settleEvent_rested h, (State.signUpdate_blocks _).2.2.2.1, hshift]

theorem State.tryOffer_shiftHeld {s : State} {o : Offer} (ho : ∀ f, o ≠ .shiftFrame f) :
    (s.tryOffer o).shift.held = s.shift.held := by
  obtain ⟨-, h⟩ | ⟨payload, tag, -, ⟨l, -, h⟩ | ⟨-, h⟩⟩ := s.tryOffer_cases o <;> rw [h]
  · cases o with
    | hireEvent =>
      obtain ⟨p, l', ht⟩ := (s.onLink fun _ => l).offerTaken_hireEvent
      rw [ht]
      rfl
    | shiftFrame f => exact absurd rfl (ho f)
    | _ => rfl
  · cases o with
    | command a =>
      obtain ⟨i, hc⟩ := s.offerRefused_command a
      rw [hc]
    | _ => rfl

/-- An event that offers no held SHIFT frame holds those it held (Table 5-4). -/
theorem State.settleEvent_shiftHeld {s : State} (hp : s.NoLateClose) (ho : ∀ f, .shiftFrame f ∉ s.offers) :
    s.settleEvent.shift.held = s.shift.held := by
  rw [State.settleEvent_rested hp, (State.signUpdate_blocks _).2.2.2.1]
  refine (flush_tracks
    (P := fun (os : List Offer) (u : State) => (∀ f, Offer.shiftFrame f ∉ os) ∧ u.shift.held = s.shift.held) ?_
    (fun _ _ _ _ h => h) ⟨ho, rfl⟩).2
  rintro os o os' u ⟨hos, hu⟩
  refine ⟨fun f hf => hos f (mem_of_mem_without hf), (State.tryOffer_shiftHeld fun f hf => hos f ?_).trans hu⟩
  rw [hf]
  exact List.mem_append_right _ List.mem_cons_self

/-! ### A command just formed (R173) -/

theorem Link.offer_length {l l' : Link} {now cls : Nat} {payload : List Byte} {tag : Tag}
    (h : l.offer now cls payload tag = some l') :
    l.queue.length ≤ l'.queue.length ∧ l'.queue.length ≤ l.queue.length + 1 := by
  unfold Link.offer at h
  repeat' split at h
  all_goals cases h
  · exact ⟨Nat.le_refl _, Nat.le_succ _⟩
  · rw [show (l.replace cls payload).queue.length = l.queue.length from List.length_map _]
    exact ⟨Nat.le_refl _, Nat.le_succ _⟩
  · dsimp only
    rw [insertEntry_length]
    exact ⟨Nat.le_succ _, Nat.le_refl _⟩

/-- One offer adds at most one entry to the queue, and takes none away. -/
theorem State.tryOffer_length (s : State) (o : Offer) :
    s.link.queue.length ≤ (s.tryOffer o).link.queue.length
      ∧ (s.tryOffer o).link.queue.length ≤ s.link.queue.length + 1 := by
  obtain ⟨-, h⟩ | ⟨payload, tag, -, ⟨l, hl, h⟩ | ⟨-, h⟩⟩ := s.tryOffer_cases o
  · rw [h]
    exact ⟨Nat.le_refl _, Nat.le_succ _⟩
  · rw [h, State.offerTaken_length]
    exact Link.offer_length hl
  · rw [h, State.offerRefused_link]
    exact ⟨Nat.le_refl _, Nat.le_succ _⟩

/-- A COMMAND is taken with an entry free, and refused by a full queue or after a clash (Table 5-3, R91). -/
theorem Link.offer_command_isSome (l : Link) (now : Nat) (payload : List Byte) (tag : Tag) :
    (l.offer now 2 payload tag).isSome = true ↔ l.clash = false ∧ l.queue.length ≤ 15 := by
  have hadmits : l.admits 2 = true ↔ l.queue.length ≤ 15 := by
    rw [Link.admits_iff]
    omega
  cases hc : l.clash with
  | true => simp [Link.offer_clashed now payload tag hc]
  | false =>
    rw [Link.offer_fresh now payload tag hc (by simp [replaceable]), ← hadmits]
    cases l.admits 2 <;> simp

/-- The command for `a` stands as `p` in its entry and as a COMMAND in the queue. -/
def State.CmdQueued (s : State) (a : Addr) (p : PendCmd) : Prop :=
  s.console.cmds.get a = some p ∧ s.link.Carries 2 (encCommand a p.seq p.cmd)

/-- The command for `a` is gone, and LINK BUSY is shown. -/
def State.CmdRefused (s : State) (a : Addr) : Prop :=
  s.console.cmds.get a = none ∧ ∃ b, s.console.message = some (.linkBusy b)

section
variable {s : State} {a : Addr} {p : PendCmd}

/-- The offer of a COMMAND queues it or refuses it, by the entries free. -/
theorem State.tryOffer_command (h : s.console.cmds.get a = some p) :
    (s.silent = false ∧ s.link.queue.length ≤ 15 → (s.tryOffer (.command a)).CmdQueued a p)
      ∧ (¬ (s.silent = false ∧ s.link.queue.length ≤ 15) → (s.tryOffer (.command a)).CmdRefused a) := by
  have hoff : s.offered (.command a) = some (encCommand a p.seq p.cmd, .command a p.seq) := by
    show (s.console.cmds.get a).map _ = _
    rw [h]
    rfl
  have hsome := Link.offer_command_isSome s.link s.now (encCommand a p.seq p.cmd) (.command a p.seq)
  obtain ⟨hnone, -⟩ | ⟨payload, tag, hoff', htake⟩ := s.tryOffer_cases (.command a)
  · cases hoff.symm.trans hnone
  · cases hoff.symm.trans hoff'
    obtain ⟨l, hl, ht⟩ | ⟨hno, ht⟩ := htake
    · rw [show Offer.cls (.command a) = 2 from rfl] at hl
      refine ⟨fun _ => ?_, fun hfull => absurd (hsome.1 (hl ▸ rfl)) hfull⟩
      rw [ht]
      exact ⟨h, Link.offer_new hl rfl⟩
    · rw [show Offer.cls (.command a) = 2 from rfl] at hno
      refine ⟨fun hroom => ?_, fun _ => ?_⟩
      · have hcontra := hsome.2 hroom
        rw [hno] at hcontra
        cases hcontra
      · obtain ⟨i, hc⟩ := s.offerRefused_command a
        rw [ht, hc]
        exact ⟨Quad.get_set_same _ _ _, a, rfl⟩

/-- Any other offer leaves the pending command of `a` as it stands, and LINK BUSY shown. -/
theorem State.tryOffer_other {o : Offer} (ho : o ≠ .command a) :
    (s.tryOffer o).console.cmds.get a = s.console.cmds.get a
      ∧ ((∃ b, s.console.message = some (.linkBusy b)) → ∃ b, (s.tryOffer o).console.message = some (.linkBusy b)) := by
  by_cases hcmd : ∃ b, o = .command b
  · obtain ⟨b, rfl⟩ := hcmd
    obtain ⟨-, h⟩ | ⟨payload, tag, -, ⟨l, -, h⟩ | ⟨-, h⟩⟩ := s.tryOffer_cases (.command b)
    · rw [h]
      exact ⟨rfl, id⟩
    · rw [h]
      exact ⟨rfl, id⟩
    · obtain ⟨i, hc⟩ := s.offerRefused_command b
      rw [h, hc]
      refine ⟨Quad.get_set_other _ _ _ _ ?_, fun _ => ⟨b, rfl⟩⟩
      rintro rfl
      exact ho rfl
  · rw [State.tryOffer_console fun b hb => hcmd ⟨b, hb.symm⟩]
    exact ⟨rfl, id⟩

theorem State.CmdQueued.tryOffer (h : s.CmdQueued a p) {o : Offer} (ho : o ≠ .command a) : (s.tryOffer o).CmdQueued a p :=
  ⟨(State.tryOffer_other ho).1.trans h.1, (s.tryOffer_kept o).queued _ _ (by decide) (by decide) h.2⟩

theorem State.CmdRefused.tryOffer (h : s.CmdRefused a) {o : Offer} (ho : o ≠ .command a) : (s.tryOffer o).CmdRefused a :=
  ⟨(State.tryOffer_other ho).1.trans h.1, (State.tryOffer_other ho).2 h.2⟩

end

/-- At `u`, with these offers of `s` still to be made: the one offer of the command for `a` is among them, or has been answered by
the entries free. -/
structure State.Commanding (s : State) (a : Addr) (p : PendCmd) (os : List Offer) (u : State) : Prop where
  silent : u.silent = s.silent
  grown  : s.link.queue.length ≤ u.link.queue.length
  bound  : u.link.queue.length + os.length ≤ s.link.queue.length + s.offers.length
  answer : os.count (.command a) = 1 ∧ u.console.cmds.get a = some p
    ∨ os.count (.command a) = 0 ∧ (u.CmdQueued a p ∧ (s.silent = false ∧ s.link.queue.length ≤ 15)
      ∨ u.CmdRefused a ∧ ¬ (s.silent = false ∧ s.link.queue.length + s.offers.length ≤ 16))

theorem State.Commanding.tryOffer {s u : State} {a : Addr} {p : PendCmd} {os os' : List Offer} {o : Offer}
    (h : s.Commanding a p (os ++ o :: os') u) : s.Commanding a p (os ++ os') (u.tryOffer o) := by
  obtain ⟨hsilent, hgrown, hbound, hanswer⟩ := h
  obtain ⟨hle, hle'⟩ := u.tryOffer_length o
  simp only [List.length_append, List.length_cons] at hbound
  refine ⟨(u.tryOffer_kept o).clash.trans hsilent, hgrown.trans hle, by rw [List.length_append]; omega, ?_⟩
  rw [List.count_append, List.count_cons] at hanswer
  rw [List.count_append]
  by_cases ho : o = .command a
  · subst ho
    simp only [beq_self_eq_true, if_true] at hanswer
    obtain ⟨hcount, hget⟩ | ⟨hcount, -⟩ := hanswer
    · obtain ⟨hqueue, hrefuse⟩ := State.tryOffer_command hget
      refine Or.inr ⟨by omega, ?_⟩
      by_cases hroom : u.silent = false ∧ u.link.queue.length ≤ 15
      · exact Or.inl ⟨hqueue hroom, hsilent ▸ hroom.1, hgrown.trans hroom.2⟩
      · exact Or.inr ⟨hrefuse hroom, fun hall => hroom ⟨hsilent.trans hall.1, by omega⟩⟩
    · omega
  · simp only [beq_iff_eq, ho, if_false] at hanswer
    exact hanswer.imp (fun h => ⟨h.1, (State.tryOffer_other ho).1.trans h.2⟩) fun h =>
      ⟨h.1, h.2.imp (fun hq => ⟨hq.1.tryOffer ho, hq.2⟩) fun hr => ⟨hr.1.tryOffer ho, hr.2⟩⟩

/-- A command formed in an event and offered once: how it stands after the event (R173, Table 5-3). -/
theorem State.settleEvent_command {s : State} {a : Addr} {p : PendCmd} (hlate : s.NoLateClose)
    (hone : s.offers.count (.command a) = 1) (hp : s.console.cmds.get a = some p) :
    (s.settleEvent.CmdQueued a p ∨ s.settleEvent.CmdRefused a)
      ∧ (s.silent = false → s.link.queue.length + s.offers.length ≤ 16 → s.settleEvent.CmdQueued a p)
      ∧ (s.silent = true ∨ 16 ≤ s.link.queue.length → s.settleEvent.CmdRefused a) := by
  have hend : ∀ u : State, (u.signUpdate.CmdQueued a p ↔ u.CmdQueued a p)
      ∧ (u.signUpdate.CmdRefused a ↔ u.CmdRefused a) := by
    intro u
    unfold State.CmdQueued State.CmdRefused
    rw [State.signUpdate_console, (State.signUpdate_blocks u).2.1]
    exact ⟨Iff.rfl, Iff.rfl⟩
  rw [State.settleEvent_rested hlate, (hend _).1, (hend _).2]
  obtain ⟨-, -, -, hanswer⟩ := flush_tracks (P := s.Commanding a p) (fun _ _ _ _ h => h.tryOffer)
    (fun _ _ _ _ h => ⟨h.silent, h.grown, h.bound, h.answer⟩)
    ⟨rfl, Nat.le_refl _, Nat.le_refl _, Or.inl ⟨hone, hp⟩⟩
  obtain ⟨hcount, -⟩ | ⟨-, ⟨hq, hsil, hlen⟩ | ⟨hr, hfull⟩⟩ := hanswer
  · cases hcount
  · refine ⟨Or.inl hq, fun _ _ => hq, fun hno => ?_⟩
    obtain hsil' | hlen' := hno
    · exact absurd (hsil.symm.trans hsil') Bool.false_ne_true
    · omega
  · exact ⟨Or.inr hr, fun hsil hlen => absurd ⟨hsil, hlen⟩ hfull, fun _ => hr⟩

end Sys2Proof.Machine
end

section
/-! PROOFS. A beacon from another station (O31). -/
namespace Sys2Proof.Machine
open Sys2Proof

/-! ### The row and the conflict test (R86, R14) -/

/-- The row that a beacon fills (R86). -/
def seenRow (b : Beacon) : PeerRow := { present := true, age := 0, ever := true, beacon := some b, ovr := none }

/-- The station with a beacon heard and stored, after the conflict test (R80, R86, R14). -/
def State.beaconSeen (s : State) (a : Addr) (b : Beacon) : State := (s.heardFrame.storeBeacon a b).conflictTest

section
variable (s : State) (a : Addr) (b : Beacon)

theorem exec_beaconReceived : exec (.beaconReceived a b) s = frameEvent a (fun u => u.takeBeacon a b) s := rfl

theorem State.beaconSeen_eq : s.beaconSeen a b = { s with
    link := { s.link with fairness := 0, pause := none }
    peer := { s.peer with rows := s.peer.rows.set a (seenRow b) }
    hire := { s.hire with slot := (s.heardFrame.storeBeacon a b).testedSlot } } :=
  State.conflictTest_eq _

theorem State.testedSlot_eq_free_iff : s.testedSlot = .free ↔ s.hire.slot = .free := by
  unfold State.testedSlot
  cases s.hire.slot with
  | hired h =>
    dsimp only
    split <;> exact ⟨Slot.noConfusion, Slot.noConfusion⟩
  | _ => exact Iff.rfl

/-- Hearing and storing a beacon opens no late close (R153). -/
theorem State.beaconSeen_noLateClose (h : s.NoLateClose) : (s.beaconSeen a b).NoLateClose := by
  have hslot : (s.beaconSeen a b).hire.slot = .free ↔ s.hire.slot = .free := by
    rw [State.beaconSeen_eq]
    exact State.testedSlot_eq_free_iff _
  unfold State.NoLateClose
  rw [ne_eq, hslot, State.beaconSeen_eq]
  exact h

/-! ### What follows from it (R58, R123, R151, R177) -/

/-- A seat has not joined the shift, and no repeat of SHIFT_OPEN holds this one back (R151). -/
def State.repeatsTo (b : Beacon) : Bool :=
  s.shift.state == .onShift && (b.shiftState == .offShift || b.shiftNo != s.shift.number) && s.shift.repeatGuard.isNone
    && !s.silent

theorem State.repeatsTo_iff : s.repeatsTo b = true ↔ s.shift.state = .onShift
    ∧ (b.shiftState = .offShift ∨ b.shiftNo ≠ s.shift.number) ∧ s.shift.repeatGuard = none ∧ s.silent = false := by
  simp [State.repeatsTo, and_assoc]

/-- The console after a seat's beacon: its privacy, and at its first the DISCONNECT that falls due (R123, R177). -/
def Console.beaconFrom (c : Console) (now : Nat) (a : Addr) (b : Beacon) (first : Bool) : Console :=
  let c := { c with privacyInd := c.privacyInd.set a b.privacy }
  if first then (if c.ready a then c.forming now a .disconnect else c.deferring a .disconnect) else c

/-- What station 0 offers after a seat's beacon (R123, R151). -/
def State.beaconOffers (a : Addr) (b : Beacon) (first : Bool) : List Offer :=
  (if first && s.console.ready a then [.command a] else []) ++ (if s.repeatsTo b then [.shiftRepeat] else [])

theorem State.repeatOpen_eq : s.repeatOpen b = { s with
    shift := { s.shift with repeatGuard := if s.repeatsTo b then some 10000 else s.shift.repeatGuard }
    offers := s.offers ++ if s.repeatsTo b then [.shiftRepeat] else [] } := by
  have hcond : s.repeatsTo b = true ↔ s.shift.state = .onShift ∧ (b.shiftState = .offShift ∨ b.shiftNo ≠ s.shift.number)
      ∧ s.shift.repeatGuard.isNone ∧ !s.silent := by
    rw [State.repeatsTo_iff]
    simp
  unfold State.repeatOpen
  by_cases h : s.repeatsTo b = true
  · simp only [if_pos (hcond.1 h), if_pos h]
    rfl
  · rw [if_neg fun hno => h (hcond.2 hno), if_neg h, if_neg h, List.append_nil]

theorem State.consoleBeacon_eq {a : Addr} (ha : a ≠ 0) (first : Bool) : s.consoleBeacon a first b = { s with
    console := s.console.beaconFrom s.now a b first
    shift := { s.shift with repeatGuard := if s.repeatsTo b then some 10000 else s.shift.repeatGuard }
    offers := s.offers ++ s.beaconOffers a b first } := by
  unfold State.consoleBeacon State.beaconOffers Console.beaconFrom
  dsimp only
  rw [State.repeatOpen_eq]
  cases first with
  | false => rfl
  | true =>
    have hready : (s.beaconPrivacy a b).console.ready a = s.console.ready a := rfl
    have hready' : ({ s.console with privacyInd := s.console.privacyInd.set a b.privacy } : Console).ready a
      = s.console.ready a := rfl
    rw [hready', Bool.true_and, if_pos rfl, if_pos rfl]
    cases h : s.console.ready a with
    | true =>
      rw [State.dueCommand_ready _ ha (hready.trans h), if_pos rfl, if_pos rfl, ← List.append_assoc]
      rfl
    | false =>
      rw [State.dueCommand_busy _ (hready.trans h), if_neg Bool.false_ne_true, if_neg Bool.false_ne_true, List.nil_append]
      rfl

end

/-! ### How the event ends -/

theorem Clock.follow_eq (c : Clock) (b : Beacon) : c.follow b =
    if b.clockSet then
      if c.seconds + 2 < b.role.toNat ∨ b.role.toNat + 2 < c.seconds then { seconds := b.role.toNat, phase := 0, isSet := true }
      else { c with isSet := true }
    else { c with isSet := false } := by
  have hfar : farApart c.seconds b.role.toNat = true ↔ c.seconds + 2 < b.role.toNat ∨ b.role.toNat + 2 < c.seconds := by
    simp [farApart]
  unfold Clock.follow
  simp only [hfar]

/-- A repeat of SHIFT_OPEN is queued or lost, and never held (R151). -/
theorem State.tryOffer_shiftRepeat {s : State} {driver : Nat} (h : s.shift.driver = some driver) :
    s.tryOffer .shiftRepeat = { s with
      link := (s.link.offer s.now 5 (encShiftFrame (.opened s.shift.number driver true)) .shiftFrame).getD s.link } := by
  have hoff : s.offered .shiftRepeat = some (encShiftFrame (.opened s.shift.number driver true), .shiftFrame) := by
    show some (encShiftFrame (.opened s.shift.number (s.shift.driver.getD 0) true), Tag.shiftFrame) = _
    rw [h]
    rfl
  unfold State.tryOffer
  rw [hoff]
  dsimp only [Offer.cls]
  cases s.link.offer s.now 5 (encShiftFrame (.opened s.shift.number driver true)) .shiftFrame <;> rfl

/-- With room a repeat of SHIFT_OPEN reaches the queue, whatever is offered with it. -/
theorem State.HasRoom.shiftRepeat {s : State} (h : s.HasRoom s.offers) (ho : .shiftRepeat ∈ s.offers) {driver : Nat}
    (hdriver : s.shift.driver = some driver) :
    s.flushOffers.link.Carries 5 (encShiftFrame (.opened s.shift.number driver true)) := by
  refine (h.sent (item := fun b => (b.shift.number, b.shift.driver)) (release := id) (o := .shiftRepeat)
    (x := (s.shift.number, some driver)) (by rw [← hdriver]; rfl) ho (fun u hu => ⟨.shiftFrame, ?_⟩) (fun u y => ?_) rfl).2
  · obtain ⟨hnumber, hdriver⟩ := Prod.mk.inj hu
    have hnumber : u.shift.number = s.shift.number := hnumber
    have hdriver : u.shift.driver = some driver := hdriver
    show some (encShiftFrame (.opened u.shift.number (u.shift.driver.getD 0) true), Tag.shiftFrame) = _
    rw [hnumber, hdriver]
    rfl
  · rw [id, ite_self]
    cases y with
    | hireEvent =>
      obtain ⟨p, l, ht⟩ := u.offerTaken_hireEvent
      rw [ht]
      rfl
    | _ => rfl

section
variable {s : State} {a : Addr} {b : Beacon}

/-- The station after a beacon has been taken and before its event ends. -/
def State.beaconTaken (s : State) (a : Addr) (b : Beacon) : State := s.heardFrame.takeBeacon a b

theorem beaconReceived_next (hr : s.supply.running = true) (hs : s.HearsFrom a) :
    exec (.beaconReceived a b) s = .next (s.beaconTaken a b).settleEvent := frameEvent_next hr hs

theorem State.beaconSeen_addr : (s.beaconSeen a b).isConsole = s.isConsole := by
  rw [State.beaconSeen_eq]
  rfl

theorem State.beaconTaken_seat (h0 : s.addr ≠ 0) : s.beaconTaken a b =
    if a = 0 then (s.beaconSeen a b).onClock fun c => c.follow b else s.beaconSeen a b := by
  have hcon : (s.beaconSeen a b).isConsole = false := by
    rw [State.beaconSeen_addr]
    exact Bool.eq_false_iff.2 fun h => h0 (s.isConsole_iff.1 h)
  unfold State.beaconTaken State.takeBeacon
  dsimp only
  rw [← State.beaconSeen, hcon]
  rfl

/-- The station at station 0 once a seat's beacon has been taken. -/
theorem State.beaconTaken_console (hs : s.HearsFrom a) (h0 : s.addr = 0) : s.beaconTaken a b = { s.beaconSeen a b with
    console := s.console.beaconFrom s.now a b (!(s.peer.rows.get a).ever)
    shift := { s.shift with repeatGuard := if s.repeatsTo b then some 10000 else s.shift.repeatGuard }
    offers := s.offers ++ s.beaconOffers a b (!(s.peer.rows.get a).ever) } := by
  have hseat : a ≠ 0 := fun ha => hs.2 (ha.trans h0.symm)
  have hcon : (s.beaconSeen a b).isConsole = true := State.beaconSeen_addr.trans (s.isConsole_iff.2 h0)
  unfold State.beaconTaken State.takeBeacon
  dsimp only
  rw [← State.beaconSeen, hcon, if_pos rfl, State.consoleBeacon_eq _ _ hseat]
  simp only [State.beaconSeen_eq]
  rfl

/-- Whatever else a beacon does, its row is filled and the frame heard (R80, R86). -/
theorem State.beaconTaken_fills (hs : s.HearsFrom a) :
    (s.beaconTaken a b).link = (s.beaconSeen a b).link ∧ (s.beaconTaken a b).peer = (s.beaconSeen a b).peer
      ∧ (s.beaconTaken a b).hire = (s.beaconSeen a b).hire := by
  by_cases h0 : s.addr = 0
  · rw [State.beaconTaken_console hs h0]
    exact ⟨rfl, rfl, rfl⟩
  · rw [State.beaconTaken_seat h0]
    split <;> exact ⟨rfl, rfl, rfl⟩

theorem State.beaconSeen_link : (s.beaconSeen a b).link = { s.link with fairness := 0, pause := none } := by
  rw [State.beaconSeen_eq]

theorem State.beaconSeen_rows : (s.beaconSeen a b).peer.rows = s.peer.rows.set a (seenRow b) := by
  rw [State.beaconSeen_eq]

theorem State.beaconTaken_queue (hs : s.HearsFrom a) :
    (s.beaconTaken a b).link.queue = s.link.queue ∧ (s.beaconTaken a b).silent = s.silent := by
  obtain ⟨hlink, -, -⟩ := State.beaconTaken_fills (b := b) hs
  unfold State.silent
  rw [hlink, State.beaconSeen_link]
  exact ⟨rfl, rfl⟩

section
variable (hr : s.supply.running = true) (hs : s.HearsFrom a)
include hr hs

theorem beacon_fills : ∃ t, exec (.beaconReceived a b) s = .next t ∧ t.link.fairness = 0 ∧ t.link.pause = none
    ∧ t.peer.rows.get a = seenRow b := by
  obtain ⟨hlink, hpeer, -⟩ := State.beaconTaken_fills (b := b) hs
  obtain ⟨hfair, hpause⟩ := (s.beaconTaken a b).settleEvent_line
  refine ⟨_, beaconReceived_next hr hs, ?_⟩
  rw [hfair, hpause, (State.settleEvent_kept _).rows, hlink, hpeer, State.beaconSeen_link, State.beaconSeen_rows]
  exact ⟨rfl, rfl, Quad.get_set_same _ _ _⟩

/-- At a seat nothing follows from a beacon but the clock of station 0 (R58). -/
theorem beacon_at_seat (h0 : s.addr ≠ 0) {e : State}
    (he : (if a = 0 then (s.beaconSeen a b).onClock fun c => c.follow b else s.beaconSeen a b) = e) :
    ∃ t, exec (.beaconReceived a b) s = .next t ∧ e.Kept t := by
  refine ⟨_, beaconReceived_next hr hs, ?_⟩
  rw [← he, ← State.beaconTaken_seat h0]
  exact State.settleEvent_kept _

/-- The seat's clock after a beacon of station 0 (R58). -/
theorem beacon_sets_clock (h0 : s.addr ≠ 0) (ha : a = 0) {c : Clock} (hc : s.clock.follow b = c) :
    ∃ t, exec (.beaconReceived a b) s = .next t ∧ ({ s.beaconSeen a b with clock := c } : State).Kept t := by
  refine beacon_at_seat hr hs h0 ?_
  rw [if_pos ha, ← hc, State.beaconSeen_eq]
  rfl

end

/-! ### At station 0 (R123, R151, R177) -/

section
variable (hs : s.HearsFrom a) (h0 : s.addr = 0)
include hs h0

/-- The event of a beacon makes no late close, where none was to be made. -/
theorem State.beaconTaken_noLateClose (h : s.NoLateClose) : (s.beaconTaken a b).NoLateClose := by
  have hseen := s.beaconSeen_noLateClose a b h
  rw [State.beaconTaken_console hs h0]
  rw [State.beaconSeen_eq] at hseen ⊢
  exact hseen

theorem State.beaconTaken_offers (hq : s.Quiet) :
    (s.beaconTaken a b).offers = s.beaconOffers a b (!(s.peer.rows.get a).ever) := by
  rw [State.beaconTaken_console hs h0, hq.1]
  rfl

/-- The rows, the slot and the clock that a beacon leaves at station 0, and the guard of the repeats (R151). -/
theorem State.beacon_ends : ∀ t, t = (s.beaconTaken a b).settleEvent →
    t.peer.rows = (s.beaconSeen a b).peer.rows ∧ t.hire.slot = (s.beaconSeen a b).hire.slot ∧ t.clock = s.clock
      ∧ (s.NoLateClose → t.shift.repeatGuard = if s.repeatsTo b then some 10000 else s.shift.repeatGuard) := by
  rintro t rfl
  have hkept := (s.beaconTaken a b).settleEvent_kept
  obtain ⟨-, hpeer, hhire⟩ := State.beaconTaken_fills (b := b) hs
  rw [hkept.rows, hkept.slot, hkept.clock, hpeer, hhire]
  refine ⟨rfl, rfl, ?_, fun hlate => ?_⟩
  · rw [State.beaconTaken_console hs h0, State.beaconSeen_eq]
  · rw [State.settleEvent_repeatGuard (State.beaconTaken_noLateClose hs h0 hlate), State.beaconTaken_console hs h0]

/-- What waits for a seat's DISCONNECT to be formed leaves the console of the operation (R176). -/
theorem State.beacon_console (hq : s.Quiet) (hno : (!(s.peer.rows.get a).ever && s.console.ready a) = false) :
    (s.beaconTaken a b).settleEvent.console = s.console.beaconFrom s.now a b (!(s.peer.rows.get a).ever) := by
  rw [State.settleEvent_console, State.beaconTaken_console hs h0]
  intro c hc
  rw [State.beaconTaken_offers hs h0 hq, State.beaconOffers, hno, if_neg Bool.false_ne_true, List.nil_append,
    List.mem_ite_nil_right] at hc
  exact Offer.noConfusion (List.mem_singleton.1 hc.2)

/-- A repeat of SHIFT_OPEN goes by the queue as any new frame, and is never held (R151). -/
theorem State.beacon_repeats (hq : s.Quiet) {driver : Nat} (hdriver : s.shift.driver = some driver) :
    ∀ t again, t = (s.beaconTaken a b).settleEvent → again = encShiftFrame (.opened s.shift.number driver true) →
      t.shift.held = s.shift.held
        ∧ (s.repeatsTo b = true → s.link.queue.length ≤ 11 → t.link.Carries 5 again)
        ∧ ((s.peer.rows.get a).ever = true →
          (s.repeatsTo b = true → t.link =
            ((s.beaconSeen a b).link.offer s.now 5 again .shiftFrame).getD (s.beaconSeen a b).link)
          ∧ (s.repeatsTo b = false → t.link = (s.beaconSeen a b).link)) := by
  rintro t again rfl rfl
  have hlate := State.beaconTaken_noLateClose (b := b) hs h0 hq.2
  have hoffers := State.beaconTaken_offers (b := b) hs h0 hq
  have hshift : (s.beaconTaken a b).shift.held = s.shift.held ∧ (s.beaconTaken a b).shift.number = s.shift.number
      ∧ (s.beaconTaken a b).shift.driver = some driver ∧ (s.beaconTaken a b).now = s.now := by
    rw [State.beaconTaken_console hs h0, State.beaconSeen_eq]
    exact ⟨rfl, rfl, hdriver, rfl⟩
  obtain ⟨hlink, -, -⟩ := State.beaconTaken_fills (b := b) hs
  obtain ⟨hqueue, hsilent⟩ := State.beaconTaken_queue (b := b) hs
  generalize s.beaconTaken a b = v at hlate hoffers hshift hlink hqueue hsilent
  obtain ⟨hheld, hnumber, hdriver', hnow⟩ := hshift
  refine ⟨?_, fun hrep hroom => ?_, fun hever => ⟨fun hrep => ?_, fun hrep => ?_⟩⟩
  · rw [State.settleEvent_shiftHeld hlate, hheld]
    intro f hf
    rw [hoffers] at hf
    unfold State.beaconOffers at hf
    simp [List.mem_append, List.mem_ite_nil_right] at hf
  · have hawake := ((s.repeatsTo_iff b).1 hrep).2.2.2
    rw [State.settleEvent_rested hlate, (State.signUpdate_blocks _).2.1, ← hnumber]
    refine State.HasRoom.shiftRepeat ⟨hsilent.trans hawake, ?_, fun o ho => ?_⟩ ?_ hdriver'
    · rw [hqueue, hoffers, State.beaconOffers, List.length_append]
      split <;> simp only [List.length_cons, List.length_nil] <;> omega
    · rw [hoffers, State.beaconOffers, List.mem_append, List.mem_ite_nil_right, List.mem_ite_nil_right,
        List.mem_singleton, List.mem_singleton] at ho
      obtain ⟨-, rfl⟩ | ⟨-, rfl⟩ := ho <;> rfl
    · rw [hoffers, State.beaconOffers, if_pos hrep]
      exact List.mem_append_right _ List.mem_cons_self
  · rw [State.beaconOffers, hever, hrep] at hoffers
    rw [State.settleEvent_one hoffers hlate, (State.signUpdate_blocks _).2.1,
      State.tryOffer_shiftRepeat (s := { v with offers := [] }) hdriver', hnumber, hlink, hnow]
  · rw [State.beaconOffers, hever, hrep] at hoffers
    rw [State.settleEvent_quiet ⟨hoffers, hlate⟩, (State.signUpdate_blocks _).2.1, hlink]

/-- The DISCONNECT of a row present for the first time, with nothing pending for it (R123, R173). -/
theorem State.beacon_disconnects (hq : s.Quiet) (hfirst : (s.peer.rows.get a).ever = false)
    (hready : s.nonePending a = true) : ∀ t, t = (s.beaconTaken a b).settleEvent →
      t.console.nextSeq = (s.console.nextSeq + 1) % 16 ∧ s.Commanded t a .disconnect s.console.nextSeq := by
  rintro t rfl
  have hlate := State.beaconTaken_noLateClose (b := b) hs h0 hq.2
  have hready' : s.console.ready a = true := hready
  have hoffers := State.beaconTaken_offers (b := b) hs h0 hq
  rw [hfirst, Bool.not_false, State.beaconOffers, Bool.true_and, if_pos hready'] at hoffers
  have hcount : (s.beaconTaken a b).offers.count (.command a) = 1 := by
    rw [hoffers, List.count_append]
    split <;> simp
  have hlength : (s.beaconTaken a b).offers.length ≤ 2 := by
    rw [hoffers]
    split <;> simp
  have hconsole : (s.beaconTaken a b).console
      = ({ s.console with privacyInd := s.console.privacyInd.set a b.privacy } : Console).forming s.now a .disconnect := by
    rw [State.beaconTaken_console hs h0, hfirst]
    exact if_pos hready'
  obtain ⟨hqueue, hsilent⟩ := State.beaconTaken_queue (b := b) hs
  obtain ⟨hanswer, hroom, hfull⟩ := State.settleEvent_command hlate hcount (by rw [hconsole]; exact Quad.get_set_same _ _ _)
  rw [hqueue, hsilent] at hroom hfull
  refine ⟨?_, ?_⟩
  · rw [(State.settleEvent_kept _).nextSeq, hconsole]
    rfl
  · rintro queued refused rfl rfl
    exact ⟨hanswer, fun hsil hlen => hroom hsil (by omega), hfull⟩

end

end

/-! ### The statement -/

/-- Settles O31. -/
theorem beaconFillsItsRow : Obligations.BeaconFillsItsRow := by
  intro a b s hr hs u hu
  obtain rfl : u = s.beaconSeen a b := hu
  have hnext := beaconReceived_next (b := b) hr hs
  have hever : ∀ {x}, (s.peer.rows.get a).ever = x → (!(s.peer.rows.get a).ever) = !x := fun h => congrArg _ h
  refine ⟨beacon_fills hr hs, fun h0 ha => beacon_at_seat hr hs h0 (if_neg ha), fun h0 ha => ⟨fun hset hfar => ?_,
    fun hset hnear hnear' => ?_, fun hset => ?_⟩, fun h0 hev => ?_, fun h0 hq joined repeats hjoined hrepeats driver hdriver
      again hagain => ?_, fun h0 hq hfirst => ⟨fun hready => ?_, fun hbusy => ?_⟩, ?_⟩
  · refine beacon_sets_clock hr hs h0 ha ?_
    rw [Clock.follow_eq, if_pos hset, if_pos hfar]
  · refine beacon_sets_clock hr hs h0 ha ?_
    rw [Clock.follow_eq, if_pos hset, if_neg (by omega)]
  · refine beacon_sets_clock hr hs h0 ha ?_
    rw [Clock.follow_eq, hset, if_neg Bool.false_ne_true]
  · obtain ⟨hrows, hslot, hclock, hguard⟩ := State.beacon_ends (b := b) hs h0 _ rfl
    have hcon : (s.beaconTaken a b).console = s.console.beaconFrom s.now a b false := by
      rw [State.beaconTaken_console hs h0, hev]
      rfl
    refine ⟨_, hnext, hrows, hslot, ?_, hclock, fun hlate => ?_, fun hq => ?_⟩
    · rw [(State.settleEvent_kept _).privacyInd, hcon]
      rfl
    · rw [hguard hlate]
      exact if_congr (s.repeatsTo_iff b) rfl rfl
    · rw [State.beacon_console hs h0 hq (by rw [hev]; rfl), hev]
      exact ⟨rfl, rfl, rfl⟩
  · have hrep : repeats ↔ s.repeatsTo b = true := by
      rw [hrepeats, hjoined, State.repeatsTo_iff, not_and_or, not_not]
    obtain ⟨-, -, -, hguard⟩ := State.beacon_ends (b := b) hs h0 _ rfl
    obtain ⟨hheld, hcarries, hlinks⟩ := State.beacon_repeats hs h0 hq hdriver _ again rfl hagain
    refine ⟨_, hnext, hheld, fun h => ⟨?_, hcarries (hrep.1 h)⟩, fun h => ?_, fun hev => ⟨fun h => ?_, fun h => ?_⟩⟩
    · rw [hguard hq.2, if_pos (hrep.1 h)]
    · rw [hguard hq.2, if_neg fun hno => h (hrep.2 hno)]
    · exact (hlinks hev).1 (hrep.1 h)
    · exact (hlinks hev).2 (Bool.eq_false_iff.2 fun hno => h (hrep.2 hno))
  · obtain ⟨hrows, -, -, -⟩ := State.beacon_ends (b := b) hs h0 _ rfl
    obtain ⟨hseq, hcommanded⟩ := State.beacon_disconnects (b := b) hs h0 hq hfirst hready _ rfl
    exact ⟨_, hnext, hrows, hseq, hcommanded⟩
  · obtain ⟨hrows, -, -, -⟩ := State.beacon_ends (b := b) hs h0 _ rfl
    have hbusy' : s.console.ready a = false := hbusy
    have hcon : (s.beaconTaken a b).settleEvent.console
        = ({ s.console with privacyInd := s.console.privacyInd.set a b.privacy } : Console).deferring a .disconnect := by
      rw [State.beacon_console hs h0 hq (by rw [hbusy', Bool.and_false]), hfirst]
      exact if_neg fun h => Bool.false_ne_true (hbusy'.symm.trans h)
    refine ⟨_, hnext, hrows, ?_⟩
    rw [hcon]
    exact ⟨rfl, rfl, rfl⟩
  · have hslot : (s.beaconSeen a b).hire.slot = (s.heardFrame.storeBeacon a b).testedSlot := by rw [State.beaconSeen_eq]
    have hpeers : (s.beaconSeen a b).peers = (s.heardFrame.storeBeacon a b).peers := by
      rw [State.beaconSeen_eq]
      rfl
    rw [hslot, hpeers]
    unfold State.testedSlot
    rw [show (s.heardFrame.storeBeacon a b).hire.slot = s.hire.slot from rfl]
    cases s.hire.slot <;> rfl

end Sys2Proof.Machine
end

section
/-! PROOFS. A sent frame, and what its sent report starts (O28). -/
namespace Sys2Proof.Machine
open Sys2Proof

/-! ### The entry in flight leaves the queue (R79, R80, R82) -/

/-- The station with this entry sent and out of its queue, before the sent report. -/
def State.frameGone (s : State) (e : Entry) : State := { s with
  lines := { s.lines with cab := cabFrame e.cls s.addr e.payload }
  link := { s.link with queue := s.link.queue.filter (fun x => !x.begun), repl := none
                        fairness := if e.cls = 0 then s.link.fairness else min 6 (s.link.fairness + 1) } }

theorem exec_frameSent (s : State) : exec .frameSent s = event State.takeSent s := rfl

section
variable {s : State} {e : Entry}

theorem State.takeSent_eq (he : s.link.queue.find? (·.begun) = some e) :
    s.takeSent = ((s.frameGone e).offerRepl e s.link.repl).sentReport e.tag := by
  unfold State.takeSent Link.flying
  rw [he]
  rfl

theorem State.takeSent_replaced (he : s.link.queue.find? (·.begun) = some e) {r : Repl} (hr : s.link.repl = some r)
    (hnew : r.refresh = false) : s.takeSent = ({ s.frameGone e with
      link := ((s.frameGone e).link.offer s.now e.cls r.payload e.tag).getD (s.frameGone e).link } : State).sentReport
        e.tag := by
  rw [State.takeSent_eq he, hr]
  unfold State.offerRepl
  dsimp only
  rw [hnew, if_neg Bool.false_ne_true, show (s.frameGone e).now = s.now from rfl]
  cases (s.frameGone e).link.offer s.now e.cls r.payload e.tag <;> rfl

/-- A refresh has no frame of its own: with nothing else to replace, the sent report follows at once (R82). -/
theorem State.takeSent_reported (he : s.link.queue.find? (·.begun) = some e)
    (hr : ∀ r, s.link.repl = some r → r.refresh = true) : s.takeSent = (s.frameGone e).sentReport e.tag := by
  rw [State.takeSent_eq he]
  cases hrepl : s.link.repl with
  | none => rfl
  | some r =>
    unfold State.offerRepl
    dsimp only
    rw [if_pos (hr r hrepl)]

theorem State.Quiet.frameGone (h : s.Quiet) (e : Entry) : (s.frameGone e).Quiet := h.of_same rfl rfl rfl rfl

end

/-! ### The sent reports of a CLAIM, a COMMAND and a RECORD_QUERY (R8, R173, R185) -/

section
variable {s : State}

theorem State.claimSent_open {c : Claim} (hslot : s.hire.slot = .claiming c) (hsent : c.sent = false) :
    s.claimSent c.id =
      let u := s.onHire fun h => { h with slot := .claiming { c with sent := true, window := some 3000 } }
      if s.isConsole then u.markClaiming 0 c.seq else u := by
  unfold State.claimSent
  rw [hslot]
  dsimp only
  rw [if_pos ⟨rfl, by rw [hsent]; rfl⟩]
  rfl

theorem State.claimSent_other {id : Nat} (h : ∀ c, s.hire.slot = .claiming c → c.id ≠ id ∨ c.sent = true) :
    s.claimSent id = s := by
  unfold State.claimSent
  split
  · next c hslot =>
    rw [if_neg]
    rintro ⟨hid, hsent⟩
    obtain hne | hyes := h c hslot
    · exact hne hid
    · rw [hyes] at hsent
      cases hsent
  all_goals rfl

/-- The own HIRE whose CLAIM has gone out is marked as claiming, with no limit (R175). -/
theorem State.markClaiming_own {p : PendCmd} {kind : Kind} {party : Nat} (h : s.console.cmds.get 0 = some p)
    (hcmd : p.cmd = .hire kind party) :
    (s.markClaiming 0 p.seq).console.cmds.get 0 = some { p with claiming := true, limit := none } := by
  obtain ⟨cmd, seq, formed, claiming, handed, limit⟩ := p
  obtain rfl : cmd = .hire kind party := hcmd
  unfold State.markClaiming
  rw [h]
  dsimp only
  rw [if_pos rfl]
  exact Quad.get_set_same s.console.cmds 0 _

theorem State.markClaiming_blocks (s : State) (a : Addr) (seq : Nat) :
    (s.markClaiming a seq).hire = s.hire ∧ (s.markClaiming a seq).link = s.link
      ∧ (s.markClaiming a seq).offers = s.offers ∧ (s.markClaiming a seq).shift = s.shift
      ∧ (s.markClaiming a seq).pay = s.pay := by
  obtain h | ⟨x, h⟩ := s.markClaiming_form a seq <;> rw [h] <;> exact ⟨rfl, rfl, rfl, rfl, rfl⟩

theorem State.commandSent_open {a : Addr} {p : PendCmd} (h : s.console.cmds.get a = some p) (hp : p.claiming = false) :
    s.commandSent a p.seq = s.onConsole fun c => { c with cmds := c.cmds.set a (some { p with limit := some 2000 }) } := by
  unfold State.commandSent
  rw [h]
  dsimp only
  rw [if_pos ⟨rfl, by rw [hp]; rfl⟩]
  rfl

theorem State.commandSent_other {a : Addr} {seq : Nat}
    (h : ∀ p, s.console.cmds.get a = some p → p.seq ≠ seq ∨ p.claiming = true) : s.commandSent a seq = s := by
  unfold State.commandSent
  split
  · next p hp =>
    rw [if_neg]
    rintro ⟨hseq, hclaim⟩
    obtain hne | hyes := h p hp
    · exact hne hseq
    · rw [hyes] at hclaim
      cases hclaim
  · rfl

theorem State.querySent_open {tr : Transfer} (h : s.print.transfer = some tr) (hst : tr.st = .opened) :
    s.querySent tr.gen = s.onPrint fun p => { p with transfer := some { tr with limit := some 2000 } } := by
  unfold State.querySent
  rw [h]
  dsimp only
  rw [if_pos ⟨rfl, hst⟩]
  rfl

end

/-! ### The sent report of SHIFT_CALL (R159, R162) -/

theorem Quad.all_toList {α : Type} (q : Quad α) (p : α → Bool) : q.toList.all p = true ↔ ∀ a, p (q.get a) = true := by
  simp [Quad.toList, Quad.get, Fin.forall_fin_succ]

/-- The rows of a close with the own row complete (R159). -/
def Close.ownComplete (c : Close) : Quad CloseRow := c.rows.set 0 { c.rows.get 0 with st := .complete }

/-- The station whose SHIFT_CALL counts as sent, before the test for completion (R159). -/
def State.callTimed (s : State) : State :=
  s.onClose fun c => { c with collect := some 30000, rows := s.close.ownComplete }

section
variable {s : State}

theorem State.callSent_other (h : s.close.state ≠ .collecting ∨ s.close.collect ≠ none) : s.callSent = s := by
  unfold State.callSent
  rw [if_neg]
  rintro ⟨hcol, hnone⟩
  obtain hno | hno := h
  · exact hno hcol
  · exact hno (Option.isNone_iff_eq_none.1 hnone)

section
variable (hcol : s.close.state = .collecting) (hnone : s.close.collect = none)
include hcol hnone

theorem State.callSent_due : s.callSent = s.callTimed.completionTest := by
  unfold State.callSent
  rw [if_pos ⟨hcol, Option.isNone_iff_eq_none.2 hnone⟩]
  rfl

theorem State.callSent_waits (h : s.close.ownComplete.toList.any (fun r => !r.settled s.close.forced) = true) :
    s.callSent = s.callTimed := by
  rw [State.callSent_due hcol hnone]
  refine if_neg fun hall => ?_
  have hall' : s.close.ownComplete.toList.all (fun r => r.settled s.close.forced) = true := hall.2
  obtain ⟨r, hr, hno⟩ := List.any_eq_true.1 h
  rw [List.all_eq_true.1 hall' r hr] at hno
  cases hno

theorem State.callSent_done (h : s.close.ownComplete.toList.all (fun r => r.settled s.close.forced) = true) :
    s.callSent = s.callTimed.closeDone := by
  rw [State.callSent_due hcol hnone]
  exact if_pos ⟨hcol, h⟩

end

/-- The SHIFT_DONE of a close: forced or not, its number, and the rows that are COMPLETE (R162). -/
def Close.doneFrame (c : Close) : ShiftFrame := .done c.forced c.number (allAddrs.filter fun a => (c.rows.get a).st == .complete)

/-- The shift after a close in DONE: its totals are the last shift's, it is OFF_SHIFT, and SHIFT_DONE is held to be offered, unless
the station is LINK_SILENT (R157, R162, R91). -/
def State.shiftDone (s : State) : Shift := { s.shift with
  last := some { number := s.shift.number, driver := s.shift.driver, openTime := s.shift.openTime, lost := s.shift.lost
                 closeTime := s.clock.seconds, mark := if s.close.forced then .forced else .normal, acc := s.shift.acc }
  acc := .zero
  state := .offShift
  closing := none
  held := if s.silent then s.shift.held else s.shift.held ++ [s.close.doneFrame] }

/-- The report of a close is made a job, or held while four jobs wait (R162, R180). -/
theorem State.closeDone_eq (s : State) : s.closeDone = { s with
    close := { s.close with
      state := .done, collect := none, reportHeld := s.print.full
      rowZero := some { acc := s.shift.acc, lost := s.shift.lost, openTime := s.shift.openTime
                        closeTime := s.clock.seconds, reversals := s.pay.reversals } }
    shift := s.shiftDone
    print := if s.print.full then s.print else { s.print with jobs := s.print.jobs ++ [.vehicleReport] }
    offers := if s.silent then s.offers else s.offers ++ [.shiftFrame s.close.doneFrame] } := by
  have hsend : s.closeDone = ({ s with
      close := { s.close with
        state := .done, collect := none
        rowZero := some { acc := s.shift.acc, lost := s.shift.lost, openTime := s.shift.openTime
                          closeTime := s.clock.seconds, reversals := s.pay.reversals } }
      shift := s.shiftDone
      offers := if s.silent then s.offers else s.offers ++ [.shiftFrame s.close.doneFrame] } : State).offerReport := by
    unfold State.closeDone State.shiftDone State.sendShift
    dsimp only
    cases hsil : s.silent with
    | true =>
      rw [if_pos (show State.silent (s.onClose _) = true from hsil)]
      rfl
    | false =>
      rw [if_neg (fun h : State.silent (s.onClose _) = true => Bool.false_ne_true (hsil.symm.trans h))]
      rfl
  rw [hsend]
  unfold State.offerReport
  cases hfull : s.print.full with
  | true => rfl
  | false => rfl

/-- The close ends in DONE in the event of its completion (R162, R157). -/
theorem State.closeDone_ends (hlate : s.NoLateClose) : s.ClosedInDone s.closeDone.settleEvent s.close.rows := by
  have hlate' : s.closeDone.NoLateClose := by
    rw [State.closeDone_eq]
    exact hlate
  have hclose : s.closeDone.settleEvent.close = s.closeDone.close := (State.settleEvent_kept _).close
  have hjobs : s.closeDone.settleEvent.print.jobs = s.closeDone.print.jobs := (State.settleEvent_kept _).jobs
  have hshift : ∃ held tx late, s.closeDone.settleEvent.shift = { s.shiftDone with held := held, tx := tx, lateTx := late } := by
    obtain ⟨held, tx, late, h⟩ := s.closeDone.flushOffers_shift
    refine ⟨held, tx, late, ?_⟩
    rw [State.settleEvent_rested hlate', (State.signUpdate_blocks _).2.2.2.1, h, State.closeDone_eq]
  have hdone : s.silent = false → s.close.doneFrame ∈ s.closeDone.shift.held := by
    intro h
    rw [State.closeDone_eq]
    dsimp only [State.shiftDone]
    rw [h, if_neg Bool.false_ne_true]
    exact List.mem_append_right _ List.mem_cons_self
  obtain ⟨held, tx, late, hshift'⟩ := hshift
  refine ⟨?_, ?_, ?_, ?_, ?_, ?_, ?_, ?_, ?_, fun hfull => ?_, fun hfull => ?_⟩
  iterate 4
    rw [hclose, State.closeDone_eq]
  iterate 4
    rw [hshift']
    rfl
  · rintro f rfl hsilent
    exact State.settleEvent_shiftFrame (Or.inl (hdone hsilent))
  · have hno : s.print.full = false := Bool.eq_false_iff.2 fun h => absurd ((Print.full_iff _).1 h) (Nat.not_le.2 hfull)
    rw [hjobs, hclose, State.closeDone_eq, hno]
    exact ⟨rfl, rfl⟩
  · have hyes : s.print.full = true := (Print.full_iff _).2 hfull
    rw [hjobs, hclose, State.closeDone_eq, hyes]
    exact ⟨rfl, rfl⟩

end

/-! ### The next part of a summary or a record (R161, R186) -/

def SumTx.holding (held : Bool) (tx : SumTx) : SumTx := { tx with held := held }

def Serve.holding (held : Bool) (sv : Serve) : Serve := { sv with held := held }

section
variable {s : State}

/-- An event with this offer alone ends in the offer and the sign's recompute. -/
theorem State.settleEvent_offer (h : s.Quiet) (o : Offer) : (s.offer o).settleEvent = (s.tryOffer o).signUpdate := by
  obtain ⟨hnone, hlate⟩ := h
  have hone : (s.offer o).offers = [o] := by
    show s.offers ++ [o] = _
    rw [hnone]
    rfl
  rw [State.settleEvent_one hone hlate, ← hnone]
  rfl

/-- An offer of a frame that has no older one to replace ends in its frame queued, or in its being refused (R81). -/
theorem State.tryOffer_new {o : Offer} {payload : List Byte} {tag : Tag} (hoff : s.offered o = some (payload, tag))
    (hcls : replaceable o.cls = false) :
    (∃ l, s.tryOffer o = (s.onLink fun _ => l).offerTaken o ∧ l.Carries o.cls payload) ∨ s.tryOffer o = s.offerRefused o := by
  obtain ⟨hnone, -⟩ | ⟨payload', tag', hoff', htake⟩ := s.tryOffer_cases o
  · cases hoff.symm.trans hnone
  · cases hoff.symm.trans hoff'
    exact htake.imp (fun ⟨l, hl, ht⟩ => ⟨l, ht, Link.offer_new hl hcls⟩) And.right

theorem SumTx.next_some {tx : SumTx} {p : SummaryPart} (h : tx.parts[tx.k + 1]? = some p) :
    tx.next = some { tx with k := tx.k + 1 } :=
  if_pos (List.getElem?_eq_some_iff.1 h).1

theorem SumTx.next_none {tx : SumTx} (h : tx.parts.length ≤ tx.k + 1) : tx.next = none := if_neg (Nat.not_lt.2 h)

theorem State.summarySent_next {tx : SumTx} {p : SummaryPart} (htx : s.shift.tx = some tx)
    (h : tx.parts[tx.k + 1]? = some p) :
    s.summarySent tx.gen tx.k = (s.onShift fun sh => { sh with tx := some { tx with k := tx.k + 1 } }).offer .summary := by
  unfold State.summarySent
  rw [htx]
  dsimp only
  rw [if_pos ⟨rfl, rfl⟩, SumTx.next_some h]
  rfl

theorem State.summarySent_last {tx : SumTx} (htx : s.shift.tx = some tx) (h : tx.parts.length ≤ tx.k + 1) :
    s.summarySent tx.gen tx.k = s.onShift fun sh => { sh with tx := none } := by
  unfold State.summarySent
  rw [htx]
  dsimp only
  rw [if_pos ⟨rfl, rfl⟩, SumTx.next_none h]
  rfl

theorem State.lateSummarySent_next {tx : SumTx} {p : SummaryPart} (htx : s.shift.lateTx = some tx)
    (h : tx.parts[tx.k + 1]? = some p) : s.lateSummarySent tx.gen tx.k
      = (s.onShift fun sh => { sh with lateTx := some { tx with k := tx.k + 1 } }).offer .lateSummary := by
  unfold State.lateSummarySent
  rw [htx]
  dsimp only
  rw [if_pos ⟨rfl, rfl⟩, SumTx.next_some h]
  rfl

theorem State.lateSummarySent_last {tx : SumTx} (htx : s.shift.lateTx = some tx) (h : tx.parts.length ≤ tx.k + 1) :
    s.lateSummarySent tx.gen tx.k = s.onShift fun sh => { sh with lateTx := none } := by
  unfold State.lateSummarySent
  rw [htx]
  dsimp only
  rw [if_pos ⟨rfl, rfl⟩, SumTx.next_none h]
  rfl

theorem State.partSent_next {sv : Serve} {p : List Byte} (hsv : s.print.serve = some sv)
    (h : sv.parts[sv.k + 1]? = some p) : s.partSent sv.gen sv.k
      = (s.onPrint fun pr => { pr with serve := some { sv with k := sv.k + 1 } }).offer .recordPart := by
  unfold State.partSent
  rw [hsv]
  dsimp only
  rw [if_pos ⟨rfl, rfl⟩, if_pos (List.getElem?_eq_some_iff.1 h).1]

theorem State.partSent_last {sv : Serve} (hsv : s.print.serve = some sv) (h : sv.parts.length ≤ sv.k + 1) :
    s.partSent sv.gen sv.k = s.onPrint fun pr => { pr with serve := none } := by
  unfold State.partSent
  rw [hsv]
  dsimp only
  rw [if_pos ⟨rfl, rfl⟩, if_neg (Nat.not_lt.2 h)]

/-- A part of a summary is queued, or held for the next slot end. -/
theorem State.tryOffer_summary {tx : SumTx} {p : SummaryPart} (htx : s.shift.tx = some tx) (h : tx.parts[tx.k]? = some p) :
    ∃ held, (s.tryOffer .summary).shift.tx = some (tx.holding held)
      ∧ (s.tryOffer .summary).Offered (held = true) 5 (encSummary false p) := by
  have hoff : s.offered .summary = some (encSummary false p, .summary tx.gen tx.k) := by
    show s.shift.tx.bind _ = _
    rw [htx, Option.bind_some, h]
    rfl
  obtain ⟨l, ht, hl⟩ | ht := State.tryOffer_new hoff rfl <;> rw [ht]
  · exact ⟨false, congrArg (Option.map (SumTx.holding false)) htx, Or.inr hl⟩
  · exact ⟨true, congrArg (Option.map (SumTx.holding true)) htx, Or.inl rfl⟩

theorem State.tryOffer_lateSummary {tx : SumTx} {p : SummaryPart} (htx : s.shift.lateTx = some tx)
    (h : tx.parts[tx.k]? = some p) :
    ∃ held, (s.tryOffer .lateSummary).shift.lateTx = some (tx.holding held)
      ∧ (s.tryOffer .lateSummary).Offered (held = true) 5 (encSummary true p) := by
  have hoff : s.offered .lateSummary = some (encSummary true p, .lateSummary tx.gen tx.k) := by
    show s.shift.lateTx.bind _ = _
    rw [htx, Option.bind_some, h]
    rfl
  obtain ⟨l, ht, hl⟩ | ht := State.tryOffer_new hoff rfl <;> rw [ht]
  · exact ⟨false, congrArg (Option.map (SumTx.holding false)) htx, Or.inr hl⟩
  · exact ⟨true, congrArg (Option.map (SumTx.holding true)) htx, Or.inl rfl⟩

theorem State.tryOffer_recordPart {sv : Serve} {p : List Byte} (hsv : s.print.serve = some sv)
    (h : sv.parts[sv.k]? = some p) :
    ∃ held, (s.tryOffer .recordPart).print.serve = some (sv.holding held)
      ∧ (s.tryOffer .recordPart).Offered (held = true) 7 (encRecordPart sv.k sv.parts.length sv.hireNo p) := by
  have hoff : s.offered .recordPart = some (encRecordPart sv.k sv.parts.length sv.hireNo p, .recordPart sv.gen sv.k) := by
    show s.print.serve.map _ = _
    rw [hsv, Option.map_some, List.getD_eq_getElem?_getD, h]
    rfl
  obtain ⟨l, ht, hl⟩ | ht := State.tryOffer_new hoff rfl <;> rw [ht]
  · exact ⟨false, congrArg (Option.map (Serve.holding false)) hsv, Or.inr hl⟩
  · exact ⟨true, congrArg (Option.map (Serve.holding true)) hsv, Or.inl rfl⟩

/-- After the sent report of a part the transmission is over, or its next part is queued or held (R161). -/
theorem State.summarySent_ends (hq : s.Quiet) {tx : SumTx} (htx : s.shift.tx = some tx) :
    (tx.parts.length ≤ tx.k + 1 → (s.summarySent tx.gen tx.k).settleEvent.shift.tx = none
        ∧ (s.summarySent tx.gen tx.k).settleEvent.link = s.link)
      ∧ ∀ p, tx.parts[tx.k + 1]? = some p → ∃ held,
        (s.summarySent tx.gen tx.k).settleEvent.shift.tx = some { tx with k := tx.k + 1, held := held }
          ∧ (s.summarySent tx.gen tx.k).settleEvent.Offered (held = true) 5 (encSummary false p) := by
  refine ⟨fun hlast => ?_, fun p hp => ?_⟩
  · have hquiet : (s.onShift fun b => { b with tx := none }).Quiet := hq.of_same rfl rfl rfl rfl
    rw [State.summarySent_last htx hlast, State.settleEvent_quiet hquiet, (State.signUpdate_blocks _).2.2.2.1,
      (State.signUpdate_blocks _).2.1]
    exact ⟨rfl, rfl⟩
  · have hquiet : (s.onShift fun b => { b with tx := some { tx with k := tx.k + 1 } }).Quiet := hq.of_same rfl rfl rfl rfl
    obtain ⟨held, hheld, hoffered⟩ := State.tryOffer_summary
      (s := s.onShift fun b => { b with tx := some { tx with k := tx.k + 1 } }) rfl hp
    refine ⟨held, ?_⟩
    unfold State.Offered
    rw [State.summarySent_next htx hp, State.settleEvent_offer hquiet, (State.signUpdate_blocks _).2.2.2.1,
      (State.signUpdate_blocks _).2.1]
    exact ⟨hheld, hoffered⟩

/-- After the sent report of a part the transmission is over, or its next part is queued or held (R161). -/
theorem State.lateSummarySent_ends (hq : s.Quiet) {tx : SumTx} (htx : s.shift.lateTx = some tx) :
    (tx.parts.length ≤ tx.k + 1 → (s.lateSummarySent tx.gen tx.k).settleEvent.shift.lateTx = none
        ∧ (s.lateSummarySent tx.gen tx.k).settleEvent.link = s.link)
      ∧ ∀ p, tx.parts[tx.k + 1]? = some p → ∃ held,
        (s.lateSummarySent tx.gen tx.k).settleEvent.shift.lateTx = some { tx with k := tx.k + 1, held := held }
          ∧ (s.lateSummarySent tx.gen tx.k).settleEvent.Offered (held = true) 5 (encSummary true p) := by
  refine ⟨fun hlast => ?_, fun p hp => ?_⟩
  · have hquiet : (s.onShift fun b => { b with lateTx := none }).Quiet := hq.of_same rfl rfl rfl rfl
    rw [State.lateSummarySent_last htx hlast, State.settleEvent_quiet hquiet, (State.signUpdate_blocks _).2.2.2.1,
      (State.signUpdate_blocks _).2.1]
    exact ⟨rfl, rfl⟩
  · have hquiet : (s.onShift fun b => { b with lateTx := some { tx with k := tx.k + 1 } }).Quiet := hq.of_same rfl rfl rfl rfl
    obtain ⟨held, hheld, hoffered⟩ := State.tryOffer_lateSummary
      (s := s.onShift fun b => { b with lateTx := some { tx with k := tx.k + 1 } }) rfl hp
    refine ⟨held, ?_⟩
    unfold State.Offered
    rw [State.lateSummarySent_next htx hp, State.settleEvent_offer hquiet, (State.signUpdate_blocks _).2.2.2.1,
      (State.signUpdate_blocks _).2.1]
    exact ⟨hheld, hoffered⟩

/-- After the sent report of a part the transmission is over, or its next part is queued or held (R186). -/
theorem State.partSent_ends (hq : s.Quiet) {sv : Serve} (hsv : s.print.serve = some sv) :
    (sv.parts.length ≤ sv.k + 1 → (s.partSent sv.gen sv.k).settleEvent.print.serve = none
        ∧ (s.partSent sv.gen sv.k).settleEvent.link = s.link)
      ∧ ∀ p, sv.parts[sv.k + 1]? = some p → ∃ held,
        (s.partSent sv.gen sv.k).settleEvent.print.serve = some { sv with k := sv.k + 1, held := held }
          ∧ (s.partSent sv.gen sv.k).settleEvent.Offered (held = true) 7
            (encRecordPart (sv.k + 1) sv.parts.length sv.hireNo p) := by
  refine ⟨fun hlast => ?_, fun p hp => ?_⟩
  · have hquiet : (s.onPrint fun b => { b with serve := none }).Quiet := hq.of_same rfl rfl rfl rfl
    rw [State.partSent_last hsv hlast, State.settleEvent_quiet hquiet, (State.signUpdate_blocks _).2.2.2.2.2.1,
      (State.signUpdate_blocks _).2.1]
    exact ⟨rfl, rfl⟩
  · have hquiet : (s.onPrint fun b => { b with serve := some { sv with k := sv.k + 1 } }).Quiet := hq.of_same rfl rfl rfl rfl
    obtain ⟨held, hheld, hoffered⟩ := State.tryOffer_recordPart
      (s := s.onPrint fun b => { b with serve := some { sv with k := sv.k + 1 } }) rfl hp
    refine ⟨held, ?_⟩
    unfold State.Offered
    rw [State.partSent_next hsv hp, State.settleEvent_offer hquiet, (State.signUpdate_blocks _).2.2.2.2.2.1,
      (State.signUpdate_blocks _).2.1]
    exact ⟨hheld, hoffered⟩

end

/-! ### The statement -/

section
variable {s : State} {e : Entry} (hr : s.supply.running = true)
  (he : s.link.queue.find? (·.begun) = some e) (hrepl : ∀ r, s.link.repl = some r → r.refresh = true)
include hr he hrepl

/-- A sent report that offers nothing, after which nothing else is due. -/
theorem frameSent_quiet {t : State} (h : (s.frameGone e).sentReport e.tag = t) (ht : t.Quiet) :
    exec .frameSent s = .next t.signUpdate := by
  rw [exec_frameSent]
  exact event_quiet hr ((State.takeSent_reported he hrepl).trans h) ht

/-- A sent report that nothing waits for. -/
theorem frameSent_unreported (hq : s.Quiet) (h : (s.frameGone e).sentReport e.tag = s.frameGone e) :
    exec .frameSent s = .next (s.frameGone e).signUpdate :=
  frameSent_quiet hr he hrepl h (hq.frameGone e)

end

/-- Settles O28. -/
theorem sentFrameLeavesTheQueueAndIsReported : Obligations.SentFrameLeavesTheQueueAndIsReported := by
  intro s e hr hq he u hu
  obtain rfl : u = s.frameGone e := hu
  have hgone := hq.frameGone e
  refine ⟨fun r hrepl hnew htag => ?_, fun hrepl => ⟨fun htag => ?_, fun c hslot htag hsent h0 => ?_,
    fun c hslot htag hsent h0 => ?_, fun id htag hother => ?_, fun a p htag hp hclaim => ?_, fun a seq htag hother => ?_,
    fun htag hother => ?_, fun tr htr htag hst => ?_, fun htag hcol hnone hany => ?_,
    fun rows hrows htag hcol hnone hall => ?_, fun tx htx htag => ?_, fun tx htx htag => ?_, fun sv hsv htag => ?_⟩⟩
  · rw [exec_frameSent]
    refine event_quiet hr ((State.takeSent_replaced he hrepl hnew).trans ?_) (hgone.of_same rfl rfl rfl rfl)
    obtain htag | htag := htag <;> rw [htag] <;> rfl
  · refine frameSent_unreported hr he hrepl hq ?_
    obtain h | ⟨a, h⟩ | h | h | h | h | h := htag <;> rw [h] <;> rfl
  · refine frameSent_quiet hr he hrepl ?_ ⟨hq.1, Or.inr (Or.inl Slot.noConfusion)⟩
    have hcon : ¬ (s.frameGone e).isConsole = true := fun h => h0 (s.isConsole_iff.1 h)
    rw [htag]
    exact (State.claimSent_open (s := s.frameGone e) hslot hsent).trans (if_neg hcon)
  · have hcon : (s.frameGone e).isConsole = true := s.isConsole_iff.2 h0
    have hreport := (State.claimSent_open (s := s.frameGone e) hslot hsent).trans (if_pos hcon)
    rw [← State.sentReport, ← htag] at hreport
    obtain ⟨hhire, hlink, hoffers, hshift, hpay⟩ := State.markClaiming_blocks
      ((s.frameGone e).onHire fun h => { h with slot := .claiming { c with sent := true, window := some 3000 } }) 0 c.seq
    refine ⟨_, frameSent_quiet hr he hrepl hreport ⟨hoffers.trans hq.1, Or.inr (Or.inl ?_)⟩, ?_, ?_, ?_⟩
    · rw [hhire]
      exact Slot.noConfusion
    · rw [(State.signUpdate_blocks _).1, hhire]
      rfl
    · rw [(State.signUpdate_blocks _).2.1, hlink]
      rfl
    · rintro p kind party hp hcmd hseq
      rw [State.signUpdate_console, ← hseq]
      exact State.markClaiming_own hp hcmd
  · refine frameSent_unreported hr he hrepl hq ?_
    rw [htag]
    exact State.claimSent_other (s := s.frameGone e) hother
  · refine frameSent_quiet hr he hrepl ?_ (hgone.of_same rfl rfl rfl rfl)
    rw [htag]
    exact State.commandSent_open (s := s.frameGone e) hp hclaim
  · refine frameSent_unreported hr he hrepl hq ?_
    rw [htag]
    exact State.commandSent_other (s := s.frameGone e) hother
  · refine frameSent_unreported hr he hrepl hq ?_
    rw [htag]
    exact State.callSent_other (s := s.frameGone e) hother
  · refine frameSent_quiet hr he hrepl ?_ (hgone.of_same rfl rfl rfl rfl)
    rw [htag]
    exact State.querySent_open (s := s.frameGone e) htr hst
  · refine frameSent_quiet hr he hrepl ?_ (hgone.of_same rfl rfl rfl rfl)
    rw [htag]
    exact State.callSent_waits (s := s.frameGone e) hcol hnone hany
  · obtain rfl : rows = s.close.ownComplete := hrows
    have hsettled : s.close.ownComplete.toList.all (fun r => r.settled s.close.forced) = true := by
      refine (Quad.all_toList _ _).2 fun a => ?_
      have h := hall a
      simp only [CloseRow.settled, Bool.or_eq_true, Bool.and_eq_true, Bool.not_eq_true', beq_iff_eq]
      cases hexp : (s.close.ownComplete.get a).expected with
      | true => exact (h hexp).imp_left Or.inr
      | false => exact Or.inl (Or.inl rfl)
    have hreport : s.takeSent = (s.frameGone e).callTimed.closeDone := by
      rw [State.takeSent_reported he hrepl, htag]
      exact State.callSent_done (s := s.frameGone e) hcol hnone hsettled
    refine ⟨_, event_next hr, ?_⟩
    rw [hreport]
    exact State.closeDone_ends (s := (s.frameGone e).callTimed) hgone.2
  · have hreport : s.takeSent = (s.frameGone e).summarySent tx.gen tx.k := by
      rw [State.takeSent_reported he hrepl, htag]
      rfl
    obtain ⟨hlast, hnext⟩ := State.summarySent_ends hgone htx
    refine ⟨_, event_next hr, ?_⟩
    rw [hreport]
    exact ⟨hlast, fun p hp => (hnext p hp).imp fun _ h => h.imp_right fun h _ => h⟩
  · have hreport : s.takeSent = (s.frameGone e).lateSummarySent tx.gen tx.k := by
      rw [State.takeSent_reported he hrepl, htag]
      rfl
    obtain ⟨hlast, hnext⟩ := State.lateSummarySent_ends hgone htx
    refine ⟨_, event_next hr, ?_⟩
    rw [hreport]
    exact ⟨hlast, fun p hp => (hnext p hp).imp fun _ h => h.imp_right fun h _ => h⟩
  · have hreport : s.takeSent = (s.frameGone e).partSent sv.gen sv.k := by
      rw [State.takeSent_reported he hrepl, htag]
      rfl
    obtain ⟨hlast, hnext⟩ := State.partSent_ends hgone hsv
    refine ⟨_, event_next hr, ?_⟩
    rw [hreport]
    exact ⟨hlast, fun p hp => (hnext p hp).imp fun _ h => h.imp_right fun h _ => h⟩

end Sys2Proof.Machine
end

section
/-! PROOFS. The address clash (O30). -/
namespace Sys2Proof.Machine
open Sys2Proof

/-! ### The clash itself (R90, R91, R23, R104, R185) -/

/-- The hire controller after a clash: it waits for no frame and its open claim has ended (R91, R23). -/
def HireCtl.clashed (h : HireCtl) : HireCtl :=
  let h := { h with reply := none, event := none, objects := [], claimHeld := false }
  match h.slot with
  | .claiming _ => { h with slot := .free, resume := none }
  | _ => h

/-- The record transfer after a clash: one that was open is unavailable (R185). -/
def Transfer.lost (t : Transfer) : Transfer :=
  if t.st = .opened then { t with st := .unavailable, limit := none, queryHeld := false } else t

/-- The station after a clash, with this console and this intercom, before the clash counts as a sent SHIFT_CALL. -/
def State.clashedWith (s : State) (c : Console) (i : Intercom) : State := { s with
  link := { s.link with queue := [], repl := none, clash := true, pause := none, fairness := 0 }
  hire := s.hire.clashed
  intercom := i
  shift := { s.shift with held := [], tx := none, lateTx := none }
  print := { s.print with serve := none, transfer := s.print.transfer.map Transfer.lost }
  distress := { s.distress with period := none }
  console := c }

theorem State.loseTransfer_eq (s : State) :
    s.loseTransfer = { s with print := { s.print with transfer := s.print.transfer.map Transfer.lost } } := by
  have hsame : ∀ tr, s.print.transfer = tr → s = { s with print := { s.print with transfer := tr } } := by
    rintro _ rfl
    rfl
  unfold State.loseTransfer
  cases htr : s.print.transfer with
  | none => exact hsame none htr
  | some t =>
    rw [Option.map_some, Transfer.lost]
    dsimp only
    split
    · unfold State.endTransfer State.onPrint
      dsimp only
      rw [htr]
      rfl
    · exact hsame _ htr

/-- A reply to a local command that is pending is shown and the command gone (R174). -/
theorem State.consoleReply_answers {s : State} {p : PendCmd} (h : s.console.cmds.get 0 = some p) (r : Reply) :
    (s.consoleReply 0 p.seq r).console.cmds.get 0 = none
      ∧ (s.consoleReply 0 p.seq r).console.lastReply.get 0 = some (.reply r) := by
  unfold State.consoleReply
  rw [h]
  dsimp only
  rw [if_pos rfl]
  split
  · rw [(State.leaveTalk_other _ _).2.2]
    exact ⟨Quad.get_set_same s.console.cmds 0 _, Quad.get_set_same s.console.lastReply 0 _⟩
  · exact ⟨Quad.get_set_same s.console.cmds 0 _, Quad.get_set_same s.console.lastReply 0 _⟩

theorem State.leaveTalk_intercom (s : State) (a : Addr) :
    ∃ i, s.leaveTalk a = { s with intercom := i } ∧ i.events = s.intercom.events := by
  unfold State.leaveTalk
  split
  · exact ⟨_, rfl, rfl⟩
  · exact ⟨s.intercom, rfl, rfl⟩

theorem State.consoleReply_form (s : State) (a : Addr) (seq : Nat) (r : Reply) :
    ∃ c i, s.consoleReply a seq r = { s with console := c, intercom := i } ∧ i.events = s.intercom.events := by
  unfold State.consoleReply
  split
  · split
    · dsimp only
      split
      · obtain ⟨i, hi, hevents⟩ := State.leaveTalk_intercom _ a
        rw [hi]
        exact ⟨_, i, rfl, hevents⟩
      · exact ⟨_, s.intercom, rfl, rfl⟩
    · exact ⟨s.console, s.intercom, rfl, rfl⟩
  · exact ⟨s.console, s.intercom, rfl, rfl⟩

/-- A LINK_SILENT station refuses an open claim's HIRE at its own console alone (R23, R91). -/
theorem State.silenceClaim_form {s : State} (h : s.silent = true) :
    ∃ c i, s.silenceClaim = { s with
        hire := match s.hire.slot with
          | .claiming _ => { s.hire with slot := .free, claimHeld := false, objects := [], resume := none }
          | _ => s.hire
        console := c, intercom := i }
      ∧ i.events = s.intercom.events := by
  unfold State.silenceClaim
  split
  · next c hslot =>
    unfold State.endClaim State.refuse State.replyTo
    cases c.src with
    | localKey =>
      obtain ⟨c', i, hform, hevents⟩ := s.freeSlot.consoleReply_form 0 c.seq (.refused .linkSilent)
      rw [hslot]
      exact ⟨c', i, hform, hevents⟩
    | frame a b =>
      dsimp only
      rw [if_pos (show s.freeSlot.silent = true from h), hslot]
      exact ⟨s.console, s.intercom, rfl, rfl⟩
  all_goals
    next hslot =>
      rw [hslot]
      exact ⟨s.console, s.intercom, rfl, rfl⟩

/-- The console of a station whose claim a clash has ended. -/
def State.clashConsole (s : State) : Console := s.heardFrame.silenceLink.silenceClaim.console

/-- A clash, taken whole (R90, R91). -/
theorem State.clashNow_eq {s : State} (h : s.silent = false) :
    ∃ i, s.heardFrame.clashNow = (s.clashedWith s.clashConsole i).callSent ∧ i.events = [] := by
  obtain ⟨c, i, hform, hevents⟩ := State.silenceClaim_form (s := s.heardFrame.silenceLink) rfl
  have hc : s.clashConsole = c := by
    unfold State.clashConsole
    rw [hform]
  refine ⟨i, ?_, hevents⟩
  unfold State.clashNow
  rw [if_neg (fun hno : s.heardFrame.silent = true => Bool.false_ne_true (h.symm.trans hno)), State.loseTransfer_eq, hform,
    hc]
  unfold State.clashedWith HireCtl.clashed
  rfl

/-- What the clash's sent report of a SHIFT_CALL can change: the close, the shift's totals and the print jobs (R159, R162). -/
theorem State.callSent_form {s : State} (h : s.silent = true) : ∃ c sh js,
    s.callSent = { s with close := c, shift := sh, print := { s.print with jobs := js } } ∧ sh.held = s.shift.held
      ∧ sh.tx = s.shift.tx ∧ sh.lateTx = s.shift.lateTx ∧ sh.pendingLate = s.shift.pendingLate := by
  by_cases hdue : s.close.state = .collecting ∧ s.close.collect = none
  · obtain ⟨hcol, hnone⟩ := hdue
    cases hall : s.close.ownComplete.toList.all (fun r => r.settled s.close.forced) with
    | true =>
      have hsilent : s.callTimed.silent = true := h
      have hheld : s.callTimed.shiftDone.held = s.shift.held := if_pos hsilent
      rw [State.callSent_done hcol hnone hall, State.closeDone_eq, if_pos hsilent]
      cases s.callTimed.print.full with
      | true => exact ⟨_, s.callTimed.shiftDone, s.print.jobs, rfl, hheld, rfl, rfl, rfl⟩
      | false => exact ⟨_, s.callTimed.shiftDone, s.print.jobs ++ [.vehicleReport], rfl, hheld, rfl, rfl, rfl⟩
    | false =>
      refine ⟨_, s.shift, s.print.jobs, State.callSent_waits hcol hnone ?_, rfl, rfl, rfl, rfl⟩
      rw [← List.not_all_eq_any_not, hall]
      rfl
  · refine ⟨s.close, s.shift, s.print.jobs, State.callSent_other ?_, rfl, rfl, rfl, rfl⟩
    exact not_and_or.1 hdue

/-! ### The end of an event of a LINK_SILENT station (R91) -/

theorem State.tryOffer_silent {s : State} (h : s.silent = true) (o : Offer) :
    s.tryOffer o = s ∨ s.tryOffer o = s.offerRefused o := by
  obtain ⟨-, ht⟩ | ⟨payload, tag, -, ⟨l, hl, -⟩ | ⟨-, ht⟩⟩ := s.tryOffer_cases o
  · exact Or.inl ht
  · rw [Link.offer_clashed s.now payload tag h] at hl
    cases hl
  · exact Or.inr ht

/-- `u` is `s` but for what refused offers and a late close can change: nothing on the link, and no frame waits for it that did not
wait before. -/
structure State.Silenced (s u : State) : Prop where
  link   : u.link = s.link
  hire   : ∃ n, u.hire = { s.hire with nextNo := n }
  events : u.intercom.events = s.intercom.events
  held   : u.shift.held = s.shift.held
  tx     : s.shift.tx = none → u.shift.tx = none
  late   : s.shift.pendingLate = none → s.shift.lateTx = none → u.shift.lateTx = none
  serve  : s.print.serve = none → u.print.serve = none

theorem State.Silenced.offerRefused {s u : State} (h : s.Silenced u) (o : Offer) : s.Silenced (u.offerRefused o) := by
  obtain ⟨hlink, hhire, hevents, hheld, htx, hlate, hserve⟩ := h
  have hmap : ∀ {α : Type} {x : Option α} (f : α → α), x = none → x.map f = none := by
    rintro α _ f rfl
    rfl
  cases o with
  | command a =>
    unfold State.offerRefused
    dsimp only
    split <;> exact ⟨hlink, hhire, hevents, hheld, htx, hlate, hserve⟩
  | summary => exact ⟨hlink, hhire, hevents, hheld, fun hn => hmap _ (htx hn), hlate, hserve⟩
  | lateSummary => exact ⟨hlink, hhire, hevents, hheld, htx, fun hp hn => hmap _ (hlate hp hn), hserve⟩
  | recordPart => exact ⟨hlink, hhire, hevents, hheld, htx, hlate, fun hn => hmap _ (hserve hn)⟩
  | _ => exact ⟨hlink, hhire, hevents, hheld, htx, hlate, hserve⟩

theorem State.lateCloseIfDue_silenced (s : State) : s.Silenced s.lateCloseIfDue := by
  by_cases hnone : s.shift.pendingLate = none
  · rw [State.lateCloseIfDue_none s hnone]
    exact ⟨rfl, ⟨_, rfl⟩, rfl, rfl, id, fun _ => id, id⟩
  · obtain ⟨sh, os, n, h⟩ := s.lateCloseIfDue_form hnone
    have hshift : s.lateCloseIfDue.shift.held = s.shift.held ∧ s.lateCloseIfDue.shift.tx = s.shift.tx := by
      unfold State.lateCloseIfDue State.startLateSummary
      repeat' split
      all_goals exact ⟨rfl, rfl⟩
    obtain ⟨hheld, htx⟩ := hshift
    refine ⟨?_, ⟨n, ?_⟩, ?_, hheld, htx.trans, fun hp => absurd hp hnone, ?_⟩ <;> rw [h]
    exact id

/-- A LINK_SILENT station's event ends with nothing on the link changed, whatever it offers. -/
theorem State.settleEvent_silenced {s : State} (h : s.silent = true) : s.Silenced s.settleEvent := by
  have hflush : s.Silenced s.lateCloseIfDue.flushOffers := by
    refine flush_keeps (P := s.Silenced) (fun u o hu => ?_) (fun _ _ _ hu => ⟨hu.link, hu.hire, hu.events, hu.held, hu.tx,
      hu.late, hu.serve⟩) s.lateCloseIfDue_silenced
    have hsilent : u.silent = true := by
      unfold State.silent
      rw [hu.link]
      exact h
    obtain ht | ht := State.tryOffer_silent hsilent o <;> rw [ht]
    · exact hu
    · exact hu.offerRefused o
  obtain ⟨hlink, hhire, hevents, hheld, htx, hlate, hserve⟩ := hflush
  obtain ⟨hh, hl, hi, hsh, -, hp, -⟩ := s.lateCloseIfDue.flushOffers.signUpdate_blocks
  unfold State.settleEvent
  constructor
  · rw [hl]
    exact hlink
  · rw [hh]
    exact hhire
  · rw [hi]
    exact hevents
  · rw [hsh]
    exact hheld
  · rw [hsh]
    exact htx
  · rw [hsh]
    exact hlate
  · rw [hp]
    exact hserve

/-- Only the offer of a RECORD_QUERY touches the transfer (R185). -/
theorem State.settleEvent_transfer {s : State} (h : .recordQuery ∉ s.offers) :
    s.settleEvent.print.transfer = s.print.transfer := by
  have hlate : .recordQuery ∉ s.lateCloseIfDue.offers := fun hno =>
    (s.lateCloseIfDue_offers _ hno).elim h Offer.noConfusion
  unfold State.settleEvent
  rw [(State.signUpdate_blocks _).2.2.2.2.2.1]
  refine (flush_tracks
    (P := fun (os : List Offer) (u : State) => .recordQuery ∉ os ∧ u.print.transfer = s.print.transfer) ?_
    (fun _ _ _ _ hP => hP) ⟨hlate, ?_⟩).2
  · rintro os o os' u ⟨hos, hu⟩
    refine ⟨fun hno => hos (mem_of_mem_without hno), ?_⟩
    have hne : o ≠ .recordQuery := by
      rintro rfl
      exact hos (List.mem_append_right _ List.mem_cons_self)
    obtain ⟨-, ht⟩ | ⟨payload, tag, -, ⟨l, -, ht⟩ | ⟨-, ht⟩⟩ := u.tryOffer_cases o <;> rw [ht, ← hu]
    · cases o with
      | hireEvent =>
        obtain ⟨p, l', ht'⟩ := (u.onLink fun _ => l).offerTaken_hireEvent
        rw [ht']
        rfl
      | recordQuery => exact absurd rfl hne
      | _ => rfl
    · cases o with
      | command a =>
        obtain ⟨i, hc⟩ := u.offerRefused_command a
        rw [hc]
      | recordQuery => exact absurd rfl hne
      | _ => rfl
  · obtain ⟨sh, os, n, hform⟩ := s.lateCloseIfDue_form'
    rw [hform]

/-! ### A frame with the own address (R76, R90) -/

theorem exec_addressClash (s : State) : exec .addressClash s = event (fun s => s.hear s.addr fun t => t) s := rfl

theorem event_congr {f g : State → State} {s : State} (h : f s = g s) : event f s = event g s := by
  unfold event
  rw [h]

/-- A frame with the own address goes to no block: what the block would do does not matter. -/
theorem State.hear_own (s : State) (f g : State → State) : s.hear s.addr f = s.hear s.addr g := by
  unfold State.hear
  rw [if_pos rfl, if_pos rfl]

theorem exec_distressFrame (a : Addr) (time no : Nat) (s : State) : exec (.distressFrame a time no) s
    = event (fun s => if a = 0 then s.hear 0 fun t => t else s.cutPause) s := rfl

/-- Every frame is heard from its sender before a block takes it. -/
theorem exec_of_frameSender {c : Instr} {a : Addr} (h : c.frameSender = some a) :
    ∃ f, ∀ s, exec c s = event (fun s => s.hear a f) s := by
  unfold Instr.frameSender at h
  split at h
  case h_29 =>
    split at h
    · next h0 =>
      cases h
      refine ⟨fun t => t, fun s => ?_⟩
      rw [exec_distressFrame]
      exact event_congr (if_pos h0)
    · cases h
  case h_39 => cases h
  all_goals
    cases h
    exact ⟨_, fun _ => rfl⟩

theorem State.hear_clash {s : State} (hsync : s.link.synced = true) : s.hear s.addr (fun t => t) = s.heardFrame.clashNow := by
  unfold State.hear
  rw [if_pos hsync, if_pos rfl]

/-! ### The station after a clash -/

section
variable {s : State} {i : Intercom}

/-- The console of a station with its own HIRE refused by the clash (R23). -/
theorem State.clashConsole_answers {c : Claim} (hslot : s.hire.slot = .claiming c) (hsrc : c.src = .localKey) {p : PendCmd}
    (hp : s.console.cmds.get 0 = some p) (hseq : p.seq = c.seq) :
    s.clashConsole.cmds.get 0 = none ∧ s.clashConsole.lastReply.get 0 = some (.reply (.refused .linkSilent)) := by
  have hclaim : s.heardFrame.silenceLink.silenceClaim
      = s.heardFrame.silenceLink.freeSlot.consoleReply 0 p.seq (.refused .linkSilent) := by
    unfold State.silenceClaim
    rw [show s.heardFrame.silenceLink.hire.slot = .claiming c from hslot]
    unfold State.endClaim State.refuse
    dsimp only
    rw [hsrc, hseq]
    rfl
  unfold State.clashConsole
  rw [hclaim]
  exact State.consoleReply_answers (s := s.heardFrame.silenceLink.freeSlot) hp _

theorem HireCtl.clashed_slot (h : HireCtl) :
    (∀ c, h.slot = .claiming c → h.clashed.slot = .free) ∧ ((∀ c, h.slot ≠ .claiming c) → h.clashed.slot = h.slot) := by
  unfold HireCtl.clashed
  dsimp only
  cases h.slot with
  | claiming c => exact ⟨fun _ _ => rfl, fun hno => absurd rfl (hno c)⟩
  | _ => exact ⟨fun _ hc => Slot.noConfusion hc, fun _ => rfl⟩

theorem HireCtl.clashed_waits (h : HireCtl) : h.clashed.reply = none ∧ h.clashed.event = none ∧ h.clashed.objects = []
    ∧ h.clashed.claimHeld = false ∧ h.clashed.log = h.log := by
  unfold HireCtl.clashed
  dsimp only
  split <;> exact ⟨rfl, rfl, rfl, rfl, rfl⟩

/-- The event of a clash: nothing on the link, and no block that holds a frame for it (R91, log entry 42). -/
theorem State.clashed_empties (hi : i.events = []) {t : State}
    (ht : t = (s.clashedWith s.clashConsole i).callSent.settleEvent) :
    t.link = { s.link with queue := [], repl := none, clash := true, pause := none, fairness := 0 }
      ∧ (t.hire.reply = none ∧ t.hire.event = none ∧ t.hire.objects = [] ∧ t.hire.claimHeld = false
        ∧ t.hire.log = s.hire.log)
      ∧ t.intercom.events = [] ∧ t.shift.held = [] ∧ t.shift.tx = none ∧ t.print.serve = none
      ∧ (s.shift.pendingLate = none → t.shift.lateTx = none) := by
  obtain ⟨c, sh, js, hcall, hheld, htx, hlateTx, hpend⟩ := State.callSent_form (s := s.clashedWith s.clashConsole i) rfl
  have hsilenced := State.settleEvent_silenced (s := (s.clashedWith s.clashConsole i).callSent) (by rw [hcall]; rfl)
  rw [← ht, hcall] at hsilenced
  obtain ⟨hlink, ⟨n, hhire⟩, hevents, hheld', htx', hlate', hserve'⟩ := hsilenced
  refine ⟨hlink, ?_, hevents.trans hi, hheld'.trans hheld, htx' htx, hserve' rfl, fun hp => hlate' (hpend.trans hp) hlateTx⟩
  rw [hhire]
  exact s.hire.clashed_waits

/-- The event of a clash: what it leaves of the rest (R23, R104, R185). -/
theorem State.clashed_leaves {t : State} (ht : t = (s.clashedWith s.clashConsole i).callSent.settleEvent) :
    t.distress = { s.distress with period := none } ∧ t.peer.rows = s.peer.rows ∧ t.pay = s.pay
      ∧ t.hire.slot = s.hire.clashed.slot
      ∧ t.close = (s.clashedWith s.clashConsole i).callSent.close
      ∧ (s.offers = [] → t.print.transfer = s.print.transfer.map Transfer.lost)
      ∧ (s.clashConsole.cmds.get 0 = none → t.console.cmds.get 0 = none)
      ∧ t.console.lastReply = s.clashConsole.lastReply := by
  obtain ⟨c, sh, js, hcall, -⟩ := State.callSent_form (s := s.clashedWith s.clashConsole i) rfl
  have hkept := (s.clashedWith s.clashConsole i).callSent.settleEvent_kept
  have htransfer := State.settleEvent_transfer (s := (s.clashedWith s.clashConsole i).callSent)
  have hcmd := State.settleEvent_noCmd (s := (s.clashedWith s.clashConsole i).callSent) (t := 0)
  have hreply := State.settleEvent_lastReply (s.clashedWith s.clashConsole i).callSent
  rw [← ht, hcall] at hkept htransfer hcmd hreply
  refine ⟨hkept.distress, hkept.rows, hkept.pay, hkept.slot, ?_, fun ho => htransfer ?_, hcmd, hreply⟩
  · rw [hkept.close, hcall]
  · show Offer.recordQuery ∉ s.offers
    rw [ho]
    exact List.not_mem_nil

end

/-- Settles O30. -/
theorem clashSilencesTheStation : Obligations.ClashSilencesTheStation := by
  intro s hr
  refine ⟨fun hsync hawake => ?_, fun hsilent hsync hq => ?_, fun hsync hq => ?_, fun c hc => ?_⟩
  · obtain ⟨i, hclash, hi⟩ := State.clashNow_eq hawake
    have hnext : exec .addressClash s = .next (s.clashedWith s.clashConsole i).callSent.settleEvent := by
      rw [exec_addressClash, event_next hr, State.hear_clash hsync, hclash]
    obtain ⟨hlink, ⟨hreply, hevent, hobjects, hclaimHeld, hlog⟩, hevents, hheld, htx, hserve, hlate⟩ :=
      State.clashed_empties (s := s) hi rfl
    obtain ⟨hdistress, hrows, hpay, hslot, hclose, htransfer, hcmds, hlast⟩ := State.clashed_leaves (s := s) (i := i) rfl
    refine ⟨_, hnext, ?_, ?_, ?_, ?_, ?_, hreply, hevent, hobjects, hclaimHeld, hlog, hevents, hheld,
      fun _ => ⟨htx, hserve, hlate⟩, hdistress, hrows, hpay, fun c hc => ⟨?_, fun hsrc => ?_⟩, fun hno => ?_,
      fun tr ho htr hst => ?_, ?_⟩
    · unfold State.silent
      rw [hlink]
    · rw [hlink]
    · rw [hlink]
    · rw [hlink]
    · rw [hlink]
    · rw [hslot]
      exact s.hire.clashed_slot.1 c hc
    · intro p hp hseq
      obtain ⟨hgone, hshown⟩ := State.clashConsole_answers hc hsrc hp hseq
      rw [hlast]
      exact ⟨hcmds hgone, hshown⟩
    · rw [hslot]
      exact s.hire.clashed_slot.2 hno
    · rw [htransfer ho, htr, Option.map_some, Transfer.lost, if_pos hst]
    · rintro rows rfl hcol hnone
      refine ⟨fun hany => ?_, fun hall hpend => ?_⟩
      · rw [hclose, State.callSent_waits (s := s.clashedWith s.clashConsole i) hcol hnone hany]
        rfl
      · have hdone := State.closeDone_ends (s := (s.clashedWith s.clashConsole i).callTimed) (Or.inl hpend)
        rw [← State.callSent_done (s := s.clashedWith s.clashConsole i) hcol hnone hall] at hdone
        obtain ⟨hstate, hrows', hcollect, hzero, hoff, hacc, -⟩ := hdone
        exact ⟨hstate, hrows', hcollect, hoff, hacc, hzero⟩
  · rw [exec_addressClash]
    refine event_quiet hr ((State.hear_clash hsync).trans ?_) (hq.of_same rfl rfl rfl rfl)
    exact if_pos hsilent
  · rw [exec_addressClash]
    refine event_quiet hr ?_ hq
    exact if_neg fun hno => Bool.false_ne_true (hsync.symm.trans hno)
  · obtain ⟨f, hf⟩ := exec_of_frameSender hc
    rw [hf, exec_addressClash]
    exact event_congr (s.hear_own f _)

end Sys2Proof.Machine
end

section
/-! PROOFS. Frames are read back as they were sent (O7). -/
namespace Sys2Proof.Machine
open Sys2Proof

/-! ### Bytes and numbers -/

theorem u8_toNat (n : Nat) : (u8 n).toNat = n % 256 := BitVec.toNat_ofNat n 8

theorem u8_toNat_of_lt {n : Nat} (h : n < 256) : (u8 n).toNat = n := (u8_toNat n).trans (Nat.mod_eq_of_lt h)

theorem u8_addr (a : Addr) : (u8 a.val).toNat = a.val := u8_toNat_of_lt (by omega)

theorem beNat_be16 {n : Nat} (h : n < 65536) : beNat (be16 n) = n := by
  simp only [be16, beNat, List.foldl_cons, List.foldl_nil, u8_toNat]
  omega

theorem beNat_be24 {n : Nat} (h : n < 16777216) : beNat (be24 n) = n := by
  simp only [be24, beNat, List.foldl_cons, List.foldl_nil, u8_toNat]
  omega

theorem beNat_be32 {n : Nat} (h : n < 4294967296) : beNat (be32 n) = n := by
  simp only [be32, beNat, List.foldl_cons, List.foldl_nil, u8_toNat]
  omega

/-- A number of two bytes, put together from them as the layouts do. -/
theorem read_be16 {n : Nat} (h : n < 65536) : 256 * (u8 (n / 256)).toNat + (u8 n).toNat = n := by
  simp only [u8_toNat]
  omega

theorem read_be24 {n : Nat} (h : n < 16777216) :
    65536 * (u8 (n / 65536)).toNat + 256 * (u8 (n / 256)).toNat + (u8 n).toNat = n := by
  simp only [u8_toNat]
  omega

theorem bitNat_le (b : Bool) : bitNat b ≤ 1 := by cases b <;> decide

theorem bitNat_beq (b : Bool) : (bitNat b == 1) = b := by cases b <;> rfl

theorem bitNat_eq_one_iff (b : Bool) : bitNat b = 1 ↔ b = true := by cases b <;> decide

/-! ### Decimal numbers (Table 12-2) -/

theorem decimalDigits_length (w n : Nat) : (decimalDigits w n).length = w := by
  induction w generalizing n with
  | zero => rfl
  | succ w ih => rw [decimalDigits, List.length_append, ih, List.length_singleton]

theorem decimalDigits_lt (w n : Nat) : ∀ d ∈ decimalDigits w n, d < 10 := by
  induction w generalizing n with
  | zero => exact fun _ h => absurd h List.not_mem_nil
  | succ w ih =>
    intro d hd
    obtain hd | hd := List.mem_append.1 hd
    · exact ih _ d hd
    · rw [List.mem_singleton.1 hd]
      exact Nat.mod_lt _ (by decide)

theorem digitsValue_concat (ds : List Nat) (d : Nat) : digitsValue (ds ++ [d]) = 10 * digitsValue ds + d := by
  rw [digitsValue, List.foldl_append]
  rfl

theorem digitsValue_decimalDigits (w n : Nat) (h : n < 10 ^ w) : digitsValue (decimalDigits w n) = n := by
  induction w generalizing n with
  | zero =>
    rw [Nat.pow_zero] at h
    exact (Nat.lt_one_iff.1 h).symm
  | succ w ih =>
    rw [Nat.pow_succ] at h
    rw [decimalDigits, digitsValue_concat, ih _ (by omega)]
    omega

theorem bcdDigits_bcdBytes : ∀ {ds : List Nat}, ds.length % 2 = 0 → (∀ d ∈ ds, d < 10) → bcdDigits (bcdBytes ds) = ds
  | [], _, _ => rfl
  | [_], heven, _ => absurd heven (by simp)
  | a :: b :: ds, heven, hlt => by
    have ha : a < 10 := hlt a List.mem_cons_self
    have hb : b < 10 := hlt b (List.mem_cons_of_mem _ List.mem_cons_self)
    have htail : bcdDigits (bcdBytes ds) = ds := by
      refine bcdDigits_bcdBytes ?_ fun d hd => hlt d (List.mem_cons_of_mem _ (List.mem_cons_of_mem _ hd))
      rw [List.length_cons, List.length_cons] at heven
      omega
    have hbyte : (u8 (16 * a + b)).toNat = 16 * a + b := u8_toNat_of_lt (by omega)
    show (u8 (16 * a + b)).toNat / 16 :: (u8 (16 * a + b)).toNat % 16 :: bcdDigits (bcdBytes ds) = _
    rw [hbyte, htail, show (16 * a + b) / 16 = a by omega, show (16 * a + b) % 16 = b by omega]

theorem account_read {n : Nat} (h : n < 10 ^ 8) : digitsValue (bcdDigits (bcdBytes (decimalDigits 8 n))) = n := by
  rw [bcdDigits_bcdBytes (by rw [decimalDigits_length]) (decimalDigits_lt 8 n), digitsValue_decimalDigits 8 n h]

/-! ### Codes (Tables 12-1, 12-2, 12-3) -/

theorem addrOf_val (a : Addr) : addrOf a.val = some a := dif_pos a.isLt

theorem kindOf_code (k : Kind) : kindOf k.code = some k := by cases k <;> rfl

theorem hireOutcomeOf_code (o : HireOutcome) : hireOutcomeOf o.code = some o := by cases o <;> rfl

theorem replyOf_code (r : Reply) : replyOf r.code = some r := by
  cases r with
  | done => rfl
  | refused reason => cases reason <;> rfl

theorem Reply.code_lt (r : Reply) : r.code < 256 := by
  cases r with
  | done => decide
  | refused reason => cases reason <;> decide

theorem u8_kind (k : Kind) : (u8 k.code).toNat = k.code := by cases k <;> rfl

/-! ### A sent frame passes the receive checks (R74, R76) -/

theorem withCrc16_frame (key len : Byte) (p : List Byte) : withCrc16 (key :: len :: p)
    = key :: len :: (p ++ be16 (crc16 (key :: len :: p)).toNat) := rfl

theorem goodFrame_cabFrame {cls : Nat} (hcls : cls < 8) (a : Addr) {p : List Byte} (hlen : p.length ≤ 12) :
    goodFrame (cabFrame cls a p) = parseTargeted cls a p := by
  have hkey : (u8 (frameKey cls a)).toNat = 4 * cls + a.val := u8_toNat_of_lt (by unfold frameKey; omega)
  have hlength : (u8 p.length).toNat = p.length := u8_toNat_of_lt (by omega)
  have htail (n : Nat) : (p ++ be16 n).length = p.length + 2 := List.length_append
  unfold cabFrame
  rw [withCrc16_frame]
  unfold goodFrame
  dsimp only
  rw [hlength, List.take_left, if_pos ⟨by omega, hlen, htail _, withCrc16_frame _ _ _⟩, hkey,
    show (4 * cls + a.val) % 4 = a.val by omega, show (4 * cls + a.val) / 4 = cls by omega, addrOf_val]

section
variable (cls : Nat) (a : Addr) (p : List Byte) (hcls : cls < 8) (hlen : p.length ≤ 12)
include hcls hlen

theorem goodFrame_untargeted (h : targetIndex cls p = none) : goodFrame (cabFrame cls a p) = parsePayload cls a p := by
  rw [goodFrame_cabFrame hcls a hlen]
  unfold parseTargeted
  rw [h]

/-- A payload whose target byte names a station is read by its layout. -/
theorem goodFrame_targeted {i : Nat} (h : targetIndex cls p = some i) {target : Addr} (ht : p.getD i 0 = u8 target.val) :
    goodFrame (cabFrame cls a p) = parsePayload cls a p := by
  rw [goodFrame_cabFrame hcls a hlen]
  unfold parseTargeted
  rw [h]
  dsimp only
  rw [ht, u8_addr, if_neg (by omega)]

end

/-! ### CLAIM, OBJECT, COMMAND and REPLY -/

section
variable (a target : Addr)

theorem claim_read (kind : Kind) {party seq : Nat} (hparty : party < 256) (hseq : seq < 256) :
    goodFrame (cabFrame 1 a (encClaim kind party seq)) = some (.claimReceived a kind party seq) := by
  have hbytes : (encClaim kind party seq).map (·.toNat) = [1, kind.code, party, seq] := by
    simp only [encClaim, List.map_cons, List.map_nil, u8_toNat_of_lt hparty, u8_toNat_of_lt hseq, u8_kind]
    rfl
  rw [goodFrame_untargeted 1 a (encClaim kind party seq) (by decide) (Nat.le_of_ble_eq_true rfl) rfl]
  unfold parsePayload
  rw [hbytes]
  show (kindOf kind.code).map _ = _
  rw [kindOf_code]
  rfl

theorem object_read : goodFrame (cabFrame 1 a (encObject target)) = some (.objectReceived a target) := by
  have hbytes : (encObject target).map (·.toNat) = [2, target.val] := by
    simp only [encObject, List.map_cons, List.map_nil, u8_addr]
    rfl
  rw [goodFrame_targeted 1 a (encObject target) (by decide) (Nat.le_of_ble_eq_true rfl) (i := 1) rfl (target := target) rfl]
  unfold parsePayload
  rw [hbytes]
  show (addrOf target.val).map _ = _
  rw [addrOf_val]
  rfl

/-- The operands of a command as keys enter them, or of a command without operands, are read back (Table 12-2). -/
theorem parseCommand_enc {seq : Nat} (hseq : seq < 256) {cmd : Cmd} (h : cmd.wf = true ∨ cmd.code ≥ 16) :
    parseCommand a (encCommand target seq cmd) = some (cmd.fromFrame a target seq) := by
  have hhead : (encCommand target seq cmd).map (·.toNat) = (u8 cmd.code).toNat :: target.val :: seq
      :: cmd.operands.map (·.toNat) := by
    simp only [encCommand, List.map_append, List.map_cons, List.map_nil, u8_addr, u8_toNat_of_lt hseq]
    rfl
  unfold parseCommand
  rw [hhead]
  dsimp only
  rw [addrOf_val]
  dsimp only
  cases cmd with
  | hire kind party =>
    have hparty : party ≤ 9 := by simpa [Cmd.wf, Cmd.code] using h
    simp only [Cmd.operands, List.map_cons, List.map_nil, u8_kind, u8_toNat_of_lt (show party < 256 by omega)]
    show (kindOf kind.code).map _ = _
    rw [kindOf_code]
    rfl
  | extra code amount =>
    have hfits : (1 ≤ code ∧ code ≤ 8) ∧ amount ≤ 999999 := by simpa [Cmd.wf, Cmd.code] using h
    have hcode : (u8 code).toNat = code := u8_toNat_of_lt (by omega)
    have hamount := read_be24 (n := amount) (by omega)
    show some (Instr.extra _ seq _ _) = _
    simp only [hcode, hamount]
    rfl
  | payCash tendered =>
    have hfits : tendered ≤ 999999 := by simpa [Cmd.wf, Cmd.code] using h
    have htendered := read_be24 (n := tendered) (by omega)
    show some (Instr.payCash _ seq _) = _
    rw [htendered]
    rfl
  | payAccount digits number =>
    have hfits : (1 ≤ digits ∧ digits ≤ 8) ∧ number < 10 ^ digits := by simpa [Cmd.wf, Cmd.code] using h
    have hdigits : (u8 digits).toNat = digits := u8_toNat_of_lt (by omega)
    have hnumber : number < 10 ^ 8 := hfits.2.trans_le (Nat.pow_le_pow_right (by decide) hfits.1.2)
    show some (Instr.payAccount _ seq _ (digitsValue (bcdDigits (bcdBytes (decimalDigits 8 number))))) = _
    simp only [account_read hnumber, hdigits]
    rfl
  | _ => rfl

theorem command_read {seq : Nat} (hseq : seq < 256) {cmd : Cmd} (h : cmd.wf = true ∨ cmd.code ≥ 16) :
    goodFrame (cabFrame 2 a (encCommand target seq cmd)) = some (cmd.fromFrame a target seq) := by
  have hlen : (encCommand target seq cmd).length ≤ 12 := by
    have hops : cmd.operands.length ≤ 5 := by cases cmd <;> exact Nat.le_of_ble_eq_true rfl
    rw [encCommand, List.length_append]
    exact Nat.add_le_add_left (hops.trans (show 5 ≤ 9 by decide)) 3
  exact (goodFrame_targeted 2 a _ (by decide) hlen (i := 1) rfl (target := target) rfl).trans (parseCommand_enc a target hseq h)

theorem reply_read {seq : Nat} (hseq : seq < 256) (r : Reply) :
    goodFrame (cabFrame 3 a (encReply seq r)) = some (.replyReceived a 0 seq r) := by
  have hbytes : (encReply seq r).map (·.toNat) = [(0 : Addr).val, seq, r.code] := by
    simp only [encReply, List.map_cons, List.map_nil, u8_toNat_of_lt hseq, u8_toNat_of_lt (Reply.code_lt r)]
    rfl
  rw [goodFrame_targeted 3 a (encReply seq r) (by decide) (Nat.le_of_ble_eq_true rfl) (i := 0) rfl (target := 0) rfl]
  unfold parsePayload
  rw [hbytes]
  dsimp only
  rw [addrOf_val, replyOf_code]
  rfl

/-! ### Hire and intercom events -/

theorem hireStart_read {no : Nat} (hno : no < 65536) (kind : Kind) :
    goodFrame (cabFrame 4 a (encHireEvent (.start no kind))) = some (.hireStartReceived a no kind) := by
  rw [goodFrame_untargeted 4 a (encHireEvent (.start no kind)) (by decide) (Nat.le_of_ble_eq_true rfl) rfl]
  show (kindOf (u8 kind.code).toNat).map (fun kind => Instr.hireStartReceived a (256 * (u8 (no / 256)).toNat + (u8 no).toNat) kind)
    = _
  rw [u8_kind, kindOf_code, read_be16 hno]
  rfl

theorem hireStop_read {no due : Nat} (hno : no < 65536) (hdue : due < 16777216) :
    goodFrame (cabFrame 4 a (encHireEvent (.stop no due))) = some (.hireStopReceived a no due) := by
  rw [goodFrame_untargeted 4 a (encHireEvent (.stop no due)) (by decide) (Nat.le_of_ble_eq_true rfl) rfl]
  show some (Instr.hireStopReceived a (256 * (u8 (no / 256)).toNat + (u8 no).toNat)
    (65536 * (u8 (due / 65536)).toNat + 256 * (u8 (due / 256)).toNat + (u8 due).toNat)) = _
  rw [read_be16 hno, read_be24 hdue]

theorem hireClosed_read {no : Nat} (hno : no < 65536) (o : HireOutcome) :
    goodFrame (cabFrame 4 a (encHireEvent (.closed no o))) = some (.hireClosedReceived a no o) := by
  have hcode : (u8 o.code).toNat = o.code := by cases o <;> rfl
  rw [goodFrame_untargeted 4 a (encHireEvent (.closed no o)) (by decide) (Nat.le_of_ble_eq_true rfl) rfl]
  show (hireOutcomeOf (u8 o.code).toNat).map
    (fun o => Instr.hireClosedReceived a (256 * (u8 (no / 256)).toNat + (u8 no).toNat) o) = _
  rw [hcode, hireOutcomeOf_code, read_be16 hno]
  rfl

theorem intercomEvent_read (e : IntercomEvent) :
    goodFrame (cabFrame 4 a (encIntercomEvent e)) = some (e.received a) := by
  rw [goodFrame_untargeted 4 a (encIntercomEvent e) (by decide) (Nat.le_of_ble_eq_true rfl) rfl]
  cases e <;> rfl

/-! ### SHIFT frames -/

/-- An address set names the addresses whose bits it has (Table 12-1). -/
theorem addrSet_read (as : List Addr) :
    (allAddrs.filter fun a => (u8 (addrSet as)).toNat / 2 ^ a.val % 2 == 1) = allAddrs.filter fun a => as.contains a := by
  have hset : ∀ p : Addr → Bool, (allAddrs.filter fun a =>
      (u8 ((allAddrs.filter p).foldl (fun n a => n + 2 ^ a.val) 0)).toNat / 2 ^ a.val % 2 == 1) = allAddrs.filter p := by
    decide
  exact hset fun a => as.contains a

theorem shiftFrame_read {f : ShiftFrame} (h : f.wf = true) :
    goodFrame (cabFrame 5 a (encShiftFrame f)) = some (f.received a) := by
  have hlen : (encShiftFrame f).length ≤ 12 := by cases f <;> exact Nat.le_of_ble_eq_true rfl
  rw [goodFrame_untargeted 5 a _ (by decide) hlen rfl]
  show parseShift a (encShiftFrame f) = _
  cases f with
  | opened number driver rejoin =>
    have hfits : number < 65536 ∧ driver < 65536 := by simpa [ShiftFrame.wf, fits16] using h
    have hnumber := read_be16 hfits.1
    have hdriver := read_be16 hfits.2
    cases rejoin
    · show some (Instr.shiftOpen a false _ _) = _
      rw [hnumber, hdriver]
      rfl
    · show some (Instr.shiftOpen a true _ _) = _
      rw [hnumber, hdriver]
      rfl
  | call number =>
    have hnumber : number < 65536 := by simpa [ShiftFrame.wf, fits16] using h
    show some (Instr.shiftCall a _) = _
    rw [read_be16 hnumber]
    rfl
  | refuse reason number =>
    have hnumber : number < 65536 := by simpa [ShiftFrame.wf, fits16] using h
    cases reason
    · show some (Instr.shiftRefuse a .number _) = _
      rw [read_be16 hnumber]
      rfl
    · show some (Instr.shiftRefuse a .busy _) = _
      rw [read_be16 hnumber]
      rfl
  | done forced number addrs =>
    have hnumber : number < 65536 := by simpa [ShiftFrame.wf, fits16] using h
    cases forced
    · show some (Instr.shiftDone a false _ _) = _
      rw [read_be16 hnumber, addrSet_read]
      rfl
    · show some (Instr.shiftDone a true _ _) = _
      rw [read_be16 hnumber, addrSet_read]
      rfl
  | abandon number =>
    have hnumber : number < 65536 := by simpa [ShiftFrame.wf, fits16] using h
    show some (Instr.shiftAbandon a _) = _
    rw [read_be16 hnumber]
    rfl

/-! ### Summary parts (Table 12-4) -/

theorem distance_read {d : Option Nat} (h : distanceOk d = true) :
    distanceOf (beNat (be24 (d.getD unknownDistance))) = d := by
  cases d with
  | none =>
    rw [Option.getD_none, beNat_be24 (by decide)]
    exact if_pos rfl
  | some n =>
    have hn : n < 16777215 := by simpa [distanceOk] using h
    rw [Option.getD_some, beNat_be24 (by omega)]
    exact if_neg (Nat.ne_of_lt hn)

/-- The byte of the three flags and the reversals of part 0 (Table 12-4). -/
theorem flags_read (lost fault conflict : Bool) {rev : Nat} (h : rev < 8) {n : Nat}
    (hn : n = (u8 (bitNat lost + 2 * bitNat fault + 4 * bitNat conflict + 8 * (rev % 8))).toNat) :
    (n % 2 == 1) = lost ∧ (n / 2 % 2 == 1) = fault ∧ (n / 4 % 2 == 1) = conflict ∧ n / 8 % 8 = rev := by
  have hlost := bitNat_le lost
  have hfault := bitNat_le fault
  have hconflict := bitNat_le conflict
  rw [u8_toNat] at hn
  rw [show n % 2 = bitNat lost by omega, show n / 2 % 2 = bitNat fault by omega, show n / 4 % 2 = bitNat conflict by omega,
    bitNat_beq, bitNat_beq, bitNat_beq]
  exact ⟨rfl, rfl, rfl, by omega⟩

theorem parseSummaryPart_content {p : SummaryPart} (h : p.wf = true) : parseSummaryPart p.index p.content = some p := by
  cases p with
  | part0 no settled cancelled unpaid warm lost fault conflict rev metered =>
    simp only [SummaryPart.wf, fits16, fits8, fits32, Bool.and_eq_true, decide_eq_true_eq, and_assoc] at h
    obtain ⟨hno, hsettled, hcancelled, hunpaid, hwarm, hrev, hmetered⟩ := h
    obtain ⟨n, hn⟩ : ∃ n, n = (u8 (bitNat lost + 2 * bitNat fault + 4 * bitNat conflict + 8 * (rev % 8))).toNat :=
      ⟨_, rfl⟩
    obtain ⟨hlost, hfault, hconflict, hreversals⟩ := flags_read lost fault conflict hrev hn
    have hparse : parseSummaryPart 0 (SummaryPart.part0 no settled cancelled unpaid warm lost fault conflict rev metered).content
        = some (.part0 (beNat (be16 no)) (u8 settled).toNat (u8 cancelled).toNat (u8 unpaid).toNat (u8 warm).toNat
          (n % 2 == 1) (n / 2 % 2 == 1) (n / 4 % 2 == 1) (n / 8 % 8) (beNat (be32 metered))) := by
      rw [hn]
      rfl
    rw [SummaryPart.index, hparse, hlost, hfault, hconflict, hreversals, beNat_be16 hno, beNat_be32 hmetered,
      u8_toNat_of_lt hsettled, u8_toNat_of_lt hcancelled, u8_toNat_of_lt hunpaid, u8_toNat_of_lt hwarm]
  | part1 dist extras tips =>
    simp only [SummaryPart.wf, fits32, Bool.and_eq_true, decide_eq_true_eq, and_assoc] at h
    obtain ⟨hdist, hextras, htips⟩ := h
    show some (SummaryPart.part1 (distanceOf (beNat (be24 _))) (beNat (be32 extras)) (beNat (be32 tips))) = _
    rw [distance_read hdist, beNat_be32 hextras, beNat_be32 htips]
  | part2 dist cash card =>
    simp only [SummaryPart.wf, fits32, Bool.and_eq_true, decide_eq_true_eq, and_assoc] at h
    obtain ⟨hdist, hcash, hcard⟩ := h
    show some (SummaryPart.part2 (distanceOf (beNat (be24 _))) (beNat (be32 cash)) (beNat (be32 card))) = _
    rw [distance_read hdist, beNat_be32 hcash, beNat_be32 hcard]
  | part3 secs account unpaid =>
    simp only [SummaryPart.wf, fits24, fits32, Bool.and_eq_true, decide_eq_true_eq, and_assoc] at h
    obtain ⟨hsecs, haccount, hunpaid⟩ := h
    show some (SummaryPart.part3 (beNat (be24 secs)) (beNat (be32 account)) (beNat (be32 unpaid))) = _
    rw [beNat_be24 hsecs, beNat_be32 haccount, beNat_be32 hunpaid]

theorem summary_read (late : Bool) {p : SummaryPart} (h : p.wf = true) :
    goodFrame (cabFrame 5 a (encSummary late p)) = some (if late then .lateSummaryPart a p else .shiftSummary a p) := by
  have hlen : (encSummary late p).length ≤ 12 := by cases p <;> exact Nat.le_of_ble_eq_true rfl
  obtain ⟨n, hn⟩ : ∃ n, n = (u8 (16 * 3 + 4 * bitNat late + p.index)).toNat := ⟨_, rfl⟩
  have hkey : n / 16 = 3 ∧ n % 16 % 4 = p.index ∧ n % 16 / 4 % 2 = bitNat late := by
    have hlate := bitNat_le late
    have hindex : p.index ≤ 3 := by cases p <;> exact Nat.le_of_ble_eq_true rfl
    rw [u8_toNat] at hn
    omega
  obtain ⟨hframe, hindex, hlate⟩ := hkey
  rw [goodFrame_untargeted 5 a _ (by decide) hlen rfl]
  show parseShift a (u8 (16 * 3 + 4 * bitNat late + p.index) :: p.content) = _
  unfold parseShift
  dsimp only
  rw [← hn, hframe, hindex]
  rw [parseSummaryPart_content h, Option.map_some, hlate, if_congr (bitNat_eq_one_iff late) rfl rfl]
  rfl

/-! ### Beacons (Table 5-5) -/

/-- The byte that carries the shift state, the hire state and the kind. -/
theorem states_read (shift : ShiftState) (hire : HireState) (kind : Kind) {n : Nat}
    (hn : n = (u8 (64 * shift.code + 16 * hire.code + kind.code)).toNat) :
    shiftStateOf (n / 64) = some shift ∧ hireStateOf (n / 16 % 4) = some hire
      ∧ (if n % 2 = 1 then Kind.exclusive else .shared) = kind := by
  subst hn
  cases shift <;> cases hire <;> cases kind <;> exact ⟨rfl, rfl, rfl⟩

/-- The byte that carries the capacity and the beacon's flags. -/
theorem beaconFlags_read (privacy clockSet fault : Bool) {capacity : Nat} (h : capacity < 8) {n : Nat}
    (hn : n = (u8 (capacity % 8 + 8 * bitNat privacy + 16 * bitNat clockSet + 32 * bitNat fault)).toNat) :
    n % 8 = capacity ∧ (n / 8 % 2 == 1) = privacy ∧ (n / 16 % 2 == 1) = clockSet ∧ (n / 32 % 2 == 1) = fault := by
  have hprivacy := bitNat_le privacy
  have hclockSet := bitNat_le clockSet
  have hfault := bitNat_le fault
  rw [u8_toNat] at hn
  rw [show n / 8 % 2 = bitNat privacy by omega, show n / 16 % 2 = bitNat clockSet by omega,
    show n / 32 % 2 = bitNat fault by omega, bitNat_beq, bitNat_beq, bitNat_beq]
  exact ⟨by omega, rfl, rfl, rfl⟩

theorem beacon_read {b : Beacon} (h : b.wf = true) (hrole : a = 0 ∨ b.role.toNat / 16 % 4 ≠ 3) :
    goodFrame (cabFrame 6 a (encBeacon b)) = some (.beaconReceived a b) := by
  obtain ⟨shiftNo, shiftState, hireState, kind, capacity, privacy, clockSet, pulseFault, tariffNo, edition, role⟩ := b
  simp only [Beacon.wf, fits16, fits8, Bool.and_eq_true, decide_eq_true_eq, and_assoc] at h
  obtain ⟨hshiftNo, hcapacity, htariffNo, hedition⟩ := h
  obtain ⟨st, hst⟩ : ∃ n, n = (u8 (64 * shiftState.code + 16 * hireState.code + kind.code)).toNat := ⟨_, rfl⟩
  obtain ⟨fl, hfl⟩ : ∃ n,
      n = (u8 (capacity % 8 + 8 * bitNat privacy + 16 * bitNat clockSet + 32 * bitNat pulseFault)).toNat :=
    ⟨_, rfl⟩
  obtain ⟨hshift, hhire, hkind⟩ := states_read shiftState hireState kind hst
  obtain ⟨hcap, hpriv, hclock, hfault⟩ := beaconFlags_read privacy clockSet pulseFault hcapacity hfl
  have hbytes : (encBeacon ⟨shiftNo, shiftState, hireState, kind, capacity, privacy, clockSet, pulseFault, tariffNo, edition,
      role⟩).map (·.toNat) = [(u8 (shiftNo / 256)).toNat, (u8 shiftNo).toNat, st, fl, (u8 (tariffNo / 256)).toNat,
        (u8 tariffNo).toNat, (u8 edition).toNat, (u8 (role.toNat / 16777216)).toNat, (u8 (role.toNat / 65536)).toNat,
        (u8 (role.toNat / 256)).toNat, (u8 role.toNat).toNat] := by
    rw [hst, hfl]
    rfl
  have hcharging : ¬ (a ≠ 0 ∧ (u8 role.toNat).toNat / 16 % 4 = 3) := by
    rintro ⟨hseat, hno⟩
    have hrole' : role.toNat / 16 % 4 ≠ 3 := hrole.resolve_left hseat
    rw [u8_toNat] at hno
    omega
  rw [goodFrame_untargeted 6 a _ (by decide) (Nat.le_of_ble_eq_true rfl) rfl]
  show parseBeacon a (encBeacon _) = _
  unfold parseBeacon
  rw [hbytes]
  dsimp only
  rw [hshift, hhire]
  dsimp only
  rw [if_neg hcharging, hkind, hcap, hpriv, hclock, hfault, read_be16 hshiftNo, read_be16 htariffNo, u8_toNat_of_lt hedition]
  show some (Instr.beaconReceived a ⟨_, _, _, _, _, _, _, _, _, _, BitVec.ofNat 32 (beNat (be32 role.toNat))⟩) = _
  rw [beNat_be32 role.isLt, BitVec.ofNat_toNat, BitVec.setWidth_eq]

/-! ### Records and DISTRESS -/

theorem recordQuery_read {no first : Nat} (hno : no < 65536) (hfirst : first < 256) :
    goodFrame (cabFrame 7 a (encRecordQuery no target first)) = some (.recordQuery a no target first) := by
  have htarget : targetIndex 7 (encRecordQuery no target first) = some 3 := if_pos (show (u8 64).toNat / 64 = 1 from rfl)
  rw [goodFrame_targeted 7 a _ (by decide) (Nat.le_of_ble_eq_true rfl) htarget (target := target) rfl]
  show (addrOf (u8 target.val).toNat).map
    (fun t => Instr.recordQuery a (256 * (u8 (no / 256)).toNat + (u8 no).toNat) t (u8 first).toNat) = _
  rw [u8_addr, addrOf_val, read_be16 hno, u8_toNat_of_lt hfirst]
  rfl

theorem recordPart_read {k m no : Nat} {data : List Byte} (h : recordPartOk k m no data = true) :
    goodFrame (cabFrame 7 a (encRecordPart k m no data)) = some (.recordPart a k m no data) := by
  simp only [recordPartOk, fits16, Bool.and_eq_true, Bool.or_eq_true, bne_iff_ne, decide_eq_true_eq, and_assoc,
    List.isEmpty_iff] at h
  obtain ⟨hk, hm, hno, hdata, hempty⟩ := h
  have hlen : (encRecordPart k m no data).length ≤ 12 := by
    show data.length + 3 ≤ 12
    omega
  have hb : (u8 (128 + 8 * k + m)).toNat = 128 + 8 * k + m := u8_toNat_of_lt (by omega)
  have hcls : (u8 (128 + 8 * k + m)).toNat / 64 = 2 := by omega
  have htarget : targetIndex 7 (encRecordPart k m no data) = none := by
    refine if_neg ?_
    show ¬ (u8 (128 + 8 * k + m)).toNat / 64 = 1
    omega
  rw [goodFrame_untargeted 7 a _ (by decide) hlen htarget]
  show parseRecord a (_ :: _ :: _ :: data) = _
  unfold parseRecord
  dsimp only
  rw [hcls]
  rw [hb, read_be16 hno, show (128 + 8 * k + m) / 8 % 8 = k by omega, show (128 + 8 * k + m) % 8 = m by omega]
  exact if_neg fun ⟨hnone, hsome⟩ => hempty.elim (fun hm => hm hnone) hsome

theorem distress_read {time no : Nat} (htime : time < 4294967296) (hno : no < 65536) :
    goodFrame (cabFrame 0 0 (encDistress time no)) = some (.distressFrame 0 time no) := by
  rw [goodFrame_untargeted 0 0 (encDistress time no) (by decide) (Nat.le_of_ble_eq_true rfl) rfl]
  show some (Instr.distressFrame 0 (beNat (be32 time)) (beNat (be16 no))) = _
  rw [beNat_be32 htime, beNat_be16 hno]

end

/-- Settles O7. -/
theorem framesAreReadBackAsSent : Obligations.FramesAreReadBackAsSent :=
  ⟨fun a kind _ _ => claim_read a kind, object_read, fun a target _ _ hseq h => command_read a target hseq h,
    fun a _ r hseq => reply_read a hseq r, fun a _ kind hno => hireStart_read a hno kind, fun a _ _ => hireStop_read a, fun a _ o hno => hireClosed_read a hno o,
    intercomEvent_read, fun a _ => shiftFrame_read a, fun a _ h => ⟨summary_read a false h, summary_read a true h⟩,
    fun a _ => beacon_read a, fun a target _ _ => recordQuery_read a target, fun a _ _ _ _ => recordPart_read a,
    fun _ _ => distress_read⟩

end Sys2Proof.Machine
end

section
/-! PROOFS. The sign mode, the numeral, and the bytes of the sign line (O34). -/
namespace Sys2Proof.Machine
open Sys2Proof

/-! ### The mode (R92) -/

section
variable {s : State}

theorem PeerRow.engaged_iff (r : PeerRow) : r.engaged = true ↔ r.present = true ∧ r.hireState ≠ .free := by
  unfold PeerRow.engaged
  rw [Bool.and_eq_true, bne_iff_ne]

theorem PeerRow.engaged_false_iff (r : PeerRow) : r.engaged = false ↔ r.present = false ∨ r.hireState = .free := by
  rw [← Bool.not_eq_true, r.engaged_iff, not_and_or, not_not, Bool.not_eq_true]

/-- No hire of the vehicle is engaged and station 0's slot is FREE (R92). -/
def State.vehicleFree (s : State) : Bool := s.hire.slot.isFree && s.peers.all fun r => !r.engaged

theorem State.vehicleFree_iff (s : State) :
    s.vehicleFree = true ↔ s.hire.slot = .free ∧ ∀ r ∈ s.peers, r.present = false ∨ r.hireState = .free := by
  unfold State.vehicleFree
  simp only [Bool.and_eq_true, Slot.isFree_iff, List.all_eq_true, Bool.not_eq_true', PeerRow.engaged_false_iff]

theorem State.signMode_distress (h : s.distress.latch ≠ none) : s.signMode = (.distress, 0) :=
  if_pos (Option.isSome_iff_ne_none.2 h)

theorem State.signMode_offDuty (hlatch : s.distress.latch = none) (hoff : s.shift.state ≠ .onShift) :
    s.signMode = (.offDuty, 0) := by
  unfold State.signMode
  rw [hlatch]
  exact if_pos hoff

theorem State.signMode_onShift (hlatch : s.distress.latch = none) (hon : s.shift.state = .onShift) :
    s.signMode = if s.vehicleFree then (.free, 0)
      else if !s.anyExclusive && 0 < s.numeral then (.shared, s.numeral) else (.hired, 0) := by
  unfold State.signMode
  rw [hlatch, hon]
  rfl

end

/-! ### The numeral and the EXCLUSIVE hires (R68, R92, R93) -/

section
variable {s : State}

theorem State.peers_of_console (h0 : s.addr = 0) (r : PeerRow) :
    r ∈ s.peers ↔ ∃ a : Addr, a ≠ 0 ∧ s.peer.rows.get a = r := by
  have hseat (a : Addr) : a ∈ allAddrs := by revert a; decide
  unfold State.peers
  simp only [List.mem_map, List.mem_filter, h0, hseat, true_and, decide_eq_true_eq]

theorem Slot.isExclusive_iff (sl : Slot) : sl.isExclusive = true ↔ (∃ c, sl = .claiming c ∧ c.kind = .exclusive)
    ∨ ∃ h, (sl = .hired h ∨ sl = .stopped h ∨ sl = .paying h) ∧ h.rc.kind = .exclusive := by
  cases sl <;> simp [Slot.isExclusive]

theorem State.anyExclusive_iff (h0 : s.addr = 0) : s.anyExclusive = true ↔
    (∃ c, s.hire.slot = .claiming c ∧ c.kind = .exclusive)
    ∨ (∃ h, (s.hire.slot = .hired h ∨ s.hire.slot = .stopped h ∨ s.hire.slot = .paying h) ∧ h.rc.kind = .exclusive)
    ∨ ∃ a : Addr, a ≠ 0 ∧ (s.peer.rows.get a).present = true ∧ (s.peer.rows.get a).hireState ≠ .free
      ∧ (s.peer.rows.get a).kind = .exclusive := by
  have hpeer : (s.peers.any fun r => r.engaged && r.kind == .exclusive) = true ↔
      ∃ a : Addr, a ≠ 0 ∧ (s.peer.rows.get a).present = true ∧ (s.peer.rows.get a).hireState ≠ .free
        ∧ (s.peer.rows.get a).kind = .exclusive := by
    simp only [List.any_eq_true, State.peers_of_console h0, Bool.and_eq_true, PeerRow.engaged_iff, beq_iff_eq, and_assoc]
    constructor
    · rintro ⟨r, ⟨a, ha, rfl⟩, h⟩
      exact ⟨a, ha, h⟩
    · rintro ⟨a, ha, h⟩
      exact ⟨_, ⟨a, ha, rfl⟩, h⟩
  unfold State.anyExclusive
  rw [Bool.or_eq_true, Slot.isExclusive_iff, hpeer, or_assoc]

/-- Station 0 is tariff-matching to itself where its image is valid (R68). -/
theorem State.selfOfferable_iff (s : State) : s.selfOfferable = true ↔
    s.shift.state = .onShift ∧ s.image ≠ none ∧ s.silent = false ∧ s.hire.slot = .free := by
  unfold State.selfOfferable State.tariffMatching
  simp only [Bool.and_eq_true, beq_iff_eq, beq_self_eq_true, Bool.true_or, and_true, Option.isSome_iff_ne_none,
    Bool.not_eq_true', Slot.isFree_iff, and_assoc]

/-- Station 0 judges a seat by its row and the image (R68, R92). -/
theorem State.seatOfferable_iff (h0 : s.addr = 0) {a : Addr} (ha : a ≠ 0) {r : PeerRow} (hrow : r = s.peer.rows.get a) :
    s.seatOfferable a = true ↔ ∃ b im, r.beacon = some b ∧ s.image = some im ∧ r.present = true ∧ b.shiftState = .onShift
      ∧ b.tariffNo = im.number ∧ b.edition = im.edition ∧ r.hireState = .free := by
  have hother : (a == s.addr) = false := by rw [h0]; exact beq_false_of_ne ha
  unfold State.seatOfferable State.tariffMatching State.identity
  rw [← hrow, hother]
  dsimp only
  cases r.beacon with
  | none => simp
  | some b =>
    cases s.image with
    | none => simp
    | some im =>
      simp only [Option.isSome_some, Option.map_some, Option.getD_some, Bool.true_and, Bool.false_or, Bool.and_eq_true,
        beq_iff_eq, Prod.mk.injEq]
      constructor
      · rintro ⟨⟨⟨hp, hon⟩, -, hno, hed⟩, hfree⟩
        exact ⟨b, im, rfl, rfl, hp, hon, hno, hed, hfree⟩
      · rintro ⟨_, _, hb, him, hp, hon, hno, hed, hfree⟩
        cases hb
        cases him
        exact ⟨⟨⟨hp, hon⟩, hp, hno, hed⟩, hfree⟩

/-- What a seat adds to the numeral (R92). -/
def State.seatRoom (s : State) (a : Addr) : Nat :=
  if s.seatOfferable a then ((s.peer.rows.get a).beacon.map (·.capacity)).getD 0 else 0

theorem State.numeral_eq (s : State) : s.numeral = (if s.shift.state = .onShift ∧ s.image ≠ none ∧ s.silent = false
    ∧ s.hire.slot = .free then s.straps.capacity else 0) + s.seatRoom 1 + s.seatRoom 2 + s.seatRoom 3 := by
  have hsum (l : List Addr) (f : Addr → Nat) :
      ((l.filter s.seatOfferable).map f).sum = (l.map fun a => if s.seatOfferable a then f a else 0).sum := by
    induction l with
    | nil => rfl
    | cons a l ih => by_cases h : s.seatOfferable a = true <;> simp [h, ih]
  unfold State.numeral
  simp only [s.selfOfferable_iff, hsum]
  simp only [seatAddrs, List.map_cons, List.map_nil, List.sum_cons, List.sum_nil, State.seatRoom]
  omega

/-- What a seat adds, as the statement describes it: the capacity that its beacon shows while it is offerable, otherwise 0. -/
theorem State.seatRoom_eq (h0 : s.addr = 0) {a : Addr} (ha : a ≠ 0) {r : PeerRow} (hrow : r = s.peer.rows.get a) {n : Nat}
    (hopen : ∀ b im, r.beacon = some b → s.image = some im → r.present = true → b.shiftState = .onShift →
      b.tariffNo = im.number → b.edition = im.edition → r.hireState = .free → n = b.capacity)
    (hshut : s.image = none ∨ r.present = false ∨ r.hireState ≠ .free ∨ r.beacon = none
      ∨ (∃ b, r.beacon = some b ∧ (b.shiftState ≠ .onShift
        ∨ ∃ im, s.image = some im ∧ (b.tariffNo ≠ im.number ∨ b.edition ≠ im.edition))) → n = 0) :
    s.seatRoom a = n := by
  unfold State.seatRoom
  split
  · next h =>
    obtain ⟨b, im, hb, him, hp, hon, hno, hed, hfree⟩ := (State.seatOfferable_iff h0 ha hrow).1 h
    rw [← hrow, hopen b im hb him hp hon hno hed hfree, hb]
    rfl
  · next h =>
    refine (hshut ?_).symm
    by_contra hcon
    simp only [not_or, not_not, Bool.not_eq_false, not_exists, not_and] at hcon
    obtain ⟨him, hp, hfree, hb, hall⟩ := hcon
    obtain ⟨b, hb⟩ := Option.ne_none_iff_exists'.1 hb
    obtain ⟨im, him⟩ := Option.ne_none_iff_exists'.1 him
    obtain ⟨hon, htariff⟩ := hall b hb
    obtain ⟨hno, hed⟩ := htariff im him
    exact h ((State.seatOfferable_iff h0 ha hrow).2 ⟨b, im, hb, him, hp, hon, hno, hed, hfree⟩)

end

/-! ### The bytes of the sign line (R200) -/

theorem xorSum_pair (a b : Byte) : xorSum [a, b] = a ^^^ b := congrArg (· ^^^ b) BitVec.zero_xor

theorem signReplyLamps_valid : ∀ v h n d : Bool,
    signReplyLamps 0x5A#8 (BitVec.ofNat 8 (v.toNat + 2 * h.toNat + 4 * n.toNat + 8 * d.toNat))
        (0x5A#8 ^^^ BitVec.ofNat 8 (v.toNat + 2 * h.toNat + 4 * n.toNat + 8 * d.toNat))
      = some { vacant := v, hired := h, numeral := n, distress := d } := by
  decide

theorem signReplyLamps_invalid {b0 b1 b2 : Byte} (h : b0 ≠ 0x5A#8 ∨ 16 ≤ b1.toNat ∨ b2 ≠ b0 ^^^ b1) :
    signReplyLamps b0 b1 b2 = none := by
  refine if_neg fun ⟨hmark, hlow, hcheck⟩ => ?_
  obtain h | h | h := h
  · exact h hmark
  · exact absurd hlow (Nat.not_lt.2 h)
  · exact h (hcheck.trans (xorSum_pair b0 b1))

theorem SignMsg.code_le (m : SignMsg) : m.code ≤ 3 := by cases m <;> decide

theorem SignMode.code_le (m : SignMode) : m.code ≤ 4 := by cases m <;> decide

theorem signMessage_bytes (ctl : SignMsg) (mode : SignMode) {numeral bright : Nat} (hn : numeral < 16) (hb : bright < 4) :
    (signMessage ctl mode numeral bright).map (·.toNat) = [0xA5, 64 * ctl.code + mode.code, 16 * numeral + bright,
      0xA5 ^^^ (64 * ctl.code + mode.code) ^^^ (16 * numeral + bright)] := by
  have hctl := ctl.code_le
  have hmode := mode.code_le
  have hcontrol : (u8 (64 * ctl.code + mode.code)).toNat = 64 * ctl.code + mode.code := u8_toNat_of_lt (by omega)
  have hlevel : (u8 (16 * numeral + bright)).toNat = 16 * numeral + bright := u8_toNat_of_lt (by omega)
  have hcheck (a b c : Byte) : (xorSum [a, b, c]).toNat = a.toNat ^^^ b.toNat ^^^ c.toNat := by
    have hsum : xorSum [a, b, c] = a ^^^ b ^^^ c := congrArg (· ^^^ c) (xorSum_pair a b)
    rw [hsum, BitVec.toNat_xor, BitVec.toNat_xor]
  unfold signMessage
  rw [Nat.mod_eq_of_lt hn, Nat.mod_eq_of_lt hb]
  simp only [List.map_append, List.map_cons, List.map_nil, hcheck, hcontrol, hlevel]
  rfl

/-- Settles O34. -/
theorem signBytesCarryTheFirstModeThatHolds : Obligations.SignBytesCarryTheFirstModeThatHolds := by
  refine ⟨fun s => ⟨State.signMode_distress, State.signMode_offDuty, fun hlatch hon => ?_, fun h0 =>
    ⟨fun seat hseat => ?_, State.anyExclusive_iff h0⟩⟩, signReplyLamps_valid, fun _ _ _ => signReplyLamps_invalid,
    fun ctl mode _ _ => signMessage_bytes ctl mode⟩
  · rw [State.signMode_onShift hlatch hon, ← s.vehicleFree_iff]
    refine ⟨fun hfree => if_pos hfree, fun hbusy hshared hroom => ?_, fun hbusy hno => ?_⟩
    · rw [if_neg hbusy, hshared]
      exact if_pos (decide_eq_true hroom)
    · rw [if_neg hbusy]
      refine if_neg fun hyes => ?_
      rw [Bool.and_eq_true, Bool.not_eq_true', decide_eq_true_eq] at hyes
      obtain ⟨hshared, hroom⟩ := hyes
      exact hno.elim (fun h => Bool.false_ne_true (hshared.symm.trans h)) hroom.ne'
  · have hroom (a : Addr) (ha : a ≠ 0) : s.seatRoom a = seat a := by
      obtain ⟨hopen, hshut⟩ := hseat a _ rfl
      exact State.seatRoom_eq h0 ha rfl hopen hshut
    rw [s.numeral_eq, hroom 1 (by decide), hroom 2 (by decide), hroom 3 (by decide)]

end Sys2Proof.Machine
end

section
/-! PROOFS. The sign line: what is sent, what waits, and what a reply or a missed one changes (O35). -/
namespace Sys2Proof.Machine
open Sys2Proof

/-! ### A message that falls due (R94 to R96) -/

section
variable {s : State} (m : SignMsg)

/-- The mode reads of the shift only its state, and of the sign nothing. -/
theorem State.signMode_same (g : Sign) {sh : Shift} (h : sh.state = s.shift.state) :
    ({ s with sign := g, shift := sh } : State).signMode = s.signMode := by
  have hsh : sh = { sh with state := s.shift.state } := by rw [← h]
  rw [hsh]
  rfl

theorem Shift.added_state (sh : Shift) (f : Accum → Accum) : (sh.added f).state = sh.state := by
  rw [Shift.added_fields]

/-- With the content of now sent or due, the recompute finds no content change (R94). -/
theorem State.signUpdate_unchanged (h : s.sign.last = some s.signMode) : s.signUpdate = s := by
  refine if_neg fun hchange => ?_
  rw [h, Bool.and_eq_true, bne_self_eq_false] at hchange
  exact Bool.false_ne_true hchange.2

theorem State.dueSign_now (h : s.sign.wait = none) : s.dueSign m = s.sendSign m := by
  unfold State.dueSign
  rw [h]
  rfl

theorem State.dueSign_waits (h : s.sign.wait ≠ none) :
    s.dueSign m = { s with sign := { s.sign with last := some s.signMode, held := some m } } :=
  if_pos (Option.isSome_iff_ne_none.2 h)

theorem State.sendSign_settled : (s.sendSign m).signUpdate = s.sendSign m := State.signUpdate_unchanged rfl

theorem State.dueSign_settled : (s.dueSign m).signUpdate = s.dueSign m := by
  by_cases h : s.sign.wait = none
  · rw [State.dueSign_now m h, State.sendSign_settled]
  · rw [State.dueSign_waits m h]
    exact State.signUpdate_unchanged rfl

theorem State.Quiet.sendSign (h : s.Quiet) : (s.sendSign m).Quiet := h.of_same rfl rfl rfl rfl

theorem State.Quiet.dueSign (h : s.Quiet) : (s.dueSign m).Quiet := by
  unfold State.dueSign
  split
  · exact h.of_same rfl rfl rfl rfl
  · exact h.sendSign m

/-- An event in which a message falls due outside a wait sends it (R96). -/
theorem event_sendsDue {f : State → State} {t u : State} (hr : t.supply.running = true) (hf : f t = u.dueSign m) (hq : u.Quiet)
    (hw : u.sign.wait = none) : event f t = .next (u.sendSign m) := by
  rw [event_quiet hr hf (hq.dueSign m), State.dueSign_settled, State.dueSign_now m hw]

/-- An event in which a message falls due during a wait holds it (R96). -/
theorem event_holdsDue {f : State → State} {t u : State} (hr : t.supply.running = true) (hf : f t = u.dueSign m) (hq : u.Quiet)
    (hw : u.sign.wait ≠ none) :
    event f t = .next { u with sign := { u.sign with last := some u.signMode, held := some m } } := by
  rw [event_quiet hr hf (hq.dueSign m), State.dueSign_settled, State.dueSign_waits m hw]

end

/-! ### The end of the wait (R96 to R98, R100) -/

/-- The sign and the shift after a valid reply, while the wait still stands (R97). -/
def State.lampsShown (s : State) (l : Lamps) : State :=
  { s with sign := { s.sign with lamps := some l, silent := 0, signSilent := false }
           shift := if l.newFault s.sign.lamps then s.shift.added fun a => { a with lampFault := true } else s.shift }

/-- The sign and the shift after a missed reply that counts, while the wait still stands (R98). -/
def State.missCounted (s : State) : State :=
  { s with
    sign := { s.sign with silent := min 3 (s.sign.silent + 1), signSilent := s.sign.signSilent || s.sign.silent == 2 }
    shift := if s.sign.silent = 2 then s.shift.added fun a => { a with signSilent := true } else s.shift }

section
variable {s : State}

theorem State.lampsShown_mode (l : Lamps) : (s.lampsShown l).signMode = s.signMode := by
  refine State.signMode_same _ ?_
  split
  · exact Shift.added_state _ _
  · rfl

theorem State.missCounted_mode : s.missCounted.signMode = s.signMode := by
  refine State.signMode_same _ ?_
  split
  · exact Shift.added_state _ _
  · rfl

theorem State.Quiet.lampsShown (h : s.Quiet) (l : Lamps) : (s.lampsShown l).Quiet := by
  refine h.of_same rfl ?_ rfl rfl
  unfold State.lampsShown
  split
  · rw [Shift.added_fields]
  · rfl

theorem State.Quiet.missCounted (h : s.Quiet) : s.missCounted.Quiet := by
  refine h.of_same rfl ?_ rfl rfl
  unfold State.missCounted
  split
  · rw [Shift.added_fields]
  · rfl

theorem State.takeLamps_eq (l : Lamps) : s.takeLamps l = (s.lampsShown l).endSignWait := by
  unfold State.takeLamps State.lampsShown State.reportLampFault
  simp only [State.account_eq]
  split <;> rfl

theorem State.missSign_eq : s.missSign = s.missCounted := by
  unfold State.missSign State.missCounted State.reportSignSilent
  by_cases hthird : s.sign.silent = 2
  · rw [if_pos hthird, if_pos hthird, State.account_eq, hthird, beq_self_eq_true, Bool.or_true]
    rfl
  · rw [if_neg hthird, if_neg hthird, beq_false_of_ne hthird, Bool.or_false]
    rfl

theorem State.takeSignReply_ignored {b0 b1 b2 : Byte} (h : s.sign.wait = none ∨ signReplyLamps b0 b1 b2 = none) :
    s.takeSignReply b0 b1 b2 = s := by
  unfold State.takeSignReply
  obtain h | h := h
  · rw [h]
    rfl
  · rw [h]
    exact ite_self s

theorem State.takeSignReply_valid {b0 b1 b2 : Byte} {l : Lamps} (hwait : s.sign.wait ≠ none)
    (hl : signReplyLamps b0 b1 b2 = some l) : s.takeSignReply b0 b1 b2 = (s.lampsShown l).endSignWait := by
  unfold State.takeSignReply
  rw [if_pos (Option.isSome_iff_ne_none.2 hwait), hl]
  exact State.takeLamps_eq l

theorem State.signTimeout_idle (h : s.sign.wait = none) : s.signTimeout = s := by
  unfold State.signTimeout
  rw [h]
  rfl

theorem State.signTimeout_off (hwait : s.sign.wait ≠ none) (hoff : s.sign.control = .off) : s.signTimeout = s.endSignWait := by
  unfold State.signTimeout
  rw [if_pos (Option.isSome_iff_ne_none.2 hwait), if_pos hoff]

theorem State.signTimeout_counts (hwait : s.sign.wait ≠ none) (hon : s.sign.control ≠ .off) :
    s.signTimeout = s.missCounted.endSignWait := by
  unfold State.signTimeout
  rw [if_pos (Option.isSome_iff_ne_none.2 hwait), if_neg hon, State.missSign_eq]

theorem State.endSignWait_none (h : s.sign.held = none) :
    s.endSignWait = { s with sign := { s.sign with wait := none } } := by
  unfold State.endSignWait
  dsimp only
  split
  · next hheld => cases hheld.symm.trans h
  · rfl

theorem State.endSignWait_held {m : SignMsg} (h : s.sign.held = some m) :
    s.endSignWait = (s.onSign fun g => { g with wait := none }).sendSign m := by
  simp only [State.endSignWait, State.onSign_sign, h]

/-- An event that ends the wait of `u` with nothing held ends with that and the sign's recompute. -/
theorem event_endsWait {f : State → State} {t u : State} (hr : t.supply.running = true) (hf : f t = u.endSignWait)
    (hq : u.Quiet) (hheld : u.sign.held = none) :
    event f t = .next (State.signUpdate { u with sign := { u.sign with wait := none } }) :=
  event_quiet hr (hf.trans (State.endSignWait_none hheld)) (hq.of_same rfl rfl rfl rfl)

/-- An event that ends the wait of `u` sends what is held, with the content of now. -/
theorem event_sendsHeld {f : State → State} {t u : State} {m : SignMsg} (hr : t.supply.running = true)
    (hf : f t = u.endSignWait) (hq : u.Quiet) (hheld : u.sign.held = some m) :
    event f t = .next ((u.onSign fun g => { g with wait := none }).sendSign m) := by
  rw [State.endSignWait_held hheld] at hf
  rw [event_quiet hr hf (State.Quiet.sendSign m (hq.of_same rfl rfl rfl rfl)), State.sendSign_settled]

/-- What is sent at the end of the wait of `u` carries the content of `s`, where the two agree on it (R95). -/
theorem State.sendsHeld_content {u : State} (m : SignMsg) (hmode : u.signMode = s.signMode) (himage : u.image = s.image)
    (hlines : u.lines = s.lines) :
    ((u.onSign fun g => { g with wait := none }).sendSign m).sign.last = some s.signMode
      ∧ ((u.onSign fun g => { g with wait := none }).sendSign m).lines
        = { s.lines with sign := signMessage m s.signMode.1 s.signMode.2 s.brightness } := by
  unfold State.brightness
  rw [← hmode, ← himage, ← hlines]
  exact ⟨rfl, rfl⟩

end

/-! ### The events -/

section
variable {s : State}

theorem State.repeatDue_eq (hp : s.sign.period ≠ none) (hc : s.sign.control = .repeating) :
    s.repeatDue = (s.onSign fun g => { g with period := none }).dueSign .repeating :=
  if_pos ⟨Option.isSome_iff_ne_none.2 hp, hc⟩

theorem State.endTest_eq (hc : s.sign.control = .test) (ht : s.sign.test ≠ none) :
    s.endTest = (s.onSign fun g => { g with control := .repeating, test := none }).dueSign .repeating :=
  if_pos ⟨hc, Option.isSome_iff_ne_none.2 ht⟩

theorem State.mayTest_iff (s : State) : s.mayTest = true ↔ s.signMode.1 = .offDuty ∧ s.sign.control = .repeating := by
  unfold State.mayTest
  rw [Bool.and_eq_true, beq_iff_eq, beq_iff_eq]

/-- A lamp test from the keys makes a ONCE due (R99). -/
theorem lampTest_starts (hr : s.supply.running = true) (hq : s.Quiet) (h0 : s.addr = 0) (hlow : s.supply.state ≠ .low)
    (hkeys : s.console.keys = .idle) (hmode : s.signMode.1 = .offDuty) (hc : s.sign.control = .repeating) :
    exec .lampTest s
      = .next ((s.endKeys.onSign fun g => { g with control := .test, period := none }).dueSign .once) := by
  have htest : s.endKeys.takeLampTest = s.endKeys.startTest := if_pos ((State.mayTest_iff _).2 ⟨hmode, hc⟩)
  have hends : exec .lampTest s = .next s.endKeys.startTest.signUpdate :=
    sequenceEvent_idle hr h0 hlow hkeys htest (State.Quiet.dueSign _ (hq.of_same rfl rfl rfl rfl))
  rw [hends]
  exact congrArg _ (State.dueSign_settled _)

theorem lampTest_unavailable (hr : s.supply.running = true) (hq : s.Quiet) (h0 : s.addr = 0) (hlow : s.supply.state ≠ .low)
    (hkeys : s.console.keys = .idle) (h : s.signMode.1 ≠ .offDuty ∨ s.sign.control ≠ .repeating) :
    exec .lampTest s = .next (s.endKeys.say .lampTestUnavailable).signUpdate := by
  refine sequenceEvent_idle hr h0 hlow hkeys (if_neg fun hmay => ?_) hq
  obtain ⟨hmode, hc⟩ := (State.mayTest_iff s.endKeys).1 hmay
  exact h.elim (absurd hmode) (absurd hc)

end

/-- Settles O35. -/
theorem signLineSendsAndWaits : Obligations.SignLineSendsAndWaits := by
  rintro s hr hq h0 sent rfl
  refine ⟨fun hp hc => ⟨fun hw => ?_, fun hw => ?_⟩, fun hc ht hw => ?_, fun hc => ?_, fun hlow hkeys =>
    ⟨fun hmode hc hw => ?_, fun hmode hc hw => ?_, lampTest_unavailable hr hq h0 hlow hkeys⟩, fun b0 b1 b2 h => ?_,
    fun hw => ?_, fun hw hheld => ⟨?_, fun hon => ?_, fun hoff => ?_⟩, fun m b0 b1 b2 l hw hheld hl => ?_,
    fun m hw hheld => ?_, fun hthird hon => ?_, fun hno => ?_⟩
  · exact event_sendsDue _ hr (State.repeatDue_eq hp hc) (hq.of_same rfl rfl rfl rfl) hw
  · exact event_holdsDue _ hr (State.repeatDue_eq hp hc) (hq.of_same rfl rfl rfl rfl) hw
  · exact event_sendsDue _ hr (State.endTest_eq hc ht) (hq.of_same rfl rfl rfl rfl) hw
  · exact event_quiet hr (if_neg fun h => hc h.1) hq
  · exact (lampTest_starts hr hq h0 hlow hkeys hmode hc).trans (congrArg _ (State.dueSign_now _ hw))
  · exact (lampTest_starts hr hq h0 hlow hkeys hmode hc).trans (congrArg _ (State.dueSign_waits _ hw))
  · exact event_quiet hr (State.takeSignReply_ignored h) hq
  · exact event_quiet hr (State.signTimeout_idle hw) hq
  · rintro b0 b1 b2 l hl before rfl
    exact event_endsWait hr (State.takeSignReply_valid hw hl) (hq.lampsShown l) hheld
  · exact event_endsWait hr (State.signTimeout_counts hw hon) hq.missCounted hheld
  · exact event_endsWait hr (State.signTimeout_off hw hoff) hq hheld
  · obtain ⟨hlast, hlines⟩ := State.sendsHeld_content (u := s.lampsShown l) m (State.lampsShown_mode l) rfl rfl
    exact ⟨_, event_sendsHeld hr (State.takeSignReply_valid hw hl) (hq.lampsShown l) hheld, rfl, hlast, rfl, rfl, rfl, hlines,
      rfl, fun honce => by rw [honce]; rfl⟩
  · by_cases hoff : s.sign.control = .off
    · exact ⟨_, event_sendsHeld hr (State.signTimeout_off hw hoff) hq hheld, rfl, rfl, (if_pos hoff).symm,
        (if_pos hoff).symm, (if_neg fun h => h.1 hoff).symm, rfl, rfl, fun honce => by rw [honce]; rfl⟩
    · obtain ⟨hlast, hlines⟩ := State.sendsHeld_content (u := s.missCounted) m State.missCounted_mode rfl rfl
      refine ⟨_, event_sendsHeld hr (State.signTimeout_counts hw hoff) hq.missCounted hheld, rfl, hlast,
        (if_neg hoff).symm, (if_neg hoff).symm, ?_, hlines, rfl, fun honce => by rw [honce]; rfl⟩
      show s.missCounted.shift = _
      unfold State.missCounted
      simp only [ne_eq, hoff, not_false_eq_true, true_and]
  · exact event_congr (if_pos ⟨hthird, hon⟩)
  · exact event_quiet hr (if_neg fun h => hno.elim (absurd h.1) h.2) hq

end Sys2Proof.Machine
end

section
/-! PROOFS. The distress latch: the hold that sets it, its frames, and the code that clears it (O36). -/
namespace Sys2Proof.Machine
open Sys2Proof

/-! ### The hold timer (R102) -/

section
variable {s : State}

/-- After a change to the latch or its input the hold timer starts where all three conditions then hold. -/
theorem State.startHold_onDistress (h0 : s.addr = 0) (f : Distress → Distress) : (s.onDistress f).startHold =
    { s with distress := { f s.distress with
      hold := if (f s.distress).active = true ∧ (f s.distress).latch = none ∧ (f s.distress).inhibit = none then some 15000
        else (f s.distress).hold } } := by
  have hconsole : (s.onDistress f).isConsole = true := s.isConsole_iff.2 h0
  unfold State.startHold
  simp only [hconsole, true_and, Option.isNone_iff_eq_none, State.onDistress_distress]
  split <;> rfl

theorem exec_distressInputActive (s : State) : exec .distressInputActive s =
    event (fun t => if s.distress.active then t else t.startHold) (s.onDistress fun d => { d with active := true }) := rfl

theorem exec_distressInputInactive (s : State) : exec .distressInputInactive s =
    event (fun t => t.onDistress fun d => { d with hold := none }) (s.onDistress fun d => { d with active := false }) := rfl

theorem exec_startInhibitEnd (s : State) : exec .startInhibitEnd s = event (fun s =>
    if s.distress.inhibit.isSome then (s.onDistress fun d => { d with inhibit := none }).startHold else s) s := rfl

theorem exec_distressHoldExpiry (s : State) : exec .distressHoldExpiry s = event (fun s =>
    if s.distress.hold.isSome ∧ s.distress.latch.isNone then s.setLatch else s) s := rfl

theorem exec_distressPeriod (s : State) : exec .distressPeriod s = event (fun s =>
    if s.distress.period.isSome ∧ s.distress.latch.isSome then s.sendDistress else s) s := rfl

theorem exec_distressClear (d0 d1 d2 d3 : Fin 10) (s : State) : exec (.distressClear d0 d1 d2 d3) s =
    sequenceEvent (isFunctionSeq 9) (fun s => s.clearLatch [d0.val, d1.val, d2.val, d3.val]) s := rfl

/-- The input of station 0 becoming active, by whether it was so and by what the hold timer waits for besides (R102). -/
theorem distressInputActive_starts (hr : s.supply.running = true) (hq : s.Quiet) (h0 : s.addr = 0)
    (hactive : s.distress.active = false) (hlatch : s.distress.latch = none) (hinhibit : s.distress.inhibit = none) :
    exec .distressInputActive s
      = .next (State.signUpdate { s with distress := { s.distress with active := true, hold := some 15000 } }) := by
  rw [exec_distressInputActive]
  refine event_quiet hr ?_ (hq.onDistress fun d => { d with active := true, hold := some 15000 })
  rw [hactive, if_neg Bool.false_ne_true, State.startHold_onDistress h0, if_pos ⟨rfl, hlatch, hinhibit⟩]

theorem distressInputActive_waits (hr : s.supply.running = true) (hq : s.Quiet) (h0 : s.addr = 0)
    (h : s.distress.active = true ∨ s.distress.latch ≠ none ∨ s.distress.inhibit ≠ none) :
    exec .distressInputActive s = .next (State.signUpdate { s with distress := { s.distress with active := true } }) := by
  rw [exec_distressInputActive]
  refine event_quiet hr ?_ (hq.onDistress fun d => { d with active := true })
  split
  · rfl
  · next hactive =>
    have hno : ¬ (s.distress.latch = none ∧ s.distress.inhibit = none) :=
      fun ⟨hlatch, hinhibit⟩ => h.elim hactive fun h => h.elim (· hlatch) (· hinhibit)
    rw [State.startHold_onDistress h0, if_neg fun h => hno h.2]

end

/-! ### The frame (R103, R104) -/

section
variable {s : State}

/-- A DISTRESS offered is queued, or takes the place of the one that waits, or is refused; nothing else comes of it (R81, R82). -/
theorem State.tryOffer_distress {time : Nat} (h : s.distress.latch = some time) : s.tryOffer .distress =
    { s with link := (s.link.offer s.now 0 (encDistress time s.shift.number) .distress).getD s.link } := by
  have hoff : s.offered .distress = some (encDistress time s.shift.number, .distress) := by
    unfold State.offered
    rw [h]
    rfl
  unfold State.tryOffer
  rw [hoff]
  dsimp only [Offer.cls]
  cases s.link.offer s.now 0 (encDistress time s.shift.number) .distress <;> rfl

theorem State.sendDistress_offers (hs : s.silent = false) :
    s.sendDistress = (s.onDistress fun d => { d with period := some 2500 }).offer .distress := by
  unfold State.sendDistress
  rw [hs]
  rfl

theorem State.sendDistress_silent (hs : s.silent = true) :
    s.sendDistress = s.onDistress fun d => { d with period := none } := if_pos hs

/-- An event in which `u` sends a DISTRESS starts the period and ends with the frame offered (R104). -/
theorem event_sendsDistress {f : State → State} {t u : State} {time : Nat} (hr : t.supply.running = true)
    (hf : f t = u.sendDistress) (hq : u.Quiet) (hlatch : u.distress.latch = some time) (hs : u.silent = false) :
    event f t = .next (State.signUpdate { u with
      distress := { u.distress with period := some 2500 }
      link := (u.link.offer u.now 0 (encDistress time u.shift.number) .distress).getD u.link }) := by
  rw [event_one hr (hf.trans (State.sendDistress_offers hs)) (hq.onDistress _),
    State.tryOffer_distress (s := u.onDistress fun d => { d with period := some 2500 }) hlatch]
  rfl

end

/-! ### Setting and clearing the latch (R103, R106) -/

section
variable {s : State}

/-- Station 0 with the latch just set, before its DISTRESS is offered (R103). -/
def State.latched (s : State) : State :=
  { s with distress := { s.distress with latch := some s.clock.seconds, hold := none }
           shift := s.shift.added fun a => { a with distress := min 65535 (a.distress + 1) } }

theorem State.setLatch_eq (s : State) : s.setLatch = s.latched.sendDistress := by
  unfold State.setLatch
  rw [State.account_eq]
  rfl

theorem State.Quiet.latched (h : s.Quiet) : s.latched.Quiet := by
  refine h.of_same rfl ?_ rfl rfl
  unfold State.latched
  rw [Shift.added_fields]

theorem State.latched_number : s.latched.shift.number = s.shift.number := by
  unfold State.latched
  rw [Shift.added_fields]

theorem distressHoldExpiry_sets (hhold : s.distress.hold ≠ none) (hlatch : s.distress.latch = none) :
    (if s.distress.hold.isSome ∧ s.distress.latch.isNone then s.setLatch else s) = s.latched.sendDistress :=
  (if_pos ⟨Option.isSome_iff_ne_none.2 hhold, Option.isNone_iff_eq_none.2 hlatch⟩).trans s.setLatch_eq

theorem State.clearLatch_right (h0 : s.addr = 0) (hlatch : s.distress.latch ≠ none) {im : Image} (him : s.image = some im) :
    s.clearLatch im.clearCode = { s with distress := { s.distress with
      latch := none, period := none
      hold := if s.distress.active = true ∧ s.distress.inhibit = none then some 15000 else s.distress.hold } } := by
  unfold State.clearLatch
  rw [if_pos ⟨Option.isSome_iff_ne_none.2 hlatch, congrArg _ him⟩, State.startHold_onDistress h0]
  simp only [true_and]

theorem State.clearLatch_wrong {ds : List Nat}
    (h : s.distress.latch = none ∨ ∀ im, s.image = some im → im.clearCode ≠ ds) : s.clearLatch ds = s := by
  refine if_neg fun ⟨hset, hcode⟩ => ?_
  obtain hlatch | hwrong := h
  · exact Option.isSome_iff_ne_none.1 hset hlatch
  · obtain ⟨im, him, hds⟩ := Option.map_eq_some_iff.1 hcode
    exact hwrong im him hds

end

/-- Settles O36. -/
theorem distressLatchIsSetByTheHoldAndClearedByTheCode : Obligations.DistressLatchIsSetByTheHoldAndClearedByTheCode := by
  intro s hr hq h0
  refine ⟨distressInputActive_starts hr hq h0, distressInputActive_waits hr hq h0, ?_, fun hinhibit => ?_, fun hover => ?_,
    ?_, fun h => ?_, fun time hp hlatch hs => ?_, fun h => ?_, fun d0 d1 d2 d3 hlow hkeys =>
    ⟨fun im hlatch him hcode => ?_, fun hwrong => ?_⟩⟩
  · rw [exec_distressInputInactive]
    exact event_quiet hr rfl (hq.onDistress fun d => { d with active := false, hold := none })
  · rw [exec_startInhibitEnd]
    refine event_quiet hr ?_ (hq.onDistress fun d => { d with
      inhibit := none, hold := if d.active = true ∧ d.latch = none then some 15000 else d.hold })
    rw [if_pos (Option.isSome_iff_ne_none.2 hinhibit), State.startHold_onDistress h0]
    simp only [and_true]
  · rw [exec_startInhibitEnd]
    exact event_quiet hr (if_neg fun h => Option.isSome_iff_ne_none.1 h hover) hq
  · rintro hhold hlatch shift rfl
    rw [exec_distressHoldExpiry]
    have hsets := distressHoldExpiry_sets hhold hlatch
    refine ⟨fun hs => ?_, fun hs => ?_⟩
    · refine (event_sendsDistress hr hsets hq.latched rfl hs).trans ?_
      rw [State.latched_number]
      rfl
    · exact event_quiet hr (hsets.trans (State.sendDistress_silent hs))
        (hq.latched.onDistress fun d => { d with period := none })
  · rw [exec_distressHoldExpiry]
    refine event_quiet hr (if_neg fun ⟨hhold, hlatch⟩ => ?_) hq
    exact h.elim (Option.isSome_iff_ne_none.1 hhold) fun hset => hset (Option.isNone_iff_eq_none.1 hlatch)
  · rw [exec_distressPeriod]
    refine event_sendsDistress hr (if_pos ⟨Option.isSome_iff_ne_none.2 hp, ?_⟩) hq hlatch hs
    rw [hlatch]
    rfl
  · rw [exec_distressPeriod]
    refine event_quiet hr (if_neg fun ⟨hp, hlatch⟩ => ?_) hq
    exact h.elim (Option.isSome_iff_ne_none.1 hp) (Option.isSome_iff_ne_none.1 hlatch)
  · rw [exec_distressClear, ← hcode]
    exact sequenceEvent_idle hr h0 hlow hkeys (State.clearLatch_right (s := s.endKeys) h0 hlatch him)
      (hq.of_same rfl rfl rfl rfl)
  · rw [exec_distressClear]
    exact sequenceEvent_idle hr h0 hlow hkeys (State.clearLatch_wrong (s := s.endKeys) hwrong) hq

end Sys2Proof.Machine
end

section
/-! PROOFS. What the intercom's operations change, and what of it an event keeps (chapter 7). -/
namespace Sys2Proof.Machine
open Sys2Proof

/-! ### What `State.Kept` reads of the intercom -/

/-- `j` is `i` but for what `State.Kept` leaves open: the events that wait for their frame, and station 0's talk. -/
structure Intercom.Agrees (i j : Intercom) : Prop where
  endState      : j.endState = i.endState
  callTimer     : j.callTimer = i.callTimer
  endTimer      : j.endTimer = i.endTimer
  volume        : j.volume = i.volume
  prompt        : j.prompt = i.prompt
  promptTimer   : j.promptTimer = i.promptTimer
  press         : j.press = i.press
  callers       : j.queue = i.queue
  announceTimer : j.announceTimer = i.announceTimer
  listenSet     : j.listenSet = i.listenSet
  announced     : j.announced = i.announced
  withdrawDue   : j.withdrawDue = i.withdrawDue

theorem Intercom.Agrees.refl (i : Intercom) : i.Agrees i := ⟨rfl, rfl, rfl, rfl, rfl, rfl, rfl, rfl, rfl, rfl, rfl, rfl⟩

/-- The intercom set to `j` after an event that keeps agrees with `i` set before it. -/
theorem State.Kept.setIntercom {s t : State} (h : s.Kept t) {i j : Intercom} (hij : i.Agrees j) :
    ({ s with intercom := i } : State).Kept { t with intercom := j } :=
  { h with
    endState := hij.endState, callTimer := hij.callTimer, endTimer := hij.endTimer, volume := hij.volume
    prompt := hij.prompt, promptTimer := hij.promptTimer, press := hij.press, callers := hij.callers
    announceTimer := hij.announceTimer, listenSet := hij.listenSet, announced := hij.announced
    withdrawDue := hij.withdrawDue }

/-! ### How an event that changes the intercom ends -/

section
variable {f : State → State} {s e u v : State}

theorem event_keeps (hr : s.supply.running = true) (hf : f s = u) (hk : e.Kept u) : ∃ t, event f s = .next t ∧ e.Kept t :=
  event_kept hr (hf ▸ hk)

/-- An intercom event said in an event is queued or held after it, unless the station is LINK_SILENT (R91, R110). -/
theorem State.sayEvent_offered (ev : IntercomEvent) (hawake : u.silent = false) :
    (u.sayEvent ev).settleEvent.Offered (ev ∈ (u.sayEvent ev).settleEvent.intercom.events) 4 (encIntercomEvent ev) := by
  refine State.settleEvent_said (Or.inl ?_)
  unfold State.sayEvent
  rw [hawake]
  exact List.mem_append_right _ List.mem_cons_self

theorem event_says (hr : s.supply.running = true) {ev : IntercomEvent} (hf : f s = u.sayEvent ev) (hk : e.Kept u)
    (hsilent : u.silent = s.silent) : ∃ t, event f s = .next t ∧ e.Kept t
      ∧ (s.silent = false → t.Offered (ev ∈ t.intercom.events) 4 (encIntercomEvent ev)) := by
  refine ⟨_, event_next hr, ?_, fun hawake => ?_⟩
  · rw [hf]
    exact (hk.trans (u.sayEvent_kept ev)).trans (State.settleEvent_kept _)
  · rw [hf]
    exact State.sayEvent_offered ev (hsilent.trans hawake)

theorem frameEvent_quiet {a : Addr} (hr : s.supply.running = true) (hs : s.HearsFrom a) (hf : f s.heardFrame = u)
    (hq : u.Quiet) : frameEvent a f s = .next u.signUpdate :=
  event_quiet hr ((State.hear_other hs f).trans hf) hq

/-- A talk that is not with `a` is not with `a` after the end of an event either (R113). -/
theorem State.settleEvent_apart {a : Addr} (h : v.intercom.talk.partner ≠ some a) :
    v.settleEvent.intercom.talk.partner ≠ some a := by
  obtain htalk | htalk := v.settleEvent_talk
  · rwa [htalk]
  · rw [htalk]
    exact Option.some_ne_none a ∘ Eq.symm

end

/-! ### The operations, block by block -/

section
variable {s : State} (f : State → State)

theorem State.atConsole_console (h0 : s.addr = 0) : s.atConsole f = f s := if_pos (s.isConsole_iff.2 h0)

theorem State.isConsole_seat (h0 : s.addr ≠ 0) : s.isConsole = false := by
  rw [← Bool.not_eq_true, s.isConsole_iff]
  exact h0

theorem State.atConsole_seat (h0 : s.addr ≠ 0) : s.atConsole f = s := by
  unfold State.atConsole
  rw [State.isConsole_seat h0]
  rfl

end

/-- The intercom without this caller (R111). -/
def Intercom.without (i : Intercom) (a : Addr) : Intercom := { i with queue := i.queue.filter fun e => e.addr != a }

/-- The intercom with a talk with `a` ended at station 0's side (R115). -/
def Intercom.parted (i : Intercom) (a : Addr) : Intercom :=
  if i.talk.partner = some a then { i with talk := .none, talkTimer := none } else i

/-- The intercom with its own end IDLE and without a timer. -/
def Intercom.idled (i : Intercom) : Intercom := { i with endState := .idle, callTimer := none, endTimer := none }

theorem State.dropCaller_eq (s : State) (a : Addr) : s.dropCaller a = s.onIntercom fun i => i.without a := rfl

theorem State.idleEnd_eq (s : State) : s.idleEnd = s.onIntercom Intercom.idled := rfl

theorem Intercom.parted_other {i : Intercom} {a : Addr} (h : i.talk.partner ≠ some a) : i.parted a = i := if_neg h

theorem Intercom.parted_apart (i : Intercom) (a : Addr) : (i.parted a).talk.partner ≠ some a := by
  unfold Intercom.parted
  split
  · exact Option.some_ne_none a ∘ Eq.symm
  · assumption

/-- Ending a talk leaves all else of the intercom. -/
theorem Intercom.parted_agrees (i : Intercom) (a : Addr) : i.Agrees (i.parted a) := by
  unfold Intercom.parted
  split
  · exact ⟨rfl, rfl, rfl, rfl, rfl, rfl, rfl, rfl, rfl, rfl, rfl, rfl⟩
  · exact .refl i

/-- A talk that ends with nothing told to the partner is parted at station 0's side alone (R115). -/
theorem State.endTalkWith_untold (s : State) (a : Addr) : s.endTalkWith a false = s.onIntercom fun i => i.parted a := by
  by_cases h : s.intercom.talk.partner = some a
  · unfold State.endTalkWith State.endTalk State.onIntercom Intercom.parted
    dsimp only
    rw [if_pos h, if_pos h, h]
    rfl
  · unfold State.onIntercom
    dsimp only
    rw [Intercom.parted_other h]
    exact if_neg h

end Sys2Proof.Machine
end

section
/-! PROOFS. The intercom and privacy events of a seat (O38). -/
namespace Sys2Proof.Machine
open Sys2Proof

section
variable (a : Addr) (s : State)

theorem exec_callEvent : exec (.callEvent a) s
    = frameEvent a (fun u => u.atConsole fun u => u.onIntercom fun i => i.addCall a) s := rfl

theorem exec_callWithdrawEvent : exec (.callWithdrawEvent a) s
    = frameEvent a (fun u => u.atConsole fun u => (u.dropCaller a).endTalkWith a false) s := rfl

theorem exec_speakerHeldEvent : exec (.speakerHeldEvent a) s
    = frameEvent a (fun u => u.atConsole fun u => u.talkHeld a) s := rfl

theorem exec_speakerFreeEvent : exec (.speakerFreeEvent a) s
    = frameEvent a (fun u => u.atConsole fun u => u.talkFreed a) s := rfl

theorem exec_privacyOnEvent : exec (.privacyOnEvent a) s
    = frameEvent a (fun u => u.atConsole fun u => ((u.showPrivacy a true).dropCaller a).endTalkWith a false) s := rfl

theorem exec_privacyOffEvent : exec (.privacyOffEvent a) s
    = frameEvent a (fun u => u.atConsole fun u => u.showPrivacy a false) s := rfl

end

/-- A call joins the queue of at most 4, or starts its 30 s again; the partner of the talk is no caller (R111). -/
theorem Intercom.addCall_eq (i : Intercom) (a : Addr) : i.addCall a = { i with queue :=
    (if i.talk.partner = some a then i.queue
     else if ∃ e ∈ i.queue, e.addr = a then i.queue.map fun e => if e.addr = a then { e with left := 300000 } else e
     else if i.queue.length < 4 then i.queue ++ [{ addr := a, left := 300000 }]
     else i.queue) } := by
  have hany : (i.queue.any fun e => e.addr == a) = true ↔ ∃ e ∈ i.queue, e.addr = a := by simp
  unfold Intercom.addCall
  by_cases hpartner : i.talk.partner = some a
  · rw [if_pos hpartner, if_pos hpartner]
  rw [if_neg hpartner, if_neg hpartner]
  by_cases hcalls : ∃ e ∈ i.queue, e.addr = a
  · rw [if_pos (hany.2 hcalls), if_pos hcalls]
    rfl
  rw [if_neg (mt hany.1 hcalls), if_neg hcalls]
  by_cases hroom : i.queue.length < 4
  · rw [if_neg (show ¬ callSize ≤ i.queue.length from Nat.not_le.2 hroom), if_pos hroom]
    rfl
  · rw [if_pos (show callSize ≤ i.queue.length from Nat.not_lt.1 hroom), if_neg hroom]

/-- The partner's speaker is held: the talk with it is HELD, and no other (R112). -/
theorem State.talkHeld_eq (s : State) (a : Addr) : s.talkHeld a = { s with intercom :=
    (if s.intercom.talk = .talk a then { s.intercom with talk := .held a } else s.intercom) } := by
  unfold State.talkHeld State.onIntercom
  split <;> rfl

theorem State.talkFreed_eq (s : State) (a : Addr) : s.talkFreed a = { s with intercom :=
    (if s.intercom.talk = .held a then { s.intercom with talk := .talk a } else s.intercom) } := by
  unfold State.talkFreed State.onIntercom
  split <;> rfl

/-- Settles O38. -/
theorem seatEventsReachStationZero : Obligations.SeatEventsReachStationZero := by
  rintro a s hr hs hq heard rfl
  refine ⟨fun h0 => ?_, fun h0 c hc => ?_⟩
  · have hheard {f : State → State} {i : Intercom} {c : Console}
        (hf : f s.heardFrame = { s.heardFrame with intercom := i, console := c }) :
        frameEvent a (fun u => u.atConsole f) s
          = .next (State.signUpdate { s.heardFrame with intercom := i, console := c }) :=
      frameEvent_quiet hr hs ((State.atConsole_console (s := s.heardFrame) f h0).trans hf) (hq.of_same rfl rfl rfl rfl)
    rw [exec_callEvent, exec_callWithdrawEvent, exec_speakerHeldEvent, exec_speakerFreeEvent, exec_privacyOnEvent,
      exec_privacyOffEvent]
    refine ⟨hheard ?_, hheard ?_, hheard (State.talkHeld_eq _ a), hheard (State.talkFreed_eq _ a), hheard ?_, hheard rfl⟩
    · exact congrArg (fun i => ({ s.heardFrame with intercom := i } : State)) (s.intercom.addCall_eq a)
    · rw [State.endTalkWith_untold]
      rfl
    · rw [State.endTalkWith_untold]
      rfl
  · have hignored {f : State → State} : frameEvent a (fun u => u.atConsole f) s = .next s.heardFrame.signUpdate :=
      frameEvent_quiet hr hs (State.atConsole_seat (s := s.heardFrame) f h0) (hq.of_same rfl rfl rfl rfl)
    obtain rfl | rfl | rfl | rfl | rfl | rfl := hc <;> exact hignored

end Sys2Proof.Machine
end

section
/-! PROOFS. The CALL button (O39). -/
namespace Sys2Proof.Machine
open Sys2Proof

section
variable (s : State)

theorem exec_callPressed : exec .callPressed s
    = event (fun u => u.withButtons fun u => u.onIntercom fun i => { i with press := some 20000 }) s := rfl

theorem exec_callShortPress : exec .callShortPress s = event (fun u => u.takePress State.shortPress) s := rfl

theorem exec_callLongPress : exec .callLongPress s = event (fun u => u.takePress State.longPressed) s := rfl

theorem exec_callTimerExpiry : exec .callTimerExpiry s = event (fun u =>
    if u.intercom.endState = .calling ∧ u.intercom.callTimer.isSome then u.idleEnd else u) s := rfl

theorem exec_queueEntryExpiry (a : Addr) : exec (.queueEntryExpiry a) s = event (fun u => u.dropCaller a) s := rfl

end

/-! ### A press that is over (R109, R119) -/

/-- The intercom with no press counted. -/
def Intercom.released (i : Intercom) : Intercom := { i with press := none }

/-- The station with its press over. -/
def State.released (s : State) : State := s.onIntercom Intercom.released

section
variable {s : State} (f : State → State)

theorem State.withButtons_fitted (hb : s.straps.buttons = true) : s.withButtons f = f s := if_pos hb

theorem State.withButtons_none (hb : s.straps.buttons = false) : s.withButtons f = s :=
  if_neg (Bool.eq_false_iff.1 hb)

theorem State.takePress_counted (hb : s.straps.buttons = true) (hp : s.intercom.press ≠ none) :
    s.takePress f = f s.released := if_pos ⟨hb, Option.isSome_iff_ne_none.2 hp⟩

theorem State.takePress_other (h : s.straps.buttons = false ∨ s.intercom.press = none) : s.takePress f = s :=
  if_neg fun ⟨hb, hp⟩ => h.elim (Bool.eq_false_iff.1 · hb) (Option.isSome_iff_ne_none.1 hp)

end

/-! ### Calling and leaving (R109) -/

theorem Intercom.addCall_first {i : Intercom} (ht : i.talk = .none) (hq : i.queue = []) (a : Addr) :
    i.addCall a = { i with queue := [{ addr := a, left := 300000 }] } := by
  unfold Intercom.addCall
  rw [ht, hq]
  rfl

/-- The intercom with its end CALLING for 30 s. -/
def Intercom.calling (i : Intercom) : Intercom := { i with endState := .calling, callTimer := some 300000 }

section
variable {s : State}

theorem State.startCall_seat (h0 : s.addr ≠ 0) : s.startCall = (s.onIntercom Intercom.calling).sayEvent .call := by
  unfold State.startCall
  dsimp only
  rw [State.isConsole_seat (s := s.onIntercom _) h0]
  rfl

theorem State.startCall_console (h0 : s.addr = 0) : s.startCall = s.onIntercom fun i => i.calling.addCall 0 :=
  if_pos (s.isConsole_iff.2 h0)

theorem State.withdrawCall_seat (h0 : s.addr ≠ 0) :
    s.withdrawCall = (s.onIntercom Intercom.idled).sayEvent .callWithdraw := by
  unfold State.withdrawCall
  dsimp only
  rw [State.isConsole_seat (s := s.idleEnd) h0]
  rfl

theorem State.withdrawCall_console (h0 : s.addr = 0) :
    s.withdrawCall = s.onIntercom fun i => (i.idled.without 0).parted 0 := by
  unfold State.withdrawCall
  dsimp only
  rw [if_pos (s.idleEnd.isConsole_iff.2 h0), State.endTalkWith_untold]
  rfl

theorem State.shortPress_calls (he : s.intercom.endState = .idle) (hopen : s.hire.slot.privacy = false) :
    s.shortPress = s.startCall := by
  unfold State.shortPress
  rw [he, hopen]
  rfl

theorem State.shortPress_leaves (he : s.intercom.endState = .calling ∨ s.intercom.endState = .connected) :
    s.shortPress = s.withdrawCall := by
  unfold State.shortPress
  obtain he | he := he <;> rw [he]

theorem State.shortPress_ignored (he : s.intercom.endState = .listen ∨ (∃ w, s.intercom.endState = .held w)
    ∨ (s.intercom.endState = .idle ∧ s.hire.slot.privacy = true)) : s.shortPress = s := by
  unfold State.shortPress
  obtain he | ⟨w, he⟩ | ⟨he, hp⟩ := he <;> rw [he]
  exact if_pos hp

end

/-! ### Privacy (R4, R119) -/

/-- The slot with the privacy flag of an engaged hire as it is set. -/
def Slot.withPrivacy (sl : Slot) (on : Bool) : Slot := sl.mapHire fun x => { x with rc := { x.rc with privacy := on } }

theorem State.setPrivacy_eq (s : State) (on : Bool) :
    s.setPrivacy on = s.onHire fun h => { h with slot := h.slot.withPrivacy on } := rfl

theorem Slot.withPrivacy_privacy {sl : Slot} {h : Hire} (hs : sl.hire? = some h) (on : Bool) :
    (sl.withPrivacy on).privacy = on := by
  cases sl with
  | free => cases hs
  | claiming c => cases hs
  | hired x => rfl
  | stopped x => rfl
  | paying x => rfl

/-- The intercom with an end that privacy has taken from a call or a connection (R119). -/
def Intercom.secluded (i : Intercom) : Intercom :=
  if i.endState = .calling ∨ i.endState = .connected ∨ i.endState = .held .connected then i.idled else i

theorem Intercom.secluded_queue (i : Intercom) : i.secluded.queue = i.queue := by
  unfold Intercom.secluded
  split <;> rfl

section
variable {s : State}

theorem State.privacyEnd_eq : s.privacyEnd =
    if s.isConsole then s.onIntercom fun i => (i.secluded.without 0).parted 0 else s.onIntercom Intercom.secluded := by
  have hleave : ∀ u, u = s.onIntercom Intercom.secluded → (if u.isConsole then (u.dropCaller 0).endTalkWith 0 false else u) =
      if s.isConsole then s.onIntercom fun i => (i.secluded.without 0).parted 0 else s.onIntercom Intercom.secluded := by
    rintro u rfl
    rw [State.endTalkWith_untold]
    rfl
  unfold State.privacyEnd
  refine hleave _ ?_
  unfold State.onIntercom Intercom.secluded
  cases he : s.intercom.endState with
  | held w => cases w <;> simp [State.idleEnd_eq, State.onIntercom]
  | _ => simp [State.idleEnd_eq, State.onIntercom]

theorem State.privacyEnd_seat (h0 : s.addr ≠ 0) : s.privacyEnd = s.onIntercom Intercom.secluded :=
  State.privacyEnd_eq.trans (if_neg (Bool.eq_false_iff.1 (State.isConsole_seat h0)))

theorem State.privacyEnd_console (h0 : s.addr = 0) :
    s.privacyEnd = s.onIntercom fun i => (i.secluded.without 0).parted 0 :=
  State.privacyEnd_eq.trans (if_pos (s.isConsole_iff.2 h0))

theorem State.longPressed_clears {h : Hire} (hs : s.hire.slot.hire? = some h) (hp : h.rc.privacy = true) :
    s.longPressed = (s.setPrivacy false).sayEvent .privacyOff := by
  unfold State.longPressed
  rw [hs]
  exact if_pos hp

theorem State.longPressed_sets {h : Hire} (hs : s.hire.slot.hire? = some h) (hp : h.rc.privacy = false) {u : State}
    (hu : (s.setPrivacy true).privacyEnd = u) : s.longPressed = u.sayEvent .privacyOn := by
  unfold State.longPressed
  rw [hs, ← hu]
  exact if_neg (Bool.eq_false_iff.1 hp)

theorem State.longPressed_vacant (hs : s.hire.slot.hire? = none) : s.longPressed = s := by
  unfold State.longPressed
  rw [hs]

end

/-- An intercom event said in an event keeps all else, and a talk apart from `a` stays apart from it. -/
theorem event_says_apart {f : State → State} {s u : State} {ev : IntercomEvent} {a : Addr} (hr : s.supply.running = true)
    (hf : f s = u.sayEvent ev) (h : u.intercom.talk.partner ≠ some a) :
    ∃ t, event f s = .next t ∧ u.Kept t ∧ t.intercom.talk.partner ≠ some a := by
  have htalk : (u.sayEvent ev).intercom.talk = u.intercom.talk := by
    unfold State.sayEvent
    split <;> rfl
  refine ⟨_, event_next hr, ?_⟩
  rw [hf]
  exact ⟨(u.sayEvent_kept ev).trans (State.settleEvent_kept _), State.settleEvent_apart (by rwa [htalk])⟩

/-- Settles O39. -/
theorem callButtonCallsLeavesAndTogglesPrivacy : Obligations.CallButtonCallsLeavesAndTogglesPrivacy := by
  intro s hr e letGo idle
  rw [exec_callPressed, exec_callTimerExpiry]
  simp only [exec_callShortPress, exec_callLongPress, exec_queueEntryExpiry]
  refine ⟨fun hb => ⟨event_keeps hr (State.withButtons_fitted _ hb) (.refl _), fun hp => ?_⟩, ?_, ?_, fun he hrun => ?_,
    fun h => ?_, fun a => event_kept hr (.refl _)⟩
  · have hover {f : State → State} {u : State} (h : f s.released = u) : s.takePress f = u :=
      (State.takePress_counted f hb hp).trans h
    refine ⟨fun he hopen h0 => ?_, fun he hopen h0 => ?_, fun he h0 => ?_, fun he h0 => ?_, fun he => ?_, fun h hs hpriv => ?_,
      fun h hs hpriv h0 => ?_, fun h hs hpriv h0 => ?_, fun hs => ?_⟩
    · exact event_says hr (hover ((State.shortPress_calls (s := s.released) he hopen).trans
        (State.startCall_seat (s := s.released) h0))) (.refl _) rfl
    · have hcall := hover ((State.shortPress_calls (s := s.released) he hopen).trans
        (State.startCall_console (s := s.released) h0))
      obtain ⟨t, ht, hk⟩ := event_keeps hr hcall (.refl _)
      refine ⟨t, ht, hk.endState.trans ?_, hk.callTimer.trans ?_, fun htalk hqueue => hk.callers.trans ?_⟩
      · rw [State.onIntercom_intercom, Intercom.addCall_eq]
        rfl
      · rw [State.onIntercom_intercom, Intercom.addCall_eq]
        rfl
      · exact congrArg Intercom.queue (Intercom.addCall_first (i := s.released.intercom.calling) htalk hqueue 0)
    · exact event_says hr (hover ((State.shortPress_leaves (s := s.released) he).trans
        (State.withdrawCall_seat (s := s.released) h0))) (.refl _) rfl
    · have hleave := hover ((State.shortPress_leaves (s := s.released) he).trans
        (State.withdrawCall_console (s := s.released) h0))
      refine ⟨_, event_next hr, ?_, ?_⟩
      · rw [hleave]
        exact ((State.Kept.refl s).setIntercom (Intercom.parted_agrees _ 0)).trans (State.settleEvent_kept _)
      · rw [hleave]
        exact State.settleEvent_apart (Intercom.parted_apart _ 0)
    · exact event_keeps hr (hover (State.shortPress_ignored (s := s.released) he)) (.refl _)
    · exact event_says hr (hover (State.longPressed_clears (s := s.released) hs hpriv)) (.refl _) rfl
    · exact event_says hr (hover (State.longPressed_sets (s := s.released) hs hpriv
        (State.privacyEnd_seat (s := s.released.setPrivacy true) h0))) (.refl _) rfl
    · have hsets := hover (State.longPressed_sets (s := s.released) hs hpriv
        (State.privacyEnd_console (s := s.released.setPrivacy true) h0))
      obtain ⟨t, ht, hk, hapart⟩ := event_says_apart (a := 0) hr hsets (Intercom.parted_apart _ 0)
      refine ⟨t, ht, ?_, hapart, hk.callers.trans ((Intercom.parted_agrees _ 0).callers.trans
        (congrArg (List.filter fun x : CallEntry => x.addr != 0) (Intercom.secluded_queue _)))⟩
      rw [hk.slot]
      exact Slot.withPrivacy_privacy hs true
    · exact event_keeps hr (hover (State.longPressed_vacant (s := s.released) hs)) (.refl _)
  · rintro hb c (rfl | rfl | rfl)
    · exact event_keeps (f := fun u => u.withButtons _) hr (State.withButtons_none _ hb) (.refl _)
    · exact event_keeps hr (State.takePress_other _ (Or.inl hb)) (.refl _)
    · exact event_keeps hr (State.takePress_other _ (Or.inl hb)) (.refl _)
  · rintro hp c (rfl | rfl)
    · exact event_keeps hr (State.takePress_other _ (Or.inr hp)) (.refl _)
    · exact event_keeps hr (State.takePress_other _ (Or.inr hp)) (.refl _)
  · exact event_keeps hr (if_pos ⟨he, Option.isSome_iff_ne_none.2 hrun⟩) (.refl _)
  · exact event_keeps hr (if_neg fun ⟨he, hrun⟩ => h.elim (· he) (Option.isSome_iff_ne_none.1 hrun)) (.refl _)

end Sys2Proof.Machine
end

section
/-! PROOFS. The commands of the compartment end, and the audio that follows the ends (O37). -/
namespace Sys2Proof.Machine
open Sys2Proof

/-! ### The audio (R108, R120, R122, R189) -/

section
variable {s : State}

/-- The talk of station 0 with its own end (R108). -/
def State.LocalTalk (s : State) : Prop := s.addr = 0 ∧ (s.intercom.talk = .talk 0 ∨ s.intercom.talk = .held 0)

theorem State.driverRoute_off (h : s.supply.running = false ∨ s.addr ≠ 0) : s.driverRoute = .nothing := by
  refine if_neg fun ⟨hr, hcon⟩ => ?_
  exact h.elim (Bool.eq_false_iff.1 · hr) fun hseat => hseat (s.isConsole_iff.1 hcon)

theorem State.driverRoute_on (hr : s.supply.running = true) (h0 : s.addr = 0) : s.driverRoute = s.intercom.driverRoute :=
  if_pos ⟨hr, s.isConsole_iff.2 h0⟩

theorem Intercom.driverRoute_talk {i : Intercom} {a : Addr} (h : i.talk = .talk a ∨ i.talk = .held a) :
    i.driverRoute = if a = 0 then .ownEnd else .pair := by
  unfold Intercom.driverRoute
  obtain h | h := h <;> rw [h]

theorem Intercom.driverRoute_none {i : Intercom} (h : i.talk = .none) : i.driverRoute = .nothing := by
  unfold Intercom.driverRoute
  rw [h]

theorem Intercom.driverRoute_announce {i : Intercom} (h : i.talk = .announce) : i.driverRoute = .announce := by
  unfold Intercom.driverRoute
  rw [h]

theorem State.driverRoute_eq_ownEnd_iff (hr : s.supply.running = true) : s.driverRoute = .ownEnd ↔ s.LocalTalk := by
  by_cases h0 : s.addr = 0
  · rw [State.driverRoute_on hr h0, State.LocalTalk, Intercom.driverRoute]
    cases s.intercom.talk with
    | talk a | held a => by_cases ha : a = 0 <;> simp [h0, ha]
    | none | announce => simp
  · rw [State.driverRoute_off (Or.inr h0), State.LocalTalk]
    simp [h0]

theorem State.driverRoute_eq_announce_iff (hr : s.supply.running = true) :
    s.driverRoute = .announce ↔ s.addr = 0 ∧ s.intercom.talk = .announce := by
  by_cases h0 : s.addr = 0
  · rw [State.driverRoute_on hr h0, Intercom.driverRoute]
    cases s.intercom.talk with
    | talk a | held a => by_cases ha : a = 0 <;> simp [ha]
    | none | announce => simp [h0]
  · rw [State.driverRoute_off (Or.inr h0)]
    simp [h0]

theorem State.driverHears_eq : s.driverHears = if s.supply.state = .low then .nothing else s.driverSource := by
  by_cases hlow : s.supply.state = .low <;> simp [State.driverHears, State.driverMuted, hlow]

/-- In a talk the driver hears the pair or the own end (R108, R122). -/
theorem State.driver_talks (hr : s.supply.running = true) (h0 : s.addr = 0) {a : Addr}
    (ht : s.intercom.talk = .talk a ∨ s.intercom.talk = .held a) :
    (a ≠ 0 → s.driverRoute = .pair ∧ s.driverHears = if s.supply.state = .low then .nothing else .pair)
      ∧ (a = 0 → s.driverRoute = .ownEnd ∧ s.driverHears = if s.supply.state = .low then .nothing else .ownEnd) := by
  have hroute := (State.driverRoute_on hr h0).trans (Intercom.driverRoute_talk ht)
  refine ⟨fun ha => ?_, fun ha => ?_⟩
  · rw [if_neg ha] at hroute
    rw [State.driverHears_eq, State.driverSource, hroute]
    exact ⟨rfl, rfl⟩
  · rw [if_pos ha] at hroute
    rw [State.driverHears_eq, State.driverSource, hroute]
    exact ⟨rfl, rfl⟩

/-- A driver end on nothing, or in an announce, receives nothing (R108). -/
theorem State.driverHears_nothing (h : s.driverRoute = .nothing ∨ s.driverRoute = .announce) : s.driverHears = .nothing := by
  have hsource : s.driverSource = .nothing := by
    unfold State.driverSource
    obtain h | h := h <;> rw [h]
  rw [State.driverHears_eq, hsource, ite_self]

theorem State.microphone_off (h : s.supply.running = false ∨ s.intercom.endState ≠ .connected) : s.microphone = .nothing :=
  if_neg fun ⟨hr, he⟩ => h.elim (Bool.eq_false_iff.1 · hr) (· he)

theorem State.microphone_on (hr : s.supply.running = true) (he : s.intercom.endState = .connected) :
    s.microphone = if s.driverRoute = .ownEnd then .driverEnd else .pair := if_pos ⟨hr, he⟩

theorem State.speakerMuted_iff : s.speakerMuted = true ↔ s.supply.state = .low ∨ s.intercom.volume = 0 := by
  simp [State.speakerMuted, or_comm]

theorem State.speakerPlays_muted (h : s.supply.state = .low ∨ s.intercom.volume = 0) : s.speakerPlays = .nothing :=
  if_pos (State.speakerMuted_iff.2 h)

theorem State.speakerPlays_stopped (h : s.supply.running = false) : s.speakerPlays = .nothing := by
  unfold State.speakerPlays State.speakerSource
  rw [h]
  exact ite_self _

theorem State.speakerPlays_audible (hlow : s.supply.state ≠ .low) (hv : s.intercom.volume ≠ 0) :
    s.speakerPlays = s.speakerSource := if_neg fun h => (State.speakerMuted_iff.1 h).elim hlow hv

theorem Intercom.speakerOwner_prompt {i : Intercom} (h : i.prompt = true) : i.speakerOwner = .prompt := if_pos h

theorem Intercom.speakerOwner_voice {i : Intercom} (h : i.prompt = false) (he : i.endState = .connected ∨ i.endState = .listen) :
    i.speakerOwner = .voice := by
  unfold Intercom.speakerOwner
  rw [h]
  obtain he | he := he <;> rw [he] <;> rfl

theorem Intercom.speakerOwner_none {i : Intercom} (h : i.prompt = false) (hc : i.endState ≠ .connected)
    (hl : i.endState ≠ .listen) : i.speakerOwner = .none := by
  unfold Intercom.speakerOwner
  rw [h]
  cases he : i.endState with
  | connected => exact absurd he hc
  | listen => exact absurd he hl
  | _ => rfl

/-- The prompt is a tone once its 0.3 s run (R143). -/
theorem State.speakerSource_prompt (hr : s.supply.running = true) (h : s.intercom.prompt = true) :
    s.speakerSource = if s.intercom.promptTimer = none then .prompt else .tone := by
  unfold State.speakerSource
  rw [if_pos hr, Intercom.speakerOwner_prompt h]
  cases s.intercom.promptTimer <;> rfl

theorem State.speakerSource_voice (hr : s.supply.running = true) (h : s.intercom.prompt = false)
    (he : s.intercom.endState = .connected ∨ s.intercom.endState = .listen) : s.speakerSource = s.voiceSource := by
  unfold State.speakerSource
  rw [if_pos hr, Intercom.speakerOwner_voice h he]

theorem State.speakerSource_none (hr : s.supply.running = true) (h : s.intercom.prompt = false)
    (hc : s.intercom.endState ≠ .connected) (hl : s.intercom.endState ≠ .listen) : s.speakerSource = .nothing := by
  unfold State.speakerSource
  rw [if_pos hr, Intercom.speakerOwner_none h hc hl]

theorem State.voiceSource_connected (he : s.intercom.endState = .connected) :
    s.voiceSource = if s.driverRoute = .ownEnd then .driverEnd else .pair := by
  unfold State.voiceSource
  rw [he]
  cases s.driverRoute <;> rfl

theorem State.voiceSource_listen (he : s.intercom.endState = .listen) :
    s.voiceSource = if s.driverRoute = .announce then .driverMicrophone else .pair := by
  unfold State.voiceSource
  rw [he]
  cases s.driverRoute <;> rfl

/-- What the owner of the speaker gives it: the prompt, or a voice from the pair or, in station 0, from the driver end (R108). -/
theorem State.voice_plays (hr : s.supply.running = true) (hp : s.intercom.prompt = false) :
    (s.intercom.endState = .connected → s.LocalTalk → s.speakerSource = .driverEnd)
      ∧ (s.intercom.endState = .connected → ¬ s.LocalTalk → s.speakerSource = .pair)
      ∧ (s.intercom.endState = .listen → s.addr = 0 → s.intercom.talk = .announce → s.speakerSource = .driverMicrophone)
      ∧ (s.intercom.endState = .listen → s.addr ≠ 0 ∨ s.intercom.talk ≠ .announce → s.speakerSource = .pair)
      ∧ (s.intercom.endState ≠ .connected → s.intercom.endState ≠ .listen → s.speakerSource = .nothing) := by
  have hconnected (he : s.intercom.endState = .connected) :=
    (State.speakerSource_voice hr hp (Or.inl he)).trans (State.voiceSource_connected he)
  have hlisten (he : s.intercom.endState = .listen) :=
    (State.speakerSource_voice hr hp (Or.inr he)).trans (State.voiceSource_listen he)
  refine ⟨fun he hlocal => ?_, fun he hlocal => ?_, fun he h0 ht => ?_, fun he h => ?_, State.speakerSource_none hr hp⟩
  · rw [hconnected he, if_pos ((State.driverRoute_eq_ownEnd_iff hr).2 hlocal)]
  · rw [hconnected he, if_neg (mt (State.driverRoute_eq_ownEnd_iff hr).1 hlocal)]
  · rw [hlisten he, if_pos ((State.driverRoute_eq_announce_iff hr).2 ⟨h0, ht⟩)]
  · rw [hlisten he, if_neg fun hroute => ?_]
    obtain ⟨h0, ht⟩ := (State.driverRoute_eq_announce_iff hr).1 hroute
    exact h.elim (· h0) (· ht)

end

end Sys2Proof.Machine
end

section
/-! PROOFS. The commands CONNECT, DISCONNECT, LISTEN and LISTEN_END (O37). -/
namespace Sys2Proof.Machine
open Sys2Proof

/-! ### The end of Table 7-3 -/

/-- The intercom with an end that enters CONNECTED or LISTEN, HELD under a prompt, its 120 s afresh (R114, R118). -/
def Intercom.entering (i : Intercom) (was : HeldState) : Intercom :=
  { i with endState := i.entered was, callTimer := none, endTimer := some 1200000 }

/-- The end after CONNECT (R114). -/
def Intercom.connecting (i : Intercom) : Intercom :=
  match i.endState with
  | .connected => i
  | .held .connected => i
  | .held .listen => { i with endState := .held .connected, endTimer := some 1200000 }
  | _ => i.entering .connected

/-- CONNECT tells that the speaker is held (R114, R120). -/
def Intercom.connectHolds (i : Intercom) : Bool :=
  match i.endState with
  | .connected => false
  | .held _ => true
  | _ => i.prompt

/-- The end after LISTEN (R118). -/
def Intercom.listening (i : Intercom) : Intercom :=
  match i.endState with
  | .listen => i
  | .held .listen => i
  | .held .connected => { i with endState := .held .listen, endTimer := some 1200000 }
  | _ => i.entering .listen

/-- LISTEN tells that the speaker is held (R118, R120). -/
def Intercom.listenHolds (i : Intercom) : Bool :=
  match i.endState with
  | .listen => false
  | .held _ => false
  | _ => i.prompt

/-- The end after DISCONNECT (R114). -/
def Intercom.disconnecting (i : Intercom) : Intercom :=
  match i.endState with
  | .idle => i
  | .calling => i
  | _ => i.idled

/-- The end after LISTEN_END (R118). -/
def Intercom.listenEnding (i : Intercom) : Intercom :=
  match i.endState with
  | .listen => i.idled
  | .held .listen => i.idled
  | _ => i

/-- The station with its end moved, and the hold of its speaker told where `holds` says so (R110, R120). -/
def State.moved (s : State) (i : Intercom) (holds : Bool) : State :=
  if holds then ({ s with intercom := i } : State).saySpeakerHeld else { s with intercom := i }

section
variable (s : State)

theorem State.enterEnd_eq (was : HeldState) : s.enterEnd was = s.moved (s.intercom.entering was) s.intercom.prompt := rfl

theorem State.connectEnd_eq : s.connectEnd = s.moved s.intercom.connecting s.intercom.connectHolds := by
  unfold State.connectEnd Intercom.connecting Intercom.connectHolds
  cases s.intercom.endState with
  | held w => cases w <;> rfl
  | _ => rfl

theorem State.disconnectEnd_eq : s.disconnectEnd = s.moved s.intercom.disconnecting false := by
  unfold State.disconnectEnd Intercom.disconnecting
  cases s.intercom.endState <;> rfl

theorem State.listenEnd_eq : s.listenEnd = s.moved s.intercom.listening s.intercom.listenHolds := by
  unfold State.listenEnd Intercom.listening Intercom.listenHolds
  cases s.intercom.endState with
  | held w => cases w <;> rfl
  | _ => rfl

theorem State.listenEndEnd_eq : s.listenEndEnd = s.moved s.intercom.listenEnding false := by
  unfold State.listenEndEnd Intercom.listenEnding
  cases s.intercom.endState with
  | held w => cases w <;> rfl
  | _ => rfl

end

/-! ### What moving the end leaves -/

section
variable (s : State) (i : Intercom) (holds : Bool)

theorem State.moved_kept : ({ s with intercom := i } : State).Kept (s.moved i holds) := by
  unfold State.moved
  split
  · exact State.saySpeakerHeld_kept _
  · exact .refl _

theorem State.saySpeakerHeld_form : ∃ j os, s.saySpeakerHeld = { s with intercom := j, offers := os }
    ∧ (j.talk = .none ↔ s.intercom.talk = .none) := by
  unfold State.saySpeakerHeld
  split
  · rw [State.talkHeld_eq]
    refine ⟨_, s.offers, rfl, ?_⟩
    split
    · next ht => simp [ht]
    · exact Iff.rfl
  · unfold State.sayEvent
    split
    · exact ⟨s.intercom, s.offers, rfl, Iff.rfl⟩
    · exact ⟨_, _, rfl, Iff.rfl⟩

/-- Moving the end touches the intercom and what is offered, and opens and ends no talk. -/
theorem State.moved_form : ∃ j os, s.moved i holds = { s with intercom := j, offers := os }
    ∧ (j.talk = .none ↔ i.talk = .none) := by
  unfold State.moved
  split
  · exact State.saySpeakerHeld_form { s with intercom := i }
  · exact ⟨i, s.offers, rfl, Iff.rfl⟩

theorem State.moved_says (h0 : s.addr ≠ 0) (hawake : s.silent = false) :
    .speakerHeld ∈ (s.moved i true).intercom.events := by
  have hseat : ({ s with intercom := i } : State).isConsole = false := State.isConsole_seat h0
  show .speakerHeld ∈ (State.saySpeakerHeld { s with intercom := i }).intercom.events
  unfold State.saySpeakerHeld State.sayEvent
  rw [hseat, show ({ s with intercom := i } : State).silent = false from hawake]
  exact List.mem_append_right _ List.mem_cons_self

end

theorem Intercom.connecting_talk (i : Intercom) : i.connecting.talk = i.talk := by
  unfold Intercom.connecting
  repeat' split
  all_goals rfl

/-! ### How a command of the end is answered -/

theorem State.replyTo_events (s : State) (src : Source) (seq : Nat) (r : Reply) :
    (s.replyTo src seq r).intercom.events = s.intercom.events := by
  cases src with
  | localKey =>
    obtain ⟨c, i, hform, hevents⟩ := s.consoleReply_form 0 seq r
    exact (congrArg (fun u : State => u.intercom.events) hform).trans hevents
  | frame a b =>
    unfold State.replyTo
    dsimp only
    split <;> rfl

section
variable {s e v : State} {src : Source} {seq : Nat} {f : State → State} (hr : s.supply.running = true) (hs : s.Hears src)
include hr hs

/-- A heard command that is done: what it keeps, its reply, and SPEAKER_HELD queued or held where it has been said. -/
theorem commandEvent_done (hf : f (s.took src seq) = v.replyTo src seq .done) (hk : e.Kept v)
    (hcmds : v.console.cmds = (s.took src seq).console.cmds) (hsilent : v.silent = s.silent) :
    ∃ t, commandEvent src seq f s = .next t ∧ s.Replied t src seq .done ∧ e.Kept t
      ∧ (.speakerHeld ∈ v.intercom.events →
        t.Offered (.speakerHeld ∈ t.intercom.events) 4 (encIntercomEvent .speakerHeld)) := by
  have htaken := (State.command_heard (seq := seq) hs f).trans hf
  obtain ⟨t, ht, hkt, hrep⟩ := event_replied (f := fun u => u.command src seq f) hr htaken hk (State.took_pending hcmds) hsilent
  refine ⟨t, ht, hrep, hkt, fun hsaid => ?_⟩
  cases (event_next hr).symm.trans ht
  rw [htaken]
  exact State.settleEvent_said (Or.inl (by rwa [State.replyTo_events]))

/-- A heard command that moves the end. -/
theorem commandEvent_moves {i : Intercom} {holds : Bool}
    (hf : f (s.took src seq) = ((s.took src seq).moved i holds).replyTo src seq .done) :
    ∃ t, commandEvent src seq f s = .next t ∧ s.Replied t src seq .done ∧ ({ s with intercom := i } : State).Kept t
      ∧ (s.addr ≠ 0 → s.silent = false → holds = true →
        t.Offered (.speakerHeld ∈ t.intercom.events) 4 (encIntercomEvent .speakerHeld)) := by
  have hk := ((s.took_kept src seq).setIntercom (.refl i)).trans ((s.took src seq).moved_kept i holds)
  obtain ⟨j, os, hform, -⟩ := (s.took src seq).moved_form i holds
  obtain ⟨t, ht, hrep, hkt, hoff⟩ := commandEvent_done hr hs hf hk (by rw [hform]) hk.clash
  refine ⟨t, ht, hrep, hkt, fun h0 hawake hholds => hoff ?_⟩
  subst hholds
  exact State.moved_says _ i (by rw [State.addr, State.took_straps]; exact h0) ((s.took_silent src seq).trans hawake)

end

end Sys2Proof.Machine
end

section
/-! PROOFS. The statement about the commands of the end and the audio (O37). -/
namespace Sys2Proof.Machine
open Sys2Proof

/-! ### Table 7-3, row by row -/

section
variable {i : Intercom}

theorem Intercom.disconnecting_leaves (h : i.endState = .connected ∨ i.endState = .listen ∨ ∃ w, i.endState = .held w) :
    i.disconnecting = i.idled := by
  unfold Intercom.disconnecting
  obtain h | h | ⟨w, h⟩ := h <;> rw [h]

theorem Intercom.disconnecting_same (h : i.endState = .idle ∨ i.endState = .calling) : i.disconnecting = i := by
  unfold Intercom.disconnecting
  obtain h | h := h <;> rw [h]

theorem Intercom.listenEnding_leaves (h : i.endState = .listen ∨ i.endState = .held .listen) : i.listenEnding = i.idled := by
  unfold Intercom.listenEnding
  obtain h | h := h <;> rw [h]

theorem Intercom.listenEnding_same (h : i.endState = .idle ∨ i.endState = .calling ∨ i.endState = .connected
    ∨ i.endState = .held .connected) : i.listenEnding = i := by
  unfold Intercom.listenEnding
  obtain h | h | h | h := h <;> rw [h]

theorem Intercom.listening_enters (h : i.endState = .idle ∨ i.endState = .calling ∨ i.endState = .connected) :
    i.listening = i.entering .listen := by
  unfold Intercom.listening
  obtain h | h | h := h <;> rw [h]

theorem Intercom.listening_same (h : i.endState = .listen ∨ i.endState = .held .listen) : i.listening = i := by
  unfold Intercom.listening
  obtain h | h := h <;> rw [h]

theorem Intercom.listening_held (h : i.endState = .held .connected) :
    i.listening = { i with endState := .held .listen, endTimer := some 1200000 } := by
  unfold Intercom.listening
  rw [h]

theorem Intercom.connecting_enters (h : i.endState = .idle ∨ i.endState = .calling ∨ i.endState = .listen) :
    i.connecting = i.entering .connected := by
  unfold Intercom.connecting
  obtain h | h | h := h <;> rw [h]

theorem Intercom.connecting_same (h : i.endState = .connected ∨ i.endState = .held .connected) : i.connecting = i := by
  unfold Intercom.connecting
  obtain h | h := h <;> rw [h]

theorem Intercom.connecting_held (h : i.endState = .held .listen) :
    i.connecting = { i with endState := .held .connected, endTimer := some 1200000 } := by
  unfold Intercom.connecting
  rw [h]

theorem Intercom.connectHolds_of (h : (∃ w, i.endState = .held w)
    ∨ (i.prompt = true ∧ (i.endState = .idle ∨ i.endState = .calling ∨ i.endState = .listen))) : i.connectHolds = true := by
  unfold Intercom.connectHolds
  obtain ⟨w, h⟩ | ⟨hp, h | h | h⟩ := h <;> rw [h]
  all_goals exact hp

theorem Intercom.listenHolds_of (hp : i.prompt = true)
    (h : i.endState = .idle ∨ i.endState = .calling ∨ i.endState = .connected) : i.listenHolds = true := by
  unfold Intercom.listenHolds
  obtain h | h | h := h <;> rw [h] <;> exact hp

end

/-! ### CONNECT (R113, R114) -/

section
variable (s : State) (src : Source) (seq : Nat)

theorem exec_connect : exec (.connect src seq) s = commandEvent src seq (fun u => u.takeConnect src seq) s := rfl

theorem exec_disconnect : exec (.disconnect src seq) s
    = commandEvent src seq (fun u => u.disconnectEnd.replyTo src seq .done) s := rfl

theorem exec_listen : exec (.listen src seq) s = commandEvent src seq (fun u => u.listenEnd.replyTo src seq .done) s := rfl

theorem exec_listenEnd : exec (.listenEnd src seq) s
    = commandEvent src seq (fun u => u.listenEndEnd.replyTo src seq .done) s := rfl

end

section
variable {s : State} {src : Source} {seq : Nat}

theorem State.connectEnd_talk : s.connectEnd.intercom.talk = .none ↔ s.intercom.talk = .none := by
  obtain ⟨j, os, hform, htalk⟩ := s.moved_form s.intercom.connecting s.intercom.connectHolds
  rw [State.connectEnd_eq, hform]
  exact htalk.trans (by rw [Intercom.connecting_talk])

theorem State.takeConnect_opens (hopen : s.hire.slot.privacy = false) (h : src = .localKey ∧ s.intercom.talk = .none) :
    s.takeConnect src seq = s.connectEnd.openOwnTalk.replyTo src seq .done := by
  unfold State.takeConnect
  rw [hopen]
  exact congrArg (State.replyTo · src seq .done) (if_pos ⟨h.1, State.connectEnd_talk.2 h.2⟩)

theorem State.takeConnect_moves (hopen : s.hire.slot.privacy = false) (h : ¬ (src = .localKey ∧ s.intercom.talk = .none)) :
    s.takeConnect src seq = s.connectEnd.replyTo src seq .done := by
  unfold State.takeConnect
  rw [hopen]
  exact congrArg (State.replyTo · src seq .done) (if_neg fun hopens => h ⟨hopens.1, State.connectEnd_talk.1 hopens.2⟩)

theorem State.leaveTalk_eq (s : State) (a : Addr) : s.leaveTalk a = s.onIntercom fun i => i.parted a := by
  unfold State.leaveTalk State.onIntercom Intercom.parted
  dsimp only
  split <;> rfl

/-- A reply taken leaves the message of the driver display as it is set. -/
theorem State.consoleReply_message (a : Addr) (r : Reply) (m : Option Message) :
    (s.consoleReply a seq r).onConsole (fun c => { c with message := m })
      = (s.onConsole fun c => { c with message := m }).consoleReply a seq r := by
  unfold State.consoleReply
  simp only [State.onConsole_console]
  cases s.console.cmds.get a with
  | none => rfl
  | some p =>
    dsimp only
    by_cases hseq : p.seq = seq
    · rw [if_pos hseq, if_pos hseq, State.leaveTalk_eq, State.leaveTalk_eq]
      split <;> rfl
    · rw [if_neg hseq, if_neg hseq]

/-- A CONNECT refused by privacy shows it, and is answered as any refusal (R113). -/
theorem State.takeConnect_private (hpriv : s.hire.slot.privacy = true) :
    s.takeConnect src seq = (s.showRefusal src).refuse src seq .privacy := by
  have hshow : (s.refuse src seq .privacy).showRefusal src = (s.showRefusal src).refuse src seq .privacy := by
    cases src with
    | frame a b => rfl
    | localKey => exact State.consoleReply_message 0 _ _
  exact (if_pos hpriv).trans hshow

/-- Opening the own end's talk takes its call out of the queue, and nothing else that an event keeps (R113). -/
theorem State.openOwnTalk_kept {v : State} {i : Intercom} (h : ({ s with intercom := i } : State).Kept v) :
    ({ s with intercom := i.without 0 } : State).Kept v.openOwnTalk :=
  { h with callers := congrArg (List.filter fun e : CallEntry => e.addr != 0) h.callers }

theorem connect_moves (hr : s.supply.running = true) (hs : s.Hears src) (hopen : s.hire.slot.privacy = false) :
    ∃ t, exec (.connect src seq) s = .next t ∧ s.Replied t src seq .done
      ∧ ({ s with intercom := if src = .localKey ∧ s.intercom.talk = .none then s.intercom.connecting.without 0
            else s.intercom.connecting } : State).Kept t
      ∧ (s.addr ≠ 0 → s.silent = false → s.intercom.connectHolds = true →
        t.Offered (.speakerHeld ∈ t.intercom.events) 4 (encIntercomEvent .speakerHeld)) := by
  rw [exec_connect]
  have hopen' : (s.took src seq).hire.slot.privacy = false := by rwa [State.took_hire]
  have hmoved : (s.took src seq).connectEnd = (s.took src seq).moved s.intercom.connecting s.intercom.connectHolds := by
    rw [State.connectEnd_eq, State.took_intercom]
  by_cases h : src = .localKey ∧ s.intercom.talk = .none
  · have hk := State.openOwnTalk_kept (((s.took_kept src seq).setIntercom (.refl s.intercom.connecting)).trans
      ((s.took src seq).moved_kept _ s.intercom.connectHolds))
    obtain ⟨j, os, hform, -⟩ := (s.took src seq).moved_form s.intercom.connecting s.intercom.connectHolds
    rw [if_pos h]
    obtain ⟨t, ht, hrep, hkt, -⟩ := commandEvent_done (f := fun u => u.takeConnect src seq) hr hs
      ((State.takeConnect_opens hopen' (by rwa [State.took_intercom])).trans (by rw [hmoved])) hk (by rw [hform]; rfl) hk.clash
    refine ⟨t, ht, hrep, hkt, fun h0 => ?_⟩
    obtain ⟨rfl, -⟩ := h
    exact absurd hs h0
  · rw [if_neg h]
    exact commandEvent_moves hr hs ((State.takeConnect_moves hopen' (by rwa [State.took_intercom])).trans (by rw [hmoved]))

/-- CONNECT at an end with privacy is refused (R114). -/
theorem connect_refused (hr : s.supply.running = true) (hs : s.Hears src) (hpriv : s.hire.slot.privacy = true) :
    ∃ t, exec (.connect src seq) s = .next t ∧ s.Kept t ∧ s.Replied t src seq (.refused .privacy) := by
  have hrefused := (State.command_heard (f := fun u => u.takeConnect src seq) (seq := seq) hs).trans
    (State.takeConnect_private (s := s.took src seq) (src := src) (seq := seq) (by rwa [State.took_hire]))
  have hkept : s.Kept ((s.took src seq).showRefusal src) := by
    refine (s.took_kept src seq).trans ?_
    unfold State.showRefusal
    split
    · exact { State.Kept.refl (s.took src seq) with }
    · exact .refl _
  refine event_replied (f := fun u => u.command src seq fun u => u.takeConnect src seq) hr hrefused hkept
    (State.took_pending (src := src) ?_) hkept.clash
  unfold State.showRefusal
  split <;> rfl

end

/-- DISCONNECT, LISTEN and LISTEN_END move the end by their row; LISTEN alone can tell a held speaker. -/
theorem otherEndCommand_moves {s : State} {src : Source} {seq : Nat} {c : Instr} {i : Intercom} (hr : s.supply.running = true)
    (hs : s.Hears src) (h : (c = .disconnect src seq ∧ i = s.intercom.disconnecting)
      ∨ (c = .listen src seq ∧ i = s.intercom.listening) ∨ (c = .listenEnd src seq ∧ i = s.intercom.listenEnding)) :
    c ≠ .connect src seq ∧ ∃ holds, (c = .listen src seq → holds = s.intercom.listenHolds)
      ∧ ∃ t, exec c s = .next t ∧ s.Replied t src seq .done ∧ ({ s with intercom := i } : State).Kept t
        ∧ (s.addr ≠ 0 → s.silent = false → holds = true →
          t.Offered (.speakerHeld ∈ t.intercom.events) 4 (encIntercomEvent .speakerHeld)) := by
  obtain ⟨rfl, rfl⟩ | ⟨rfl, rfl⟩ | ⟨rfl, rfl⟩ := h
  · refine ⟨Instr.noConfusion, false, Instr.noConfusion, ?_⟩
    rw [exec_disconnect]
    exact commandEvent_moves hr hs (by rw [State.disconnectEnd_eq, State.took_intercom])
  · refine ⟨Instr.noConfusion, _, fun _ => rfl, ?_⟩
    rw [exec_listen]
    exact commandEvent_moves hr hs (by rw [State.listenEnd_eq, State.took_intercom])
  · refine ⟨Instr.noConfusion, false, Instr.noConfusion, ?_⟩
    rw [exec_listenEnd]
    exact commandEvent_moves hr hs (by rw [State.listenEndEnd_eq, State.took_intercom])

/-- Settles O37. -/
theorem intercomCommandsMoveTheEnd : Obligations.IntercomCommandsMoveTheEnd := by
  refine ⟨?_, ?_⟩
  · intro s localTalk
    refine ⟨fun hr => ?_, fun h0 => ?_, fun hr h0 => ⟨fun a => State.driver_talks hr h0, fun ht => ?_, fun ht => ?_⟩,
      fun hr => ⟨fun he hlocal => ?_, fun he hlocal => ?_, fun he => State.microphone_off (Or.inr he), State.speakerPlays_muted,
        fun hlow hv => ?_⟩⟩
    · have hroute : s.driverRoute = .nothing := State.driverRoute_off (Or.inl hr)
      exact ⟨hroute, State.driverHears_nothing (Or.inl hroute), State.microphone_off (Or.inl hr), State.speakerPlays_stopped hr⟩
    · have hroute : s.driverRoute = .nothing := State.driverRoute_off (Or.inr h0)
      exact ⟨hroute, State.driverHears_nothing (Or.inl hroute)⟩
    · have hroute := (State.driverRoute_on hr h0).trans (Intercom.driverRoute_announce ht)
      exact ⟨hroute, State.driverHears_nothing (Or.inr hroute)⟩
    · have hroute := (State.driverRoute_on hr h0).trans (Intercom.driverRoute_none ht)
      exact ⟨hroute, State.driverHears_nothing (Or.inl hroute)⟩
    · rw [State.microphone_on hr he, if_pos ((State.driverRoute_eq_ownEnd_iff hr).2 hlocal)]
    · rw [State.microphone_on hr he, if_neg (mt (State.driverRoute_eq_ownEnd_iff hr).1 hlocal)]
    · rw [State.speakerPlays_audible hlow hv]
      exact ⟨State.speakerSource_prompt hr, State.voice_plays hr⟩
  · intro src seq s i c hr hs e open'
    refine ⟨fun h => ?_, ?_⟩
    · have hrow : (open' ∧ i = s.intercom.connecting) ∨ (c = .disconnect src seq ∧ i = s.intercom.disconnecting)
          ∨ (c = .listen src seq ∧ i = s.intercom.listening) ∨ (c = .listenEnd src seq ∧ i = s.intercom.listenEnding) := by
        obtain ⟨⟨hc, he⟩ | ⟨hc, he⟩, hi⟩ | ⟨⟨hc, he⟩ | ⟨hc, he⟩ | ⟨hc, he⟩ | ⟨hc, he⟩, hi⟩ | ⟨⟨hc, he⟩, hi⟩ | ⟨⟨hc, he⟩, hi⟩
          | ⟨⟨hc, he⟩, hi⟩ | ⟨⟨hc, he⟩, hi⟩ := h
        · exact Or.inr (Or.inl ⟨hc, hi.trans (Intercom.disconnecting_leaves he).symm⟩)
        · exact Or.inr (Or.inr (Or.inr ⟨hc, hi.trans (Intercom.listenEnding_leaves he).symm⟩))
        · exact Or.inr (Or.inl ⟨hc, hi.trans (Intercom.disconnecting_same he).symm⟩)
        · exact Or.inr (Or.inr (Or.inr ⟨hc, hi.trans (Intercom.listenEnding_same he).symm⟩))
        · exact Or.inr (Or.inr (Or.inl ⟨hc, hi.trans (Intercom.listening_same he).symm⟩))
        · exact Or.inl ⟨hc, hi.trans (Intercom.connecting_same he).symm⟩
        · exact Or.inl ⟨hc, hi.trans (Intercom.connecting_enters he).symm⟩
        · exact Or.inr (Or.inr (Or.inl ⟨hc, hi.trans (Intercom.listening_enters he).symm⟩))
        · exact Or.inl ⟨hc, hi.trans (Intercom.connecting_held he).symm⟩
        · exact Or.inr (Or.inr (Or.inl ⟨hc, hi.trans (Intercom.listening_held he).symm⟩))
      obtain ⟨ho, rfl⟩ | hother := hrow
      · obtain ⟨t, ht, hrep, hk, hoff⟩ := connect_moves (seq := seq) hr hs ho.2
        refine ⟨t, ho.1 ▸ ht, hrep, ?_, fun h0 hawake htold => hoff h0 hawake ?_⟩
        · rw [if_congr (and_iff_right ho) rfl rfl]
          exact hk
        · obtain ⟨-, hh⟩ | ⟨hc, -⟩ := htold
          · exact Intercom.connectHolds_of hh
          · exact absurd (hc.symm.trans ho.1) Instr.noConfusion
      · obtain ⟨hno, holds, hlisten, t, ht, hrep, hk, hoff⟩ := otherEndCommand_moves hr hs hother
        refine ⟨t, ht, hrep, ?_, fun h0 hawake htold => hoff h0 hawake ?_⟩
        · rw [if_neg fun ho => hno ho.1.1]
          exact hk
        · obtain ⟨ho, -⟩ | ⟨hc, hp, he⟩ := htold
          · exact absurd ho.1 hno
          · exact (hlisten hc).trans (Intercom.listenHolds_of hp he)
    · rintro rfl hpriv
      exact connect_refused hr hs hpriv

end Sys2Proof.Machine
end

section
/-! PROOFS. The passenger buttons, the timers of the payment, and the passenger display (O45). -/
namespace Sys2Proof.Machine
open Sys2Proof

section
variable (s : State)

theorem exec_passengerUp : exec .passengerUp s = event (fun u => u.withButtons State.pressUp) s := rfl

theorem exec_passengerDown : exec .passengerDown s = event (fun u => u.withButtons State.pressDown) s := rfl

theorem exec_passengerOk : exec .passengerOk s = event (fun u => u.withButtons State.pressOk) s := rfl

theorem exec_tipTimerExpiry : exec .tipTimerExpiry s = event State.tipExpires s := rfl

theorem exec_overallTimerExpiry : exec .overallTimerExpiry s = event (fun u =>
    if u.pay.overall.isSome then (u.onPay fun p => { p with overall := none }).requestCancel else u) s := rfl

theorem exec_outcomeDisplayExpiry : exec .outcomeDisplayExpiry s
    = event (fun u => if u.display.timer.isSome then u.hireChanged else u) s := rfl

theorem exec_volumeDisplayExpiry : exec .volumeDisplayExpiry s
    = event (fun u => u.onDisplay fun d => { d with volumeTimer := none }) s := rfl

end

/-! ### The passenger display (R178, R179, R189) -/

/-- What the passenger display shows of a running station outside LOW (R178). -/
def State.passengerShow (s : State) : PassengerDisplay :=
  { hire := s.hire.slot.shownHire, tips := s.tipShow, outcome := s.display.outcome, change := s.display.change
    privacy := s.hire.slot.privacy, endShown := s.intercom.endState
    volume := s.display.volumeTimer.map fun _ => s.intercom.volume }

section
variable {s : State}

theorem State.passengerDisplay_blank (h : s.supply.running = false ∨ s.supply.state = .low) : s.passengerDisplay = none :=
  if_neg fun ⟨hr, hlow⟩ => h.elim (Bool.eq_false_iff.1 · hr) hlow

theorem State.passengerDisplay_lit (hr : s.supply.running = true) (hlow : s.supply.state ≠ .low) :
    s.passengerDisplay = some s.passengerShow := if_pos ⟨hr, hlow⟩

theorem Slot.shownHire_vacant {sl : Slot} (h : sl = .free ∨ ∃ c, sl = .claiming c) : sl.shownHire = .vacant := by
  obtain rfl | ⟨c, rfl⟩ := h <;> rfl

theorem Slot.shownHire_owed {sl : Slot} {h : Hire} (hs : sl = .stopped h ∨ sl = .paying h) {due : Nat}
    (hdue : h.rc.due = some due) : sl.shownHire =
      .owed due h.rc.tip (if h.rc.tenders = [] then none else some h.rc.remaining) h.rc.level h.figures := by
  have howed : sl.shownHire = owedShow h := by obtain rfl | rfl := hs <;> rfl
  rw [howed, owedShow, hdue]
  cases h.rc.tenders <;> rfl

theorem State.tipShow_other (h : ∀ c, s.pay.session ≠ .tipSelect c) : s.tipShow = none := by
  unfold State.tipShow
  cases hs : s.pay.session with
  | tipSelect c => exact absurd hs (h c)
  | _ => rfl

theorem State.tipShow_tips {c : Nat} {im : Image} {h : Hire} {due : Nat} (hs : s.pay.session = .tipSelect c)
    (him : s.image = some im) (hh : s.hire.slot.hire? = some h) (hdue : h.rc.due = some due) :
    s.tipShow = some (c, im.tips.map fun pct => (pct, (due * pct + 50) / 100)) := by
  unfold State.tipShow State.tipOptions
  rw [hs, him, hh]
  dsimp only [Option.bind_some]
  rw [hdue]
  rfl

theorem State.passengerShow_volume :
    s.passengerShow.volume = if s.display.volumeTimer = none then none else some s.intercom.volume := by
  unfold State.passengerShow
  cases s.display.volumeTimer <;> rfl

end

/-! ### The volume (R121) -/

section
variable {s : State}

/-- A set volume is kept as it is set, and shown for 3 s where it has changed. -/
theorem State.setVolume_eq (v : Nat) : s.setVolume v = { s with
    intercom := { s.intercom with volume := v }
    display := (if v = s.intercom.volume then s.display else { s.display with volumeTimer := some 30000 }) } := by
  unfold State.setVolume
  by_cases h : v = s.intercom.volume
  · rw [if_pos h, if_pos h, h]
  · rw [if_neg h, if_neg h]
    rfl

section
variable (h : ∀ c, s.pay.session ≠ .tipSelect c)
include h

theorem State.pressUp_volume : s.pressUp = s.setVolume (min 7 (s.intercom.volume + 1)) := by
  unfold State.pressUp
  cases hs : s.pay.session with
  | tipSelect c => exact absurd hs (h c)
  | _ => rfl

theorem State.pressDown_volume : s.pressDown = s.setVolume (s.intercom.volume - 1) := by
  unfold State.pressDown
  cases hs : s.pay.session with
  | tipSelect c => exact absurd hs (h c)
  | _ => rfl

theorem State.pressOk_other : s.pressOk = s := by
  unfold State.pressOk
  cases hs : s.pay.session with
  | tipSelect c => exact absurd hs (h c)
  | _ => rfl

theorem State.tipExpires_other : s.tipExpires = s := by
  unfold State.tipExpires
  cases hs : s.pay.session with
  | tipSelect c => exact absurd hs (h c)
  | _ => rfl

end

/-! ### The tip step (R133 to R135) -/

section
variable {c : Nat} (hs : s.pay.session = .tipSelect c)
include hs

theorem State.pressUp_cursor : s.pressUp = s.onPay fun p => { p with session := .tipSelect (c - 1) } := by
  unfold State.pressUp
  rw [hs]

theorem State.pressDown_cursor {im : Image} (him : s.image = some im) :
    s.pressDown = s.onPay fun p => { p with session := .tipSelect (min (c + 1) (im.tips.length - 1)) } := by
  unfold State.pressDown State.tipOptions
  rw [hs, him]
  rfl

theorem State.pressOk_tip {im : Image} (him : s.image = some im) {pct : Nat} (hpct : im.tips[c]? = some pct) :
    s.pressOk = s.storeTip pct := by
  unfold State.pressOk State.tipOptions
  rw [hs, him]
  dsimp only [Option.map_some, Option.getD_some]
  rw [List.getD_eq_getElem?_getD, hpct]
  rfl

theorem State.tipExpires_tip : s.tipExpires = s.storeTip 0 := by
  unfold State.tipExpires
  rw [hs]

end

/-- The station with a tip written into the record of its hire, and the display cleared (R134). -/
def State.tipped (s : State) (h : Hire) : State :=
  { s with hire := { s.hire with slot := .paying h }, display := s.display.cleared }

theorem State.storeTip_paying {h : Hire} (hslot : s.hire.slot = .paying h) {due : Nat} (hdue : h.rc.due = some due) (pct : Nat)
    {h' : Hire} (hh : h' = { h with rc := { h.rc with tip := some ((due * pct + 50) / 100) } }) :
    s.storeTip pct = (s.tipped h').formRequest h' := by
  have htip : tipAmount (h.rc.due.getD 0) pct = (due * pct + 50) / 100 := by
    rw [hdue]
    rfl
  unfold State.storeTip
  rw [hslot, hh, ← htip]
  rfl

theorem State.formRequest_waits (h : Hire) (hm : s.card.moduleState ≠ .outOfService) (hm' : s.card.moduleState ≠ .absent) :
    s.formRequest h = s.onPay fun p => { p with session := .cardWait h.cardSession, tipTimer := none } := by
  unfold State.formRequest
  cases hms : s.card.moduleState with
  | outOfService => exact absurd hms hm
  | absent => exact absurd hms hm'
  | _ => rfl

theorem State.formRequest_unavailable (h : Hire) (hm : s.card.moduleState = .outOfService ∨ s.card.moduleState = .absent) :
    s.formRequest h = s.endWith .cardUnavailable := by
  unfold State.formRequest
  obtain hm | hm := hm <;> rw [hm]

/-- The request after a tip carries it while no tender stands (R135). -/
theorem Hire.cardSession_tipped {h h' : Hire} {tip : Nat} (hh : h' = { h with rc := { h.rc with tip := some tip } }) :
    h'.cardSession = { amount := h'.rc.remaining, tip := if h.rc.tenders = [] then tip else 0
                       txn := none, cancelReq := false, cancelSent := false } := by
  subst hh
  unfold Hire.cardSession
  cases h.rc.tenders <;> rfl

end

/-- A cancel asked for in CARD_WAIT or ENQUIRY (R140). -/
theorem State.requestCancel_active {s : State} {q : CardSession} {session : Session}
    (h : (s.pay.session = .cardWait q ∧ session = .cardWait { q with cancelReq := true })
      ∨ (s.pay.session = .enquiry q ∧ session = .enquiry { q with cancelReq := true })) :
    s.requestCancel = s.onPay fun p => { p with session := session } := by
  unfold State.requestCancel State.onPay
  dsimp only
  obtain ⟨hs, rfl⟩ | ⟨hs, rfl⟩ := h <;> rw [hs]

/-- Settles O45. -/
theorem passengerButtonsChooseTipAndVolume : Obligations.PassengerButtonsChooseTipAndVolume := by
  refine ⟨fun s => ⟨State.passengerDisplay_blank, fun hr hlow => ⟨_, State.passengerDisplay_lit hr hlow, Slot.shownHire_vacant,
    fun h hs => congrArg Slot.shownHire hs, fun h due hs hdue => ⟨h.figures, Slot.shownHire_owed hs hdue, ?_⟩,
    State.tipShow_other, fun c im h due => State.tipShow_tips, rfl, rfl, rfl, rfl, State.passengerShow_volume⟩⟩, ?_⟩
  · exact ⟨rfl, rfl, rfl, rfl, rfl, rfl, hdue, rfl, rfl, rfl, rfl⟩
  · intro s hr
    rw [exec_passengerUp, exec_passengerDown, exec_passengerOk, exec_tipTimerExpiry, exec_overallTimerExpiry,
      exec_outcomeDisplayExpiry, exec_volumeDisplayExpiry]
    have hpress {f : State → State} {u e : State} (hb : s.straps.buttons = true) (hf : f s = u) (hk : e.Kept u) :
        ∃ t, event (fun u => u.withButtons f) s = .next t ∧ e.Kept t :=
      event_keeps (f := fun u => u.withButtons f) hr ((State.withButtons_fitted f hb).trans hf) hk
    have hplain {f : State → State} {u : State} (hf : f s = u) : ∃ t, event f s = .next t ∧ u.Kept t :=
      event_keeps hr hf (.refl u)
    refine ⟨fun hb c hs => ⟨hpress hb (State.pressUp_cursor hs) (.refl _),
        fun im him => hpress hb (State.pressDown_cursor hs him) (.refl _)⟩, ?_,
      fun hb hs => ⟨?_, hpress hb (State.pressOk_other hs) (.refl s)⟩, ?_, fun hs => hplain (State.tipExpires_other hs), ?_,
      fun h => hplain (if_neg (by simp [h])), fun h => hplain (if_pos (Option.isSome_iff_ne_none.2 h)),
      fun h => hplain (if_neg (by simp [h])), hplain rfl⟩
    · rintro c h due pct cmd hs hslot hdue hcmd h' hh u rfl
      obtain ⟨f, hexec, hf⟩ : ∃ f, exec cmd s = event f s ∧ f s = s.storeTip pct := by
        obtain ⟨rfl, hb, im, him, hpct⟩ | ⟨rfl, rfl⟩ := hcmd
        · exact ⟨_, exec_passengerOk s, (State.withButtons_fitted _ hb).trans (State.pressOk_tip hs him hpct)⟩
        · exact ⟨_, exec_tipTimerExpiry s, State.tipExpires_tip hs⟩
      rw [hexec]
      have hstored := hf.trans (State.storeTip_paying hslot hdue pct hh)
      refine ⟨fun hm hm' => ?_, fun hm => ?_⟩
      · refine event_keeps hr (hstored.trans (State.formRequest_waits (s := s.tipped h') h' hm hm')) ?_
        rw [← Hire.cardSession_tipped hh]
        exact .refl _
      · exact event_keeps hr (hstored.trans (State.formRequest_unavailable (s := s.tipped h') h' hm)) (.refl _)
    · rintro cmd v (⟨rfl, rfl⟩ | ⟨rfl, rfl⟩)
      · exact hpress hb ((State.pressUp_volume hs).trans (State.setVolume_eq _)) (.refl _)
      · exact hpress hb ((State.pressDown_volume hs).trans (State.setVolume_eq _)) (.refl _)
    · rintro hb c (rfl | rfl | rfl)
      all_goals exact event_keeps (f := fun u => u.withButtons _) hr (State.withButtons_none _ hb) (.refl s)
    · rintro hrun q session hs
      exact event_keeps hr ((if_pos (Option.isSome_iff_ne_none.2 hrun)).trans
        (State.requestCancel_active (s := s.onPay fun p => { p with overall := none }) hs)) (.refl _)

end Sys2Proof.Machine
end

section
/-! PROOFS. The console's commands for an end: formed, answered at once by the own end, deferred (R173 to R176). -/
namespace Sys2Proof.Machine
open Sys2Proof

theorem Quad.set_set {α : Type} (q : Quad α) (a : Addr) (x y : α) : (q.set a x).set a y = q.set a y := by
  match a with
  | 0 => rfl
  | 1 => rfl
  | 2 => rfl
  | 3 => rfl

/-! ### A command at station 0's own end (log entry 16) -/

/-- The end after DISCONNECT, LISTEN or LISTEN_END (Table 7-3). -/
def Intercom.commanded (i : Intercom) (cmd : Cmd) : Intercom :=
  match cmd with
  | .disconnect => i.disconnecting
  | .listen => i.listening
  | .listenEnd => i.listenEnding
  | _ => i

/-- The console with a command for its own end formed, taken and answered (R173). -/
def Console.answering (c : Console) : Console :=
  { c with
    cmds := c.cmds.set 0 none, nextSeq := (c.nextSeq + 1) % 16
    lastReply := c.lastReply.set 0 (some (.reply .done)) }

section
variable {s : State}

theorem State.formCommand_seat {a : Addr} (ha : a ≠ 0) (cmd : Cmd) :
    s.formCommand a cmd = (s.onConsole fun c => c.forming s.now a cmd).offer (.command a) := if_neg ha

theorem State.formCommand_own (cmd : Cmd) : s.formCommand 0 cmd = s.onConsole fun c => c.forming s.now 0 cmd := rfl

/-- A reply that pairs with the pending command ends it, and with it no talk unless a CONNECT is refused (R115, R174). -/
theorem State.consoleReply_taken {a : Addr} {p : PendCmd} (h : s.console.cmds.get a = some p) {r : Reply}
    (hstay : r = .done ∨ s.intercom.talk.partner ≠ some a) : s.consoleReply a p.seq r
      = s.onConsole fun c => { c with cmds := c.cmds.set a none, lastReply := c.lastReply.set a (some (.reply r)) } := by
  unfold State.consoleReply
  rw [h]
  dsimp only
  rw [if_pos rfl]
  split
  · next hrefused =>
    exact if_neg fun hpartner => hstay.elim hrefused.2 (· hpartner)
  · rfl

/-- At station 0 the own end's speaker is told held to its own talk alone (R120). -/
theorem State.saySpeakerHeld_console (h0 : s.addr = 0) (ht : s.intercom.talk ≠ .talk 0) : s.saySpeakerHeld = s :=
  (if_pos (s.isConsole_iff.2 h0)).trans (if_neg ht)

theorem State.moved_console (h0 : s.addr = 0) {i : Intercom} (ht : i.talk ≠ .talk 0) (holds : Bool) :
    s.moved i holds = { s with intercom := i } := by
  unfold State.moved
  split
  · exact State.saySpeakerHeld_console (s := { s with intercom := i }) h0 ht
  · rfl

theorem Intercom.listening_talk (i : Intercom) : i.listening.talk = i.talk := by
  unfold Intercom.listening
  repeat' split
  all_goals rfl

theorem State.endCommand_own (h0 : s.addr = 0) (ht : s.intercom.talk ≠ .talk 0) (cmd : Cmd) :
    s.endCommand cmd = { s with intercom := s.intercom.commanded cmd } := by
  cases cmd with
  | disconnect => exact s.disconnectEnd_eq
  | listen => exact s.listenEnd_eq.trans (State.moved_console h0 (by rwa [Intercom.listening_talk]) _)
  | listenEnd => exact s.listenEndEnd_eq
  | _ => rfl

/-- The own end takes its command in the event that forms it, and its reply returns directly (log entry 16). -/
theorem State.giveCommand_own (h0 : s.addr = 0) (ht : s.intercom.talk ≠ .talk 0) (cmd : Cmd) : s.giveCommand 0 cmd
    = { s with intercom := s.intercom.commanded cmd, console := s.console.answering } := by
  have hpend : ((s.formCommand 0 cmd).endCommand cmd).console.cmds.get 0
      = some { cmd := cmd, seq := s.console.nextSeq, formed := s.now, claiming := false, handed := false, limit := none } := by
    rw [State.endCommand_own (s := s.formCommand 0 cmd) h0 ht]
    exact Quad.get_set_same s.console.cmds 0 _
  have htaken := State.consoleReply_taken hpend (r := .done) (Or.inl rfl)
  rw [State.endCommand_own (s := s.formCommand 0 cmd) h0 ht] at htaken
  unfold State.giveCommand
  rw [if_pos rfl, State.endCommand_own (s := s.formCommand 0 cmd) h0 ht]
  refine htaken.trans ?_
  rw [State.formCommand_own]
  unfold State.onConsole Console.forming Console.answering
  dsimp only
  rw [Quad.set_set]

theorem State.dueCommand_own (h0 : s.addr = 0) (ht : s.intercom.talk ≠ .talk 0) (cmd : Cmd) (hready : s.console.ready 0 = true) :
    s.dueCommand 0 cmd = { s with intercom := s.intercom.commanded cmd, console := s.console.answering } :=
  (if_pos hready).trans (State.giveCommand_own h0 ht cmd)

theorem Console.ready_iff {c : Console} {a : Addr} : c.ready a = true ↔ c.cmds.get a = none ∧ c.deferred.get a = [] := by
  simp [Console.ready]

theorem Console.not_ready_iff {c : Console} {a : Addr} : c.ready a = false ↔ c.cmds.get a ≠ none ∨ c.deferred.get a ≠ [] := by
  rw [← Bool.not_eq_true, Console.ready_iff, not_and_or]

/-! ### The offer of a COMMAND, answered (R81, R113, R173) -/

section
variable {a : Addr} {p : PendCmd} (h : s.console.cmds.get a = some p)
include h

theorem State.offered_command : s.offered (.command a) = some (encCommand a p.seq p.cmd, .command a p.seq) :=
  congrArg (Option.map fun p : PendCmd => (encCommand a p.seq p.cmd, Tag.command a p.seq)) h

theorem State.tryOffer_command_taken {l : Link}
    (hl : s.link.offer s.now 2 (encCommand a p.seq p.cmd) (.command a p.seq) = some l) :
    s.tryOffer (.command a) = { s with link := l } := by
  unfold State.tryOffer
  rw [State.offered_command h]
  dsimp only
  rw [show Offer.cls (.command a) = 2 from rfl, hl]
  rfl

theorem State.tryOffer_command_refused (hl : s.link.offer s.now 2 (encCommand a p.seq p.cmd) (.command a p.seq) = none)
    (hcmd : p.cmd ≠ .connect) : s.tryOffer (.command a)
      = { s with console := { s.console with cmds := s.console.cmds.set a none, message := some (.linkBusy a) } } := by
  unfold State.tryOffer
  rw [State.offered_command h]
  dsimp only
  rw [show Offer.cls (.command a) = 2 from rfl, hl]
  dsimp only [State.offerRefused]
  rw [h]
  exact if_neg (by simp [hcmd])

end

end

end Sys2Proof.Machine
end

section
/-! PROOFS. TALK: a talk opened and ended at station 0 (O40). -/
namespace Sys2Proof.Machine
open Sys2Proof

section
variable (s : State)

theorem exec_talkKey : exec .talkKey s = sequenceEvent alone State.takeTalk s := rfl

theorem exec_talkTimerExpiry : exec .talkTimerExpiry s
    = event (fun u => if u.intercom.talkTimer.isSome then u.endTalk true else u) s := rfl

end

/-- A sequence completed from the idle state, and the end of its event. -/
theorem sequenceEvent_next {own : KeySeq → Bool} {f : State → State} {s v : State} (hr : s.supply.running = true)
    (h0 : s.addr = 0) (hlow : s.supply.state ≠ .low) (hkeys : s.console.keys = .idle) (hf : f s.endKeys = v) :
    sequenceEvent own f s = .next v.settleEvent := by
  have htaken : s.keysTaken = true := by
    rw [State.keysTaken, s.isConsole_iff.2 h0]
    exact bne_iff_ne.2 hlow
  refine (event_next hr).trans (congrArg (fun u : State => Host.Outcome.next u.settleEvent) ?_)
  exact (if_pos htaken).trans ((if_pos (Or.inl hkeys)).trans hf)

/-- In LOW no key is taken (R179). -/
theorem sequenceEvent_low {own : KeySeq → Bool} {f : State → State} {s : State} (hr : s.supply.running = true) (hq : s.Quiet)
    (hlow : s.supply.state = .low) : sequenceEvent own f s = .next s.signUpdate := by
  refine event_quiet hr (if_neg ?_) hq
  rw [State.keysTaken, hlow]
  simp

/-! ### What TALK does (R113, R115) -/

section
variable {s : State} {a : Addr}

theorem State.takeTalk_announce (h : s.intercom.talk = .announce) : s.takeTalk = s := by
  unfold State.takeTalk
  rw [h]

theorem Talk.partner_eq_some_iff {x : Talk} : x.partner = some a ↔ x = .talk a ∨ x = .held a := by
  cases x <;> simp [Talk.partner]

theorem State.endTalk_told (h : s.intercom.talk.partner = some a) : s.endTalk true = s.detachTalk.dueCommand a .disconnect := by
  unfold State.endTalk
  rw [h]
  rfl

theorem State.takeTalk_ends (h : s.intercom.talk.partner = some a) :
    s.takeTalk = s.detachTalk.dueCommand a .disconnect := by
  rw [← State.endTalk_told h]
  unfold State.takeTalk
  obtain h | h := Talk.partner_eq_some_iff.1 h <;> rw [h]

theorem State.takeTalk_caller (h : s.intercom.talk = .none) (hc : ∃ left rest, s.intercom.queue = { addr := a, left := left } :: rest) :
    s.takeTalk = s.talkTo a := by
  obtain ⟨left, rest, hqueue⟩ := hc
  unfold State.takeTalk
  rw [h, hqueue]

theorem State.takeTalk_selected (h : s.intercom.talk = .none) (hqueue : s.intercom.queue = []) (hsel : s.console.selected = a)
    (hp : a = 0 ∨ (s.peer.rows.get a).present = true) : s.takeTalk = s.talkTo a := by
  subst hsel
  unfold State.takeTalk
  rw [h, hqueue]
  refine if_neg fun ⟨hseat, habsent⟩ => hp.elim hseat fun hp => ?_
  rw [hp] at habsent
  exact Bool.false_ne_true habsent

theorem State.takeTalk_absent (h : s.intercom.talk = .none) (hqueue : s.intercom.queue = []) (hsel : s.console.selected = a)
    (ha : a ≠ 0) (hp : (s.peer.rows.get a).present = false) : s.takeTalk = s.say (.stationAbsent a) := by
  subst hsel
  unfold State.takeTalk
  rw [h, hqueue]
  exact if_pos ⟨ha, by rw [hp]; rfl⟩

theorem State.talkTo_busy (h : s.console.ready a = false) : s.talkTo a = s.say (.wait a) :=
  if_neg (Bool.eq_false_iff.1 h)

/-- A talk with a seat is opened: the seat is no caller any more, and its CONNECT is formed and offered (R113). -/
theorem State.talkTo_seat (ha : a ≠ 0) (h : s.console.ready a = true) : s.talkTo a
    = (({ s with
        intercom := { s.intercom.without a with talk := .talk a, talkTimer := some 1200000 }
        console := s.console.forming s.now a .connect } : State).offer (.command a)) := by
  have hopens : s.talkTo a = (({ s with intercom := { s.intercom.without a with talk := .talk a, talkTimer := some 1200000 } }
      : State).formCommand a .connect) := (if_pos h).trans (if_neg ha)
  rw [hopens, State.formCommand_seat ha]
  rfl

/-- The intercom of station 0 with its own end taken into a talk, HELD under a prompt (R113). -/
def Intercom.ownTalk (i : Intercom) : Intercom :=
  { (i.entering .connected).without 0 with talk := if i.prompt then .held 0 else .talk 0, talkTimer := some 1200000 }

theorem State.openOwnTalk_entering (s : State) (i : Intercom) :
    ({ s with intercom := i.entering .connected } : State).openOwnTalk = { s with intercom := i.ownTalk } := by
  have htalk : (match i.entered .connected with
      | .held _ => .held 0
      | _ => .talk 0) = (if i.prompt then .held 0 else .talk 0 : Talk) := by
    unfold Intercom.entered
    cases i.prompt <;> rfl
  unfold Intercom.ownTalk
  rw [← htalk]
  rfl

section
variable (h : s.console.ready 0 = true)
include h

theorem State.talkTo_own : s.talkTo 0 = (s.formCommand 0 .connect).takeConnect .localKey s.console.nextSeq :=
  (if_pos h).trans (if_pos rfl)

/-- The own end's talk is opened within the event, with its reply (R113, log entry 16). -/
theorem State.talkTo_own_opens (h0 : s.addr = 0) (hopen : s.hire.slot.privacy = false) (ht : s.intercom.talk = .none)
    (he : s.intercom.endState = .idle ∨ s.intercom.endState = .calling) :
    s.talkTo 0 = { s with intercom := s.intercom.ownTalk, console := s.console.answering } := by
  have hconnected : (s.formCommand 0 .connect).connectEnd
      = { s.formCommand 0 .connect with intercom := s.intercom.entering .connected } := by
    rw [State.connectEnd_eq, State.moved_console (s := s.formCommand 0 .connect) h0]
    · exact congrArg (fun i => ({ s.formCommand 0 .connect with intercom := i } : State))
        (Intercom.connecting_enters (he.imp_right Or.inl))
    · rw [Intercom.connecting_talk]
      exact ht ▸ Talk.noConfusion
  rw [State.talkTo_own h, State.takeConnect_opens (s := s.formCommand 0 .connect) hopen ⟨rfl, ht⟩, hconnected,
    State.openOwnTalk_entering]
  refine (State.consoleReply_taken (s := { s.formCommand 0 .connect with intercom := s.intercom.ownTalk })
    (Quad.get_set_same s.console.cmds 0 _) (Or.inl rfl)).trans ?_
  rw [State.formCommand_own]
  unfold State.onConsole Console.forming Console.answering
  dsimp only
  rw [Quad.set_set]

/-- Privacy refuses the own end's CONNECT, which opens no talk (R113). -/
theorem State.talkTo_own_private (hpriv : s.hire.slot.privacy = true) (ht : s.intercom.talk = .none) :
    s.talkTo 0 = { s with console := { s.console.forming s.now 0 .connect with
      message := some .privacyRefused, cmds := s.console.cmds.set 0 none
      lastReply := s.console.lastReply.set 0 (some (.reply (.refused .privacy))) } } := by
  rw [State.talkTo_own h, State.takeConnect_private (s := s.formCommand 0 .connect) hpriv]
  refine (State.consoleReply_taken (s := (s.formCommand 0 .connect).showRefusal .localKey)
    (Quad.get_set_same s.console.cmds 0 _) (Or.inr ?_)).trans ?_
  · rw [show ((s.formCommand 0 .connect).showRefusal .localKey).intercom.talk = .none from ht]
    simp [Talk.partner]
  · rw [State.formCommand_own]
    unfold State.showRefusal State.onConsole Console.forming
    rw [if_pos rfl]
    dsimp only
    rw [Quad.set_set]

end

end

end Sys2Proof.Machine
end

section
/-! PROOFS. The end of an event of the TALK key, and of the talk's 120 s (R113, R115, R176; O40). -/
namespace Sys2Proof.Machine
open Sys2Proof

theorem Intercom.disconnecting_eq (i : Intercom) :
    i.disconnecting = if i.endState = .idle ∨ i.endState = .calling then i else i.idled := by
  split
  · next h => exact Intercom.disconnecting_same h
  · next h =>
    refine Intercom.disconnecting_leaves ?_
    cases he : i.endState with
    | idle => exact absurd (Or.inl he) h
    | calling => exact absurd (Or.inr he) h
    | connected => exact Or.inl rfl
    | listen => exact Or.inr (Or.inl rfl)
    | held w => exact Or.inr (Or.inr ⟨w, rfl⟩)

theorem Console.ready_of {c : Console} {a : Addr} (hc : c.cmds.get a = none) (hd : c.deferred.get a = []) :
    c.ready a = true := Console.ready_iff.2 ⟨hc, hd⟩

theorem Console.deferring_room {c : Console} {a : Addr} {cmd : Cmd} (h : (c.deferred.get a).length < 2) :
    c.deferring a cmd = { c with deferred := c.deferred.set a (c.deferred.get a ++ [cmd]) } := by
  unfold Console.deferring
  rw [if_pos h]

theorem Console.deferring_full {c : Console} {a : Addr} {cmd : Cmd} (h : 2 ≤ (c.deferred.get a).length) :
    c.deferring a cmd = c := by
  unfold Console.deferring
  rw [if_neg (Nat.not_lt.2 h)]

/-! ### A COMMAND formed, and the end of its event (R173) -/

section
variable {w : State} {a : Addr} {l : Link} {cmd : Cmd} (hq : w.Quiet)
include hq

theorem State.settleEvent_command_taken {p : PendCmd} (hp : w.console.cmds.get a = some p)
    (hl : w.link.offer w.now 2 (encCommand a p.seq p.cmd) (.command a p.seq) = some l) :
    (w.offer (.command a)).settleEvent = ({ w with link := l } : State).signUpdate := by
  rw [State.settleEvent_offer hq, State.tryOffer_command_taken hp hl]

section
variable (ha : a ≠ 0) (hready : w.console.ready a = true)
include ha hready

theorem State.settleEvent_due_taken
    (hl : w.link.offer w.now 2 (encCommand a w.console.nextSeq cmd) (.command a w.console.nextSeq) = some l) :
    (w.dueCommand a cmd).settleEvent
      = ({ w with link := l, console := w.console.forming w.now a cmd } : State).signUpdate := by
  rw [State.dueCommand_ready cmd ha hready]
  exact State.settleEvent_command_taken (hq.of_same rfl rfl rfl rfl) (Quad.get_set_same w.console.cmds a _) hl

theorem State.settleEvent_due_refused (hcmd : cmd ≠ .connect)
    (hl : w.link.offer w.now 2 (encCommand a w.console.nextSeq cmd) (.command a w.console.nextSeq) = none) :
    (w.dueCommand a cmd).settleEvent = ({ w with console := { w.console.forming w.now a cmd with
      cmds := w.console.cmds.set a none, message := some (.linkBusy a) } } : State).signUpdate := by
  rw [State.dueCommand_ready cmd ha hready,
    State.settleEvent_offer (s := w.onConsole fun c => c.forming w.now a cmd) (hq.of_same rfl rfl rfl rfl),
    State.tryOffer_command_refused (s := w.onConsole fun c => c.forming w.now a cmd)
      (Quad.get_set_same w.console.cmds a _) hl hcmd]
  unfold State.onConsole Console.forming
  dsimp only
  rw [Quad.set_set]

end

/-- A command due for station 0's own end is taken, answered and done with in its event. -/
theorem State.settleEvent_due_own (h0 : w.addr = 0) (ht : w.intercom.talk ≠ .talk 0) (hready : w.console.ready 0 = true) :
    (w.dueCommand 0 cmd).settleEvent
      = ({ w with intercom := w.intercom.commanded cmd, console := w.console.answering } : State).signUpdate := by
  rw [State.dueCommand_own h0 ht cmd hready]
  exact State.settleEvent_quiet (hq.of_same rfl rfl rfl rfl)

theorem State.settleEvent_due_busy (hbusy : w.console.ready a = false) :
    (w.dueCommand a cmd).settleEvent = ({ w with console := w.console.deferring a cmd } : State).signUpdate := by
  rw [State.dueCommand_busy cmd hbusy]
  exact State.settleEvent_quiet (hq.of_same rfl rfl rfl rfl)

end

/-! ### The key opens a talk (R113) -/

section
variable {s : State} {a : Addr} (hr : s.supply.running = true) (h0 : s.addr = 0) (hq : s.Quiet)
  (hlow : s.supply.state ≠ .low) (hkeys : s.console.keys = .idle)

/-- The first caller, or the selected station where no one calls and it is no seat that is absent. -/
def State.TalksTo (s : State) (a : Addr) : Prop :=
  (∃ left rest, s.intercom.queue = { addr := a, left := left } :: rest)
    ∨ (s.intercom.queue = [] ∧ s.console.selected = a ∧ (a = 0 ∨ (s.peer.rows.get a).present = true))

theorem State.takeTalk_opens (ht : s.intercom.talk = .none) (hto : s.TalksTo a) : s.takeTalk = s.talkTo a := by
  obtain hcaller | ⟨hqueue, hsel, hp⟩ := hto
  · exact State.takeTalk_caller ht hcaller
  · exact State.takeTalk_selected ht hqueue hsel hp

include hr h0 hq hlow hkeys

/-- A seat's talk, its CONNECT queued. -/
theorem talkKey_opens_seat (ht : s.intercom.talk = .none) (hto : s.TalksTo a) (ha : a ≠ 0)
    (hready : s.console.ready a = true) {l : Link}
    (hl : s.link.offer s.now 2 (encCommand a s.console.nextSeq .connect) (.command a s.console.nextSeq) = some l) :
    exec .talkKey s = .next ({ s with
      link := l
      intercom := { s.intercom.without a with talk := .talk a, talkTimer := some 1200000 }
      console := s.console.ended.forming s.now a .connect } : State).signUpdate := by
  have htakes : s.endKeys.takeTalk = _ :=
    (State.takeTalk_opens (s := s.endKeys) ht hto).trans (State.talkTo_seat ha hready)
  rw [exec_talkKey, sequenceEvent_next hr h0 hlow hkeys htakes]
  exact congrArg _ (State.settleEvent_command_taken (hq.of_same rfl rfl rfl rfl) (Quad.get_set_same s.console.cmds a _) hl)

theorem talkKey_waits (ht : s.intercom.talk = .none) (hto : s.TalksTo a) (hbusy : s.console.ready a = false) :
    exec .talkKey s = .next (State.signUpdate { s with console := { s.console.ended with message := some (.wait a) } }) := by
  rw [exec_talkKey]
  exact sequenceEvent_idle hr h0 hlow hkeys
    ((State.takeTalk_opens (s := s.endKeys) ht hto).trans (State.talkTo_busy hbusy)) (hq.of_same rfl rfl rfl rfl)

/-- A talk with the own end, opened within the event. -/
theorem talkKey_opens_own (ht : s.intercom.talk = .none) (hto : s.TalksTo 0) (hready : s.console.ready 0 = true)
    (hopen : s.hire.slot.privacy = false) (he : s.intercom.endState = .idle ∨ s.intercom.endState = .calling) :
    exec .talkKey s = .next (State.signUpdate { s with
      intercom := s.intercom.ownTalk, console := s.console.ended.answering }) := by
  rw [exec_talkKey]
  exact sequenceEvent_idle hr h0 hlow hkeys
    ((State.takeTalk_opens (s := s.endKeys) ht hto).trans (State.talkTo_own_opens (s := s.endKeys) hready h0 hopen ht he))
    (hq.of_same rfl rfl rfl rfl)

theorem talkKey_refused_own (ht : s.intercom.talk = .none) (hto : s.TalksTo 0) (hready : s.console.ready 0 = true)
    (hpriv : s.hire.slot.privacy = true) :
    exec .talkKey s = .next (State.signUpdate { s with console := { s.console.ended.forming s.now 0 .connect with
      message := some .privacyRefused, cmds := s.console.cmds.set 0 none
      lastReply := s.console.lastReply.set 0 (some (.reply (.refused .privacy))) } }) := by
  rw [exec_talkKey]
  exact sequenceEvent_idle hr h0 hlow hkeys
    ((State.takeTalk_opens (s := s.endKeys) ht hto).trans (State.talkTo_own_private (s := s.endKeys) hready hpriv ht))
    (hq.of_same rfl rfl rfl rfl)

end

/-! ### The key, or the time, ends a talk (R115, R116) -/

/-- The commands that end a talk, and the console they leave: the key's, from the idle state, and the expiry of the 120 s. -/
theorem exec_talk_ends {s : State} {c : Instr} {cons : Console} {a : Addr} (hr : s.supply.running = true) (h0 : s.addr = 0)
    (hc : (c = .talkKey ∧ s.supply.state ≠ .low ∧ s.console.keys = .idle ∧ cons = s.console.ended)
      ∨ (c = .talkTimerExpiry ∧ s.intercom.talkTimer ≠ none ∧ cons = s.console)) (hp : s.intercom.talk.partner = some a) :
    exec c s = .next (({ s with console := cons } : State).detachTalk.dueCommand a .disconnect).settleEvent := by
  obtain ⟨rfl, hlow, hkeys, rfl⟩ | ⟨rfl, htimer, rfl⟩ := hc
  · rw [exec_talkKey]
    exact sequenceEvent_next hr h0 hlow hkeys (State.takeTalk_ends (s := s.endKeys) hp)
  · rw [exec_talkTimerExpiry, event_next hr, if_pos (Option.isSome_iff_ne_none.2 htimer), State.endTalk_told hp]

/-- What the two commands leave of the console is what R173 and R176 read of it. -/
theorem Console.ended_or_same {s : State} {c : Instr} {cons : Console}
    (hc : (c = .talkKey ∧ s.supply.state ≠ .low ∧ s.console.keys = .idle ∧ cons = s.console.ended)
      ∨ (c = .talkTimerExpiry ∧ s.intercom.talkTimer ≠ none ∧ cons = s.console)) :
    cons.cmds = s.console.cmds ∧ cons.deferred = s.console.deferred ∧ cons.nextSeq = s.console.nextSeq
      ∧ cons.lastReply = s.console.lastReply := by
  obtain ⟨-, -, -, rfl⟩ | ⟨-, -, rfl⟩ := hc <;> exact ⟨rfl, rfl, rfl, rfl⟩

section
variable {w : State} {a : Addr} (hq : w.Quiet)

/-- The intercom with a talk ended at station 0's side (R115). -/
def Intercom.detached (i : Intercom) : Intercom := { i with talk := .none, talkTimer := none }

include hq

theorem talk_ends_seat (ha : a ≠ 0) (hready : w.console.ready a = true) :
    ∀ t, t = (w.detachTalk.dueCommand a .disconnect).settleEvent → t.intercom = w.intercom.detached
      ∧ (∀ l, w.link.offer w.now 2 (encCommand a w.console.nextSeq .disconnect) (.command a w.console.nextSeq) = some l →
          t.link = l ∧ t.console = w.console.forming w.now a .disconnect)
      ∧ (w.link.offer w.now 2 (encCommand a w.console.nextSeq .disconnect) (.command a w.console.nextSeq) = none →
          t.link = w.link ∧ t.console = { w.console.forming w.now a .disconnect with
            cmds := w.console.cmds.set a none, message := some (.linkBusy a) }) := by
  rintro t rfl
  have hquiet : w.detachTalk.Quiet := hq.of_same rfl rfl rfl rfl
  cases hl : w.link.offer w.now 2 (encCommand a w.console.nextSeq .disconnect) (.command a w.console.nextSeq) with
  | some l =>
    rw [State.settleEvent_due_taken hquiet ha hready hl]
    obtain ⟨-, hlink, hintercom, -, hconsole, -, -⟩ := State.signUpdate_blocks ({ w.detachTalk with
      link := l, console := w.detachTalk.console.forming w.now a .disconnect } : State)
    exact ⟨hintercom, fun l' hl' => ⟨hlink.trans (Option.some.inj hl'), hconsole⟩, fun hno => absurd hno (Option.some_ne_none l)⟩
  | none =>
    rw [State.settleEvent_due_refused hquiet ha hready Cmd.noConfusion hl]
    obtain ⟨-, hlink, hintercom, -, hconsole, -, -⟩ := State.signUpdate_blocks ({ w.detachTalk with
      console := { w.detachTalk.console.forming w.now a .disconnect with
        cmds := w.console.cmds.set a none, message := some (.linkBusy a) } } : State)
    exact ⟨hintercom, fun l' hl' => absurd hl'.symm (Option.some_ne_none l'), fun _ => ⟨hlink, hconsole⟩⟩

theorem talk_ends_own (h0 : w.addr = 0) (hready : w.console.ready 0 = true) :
    (w.detachTalk.dueCommand 0 .disconnect).settleEvent = ({ w with
      intercom := if w.intercom.endState = .idle ∨ w.intercom.endState = .calling then w.intercom.detached
        else w.intercom.detached.idled
      console := w.console.answering } : State).signUpdate := by
  rw [State.settleEvent_due_own (w := w.detachTalk) (hq.of_same rfl rfl rfl rfl) h0 Talk.noConfusion hready]
  exact congrArg (fun i => ({ w with intercom := i, console := w.console.answering } : State).signUpdate)
    (Intercom.disconnecting_eq w.intercom.detached)

theorem talk_ends_busy (hbusy : w.console.ready a = false) :
    ((w.console.deferred.get a).length < 2 → (w.detachTalk.dueCommand a .disconnect).settleEvent = ({ w with
        intercom := w.intercom.detached
        console := { w.console with deferred := w.console.deferred.set a (w.console.deferred.get a ++ [.disconnect]) } }
          : State).signUpdate)
      ∧ (2 ≤ (w.console.deferred.get a).length → (w.detachTalk.dueCommand a .disconnect).settleEvent
          = ({ w with intercom := w.intercom.detached } : State).signUpdate) := by
  rw [State.settleEvent_due_busy (w := w.detachTalk) (hq.of_same rfl rfl rfl rfl) hbusy]
  refine ⟨fun hroom => ?_, fun hfull => ?_⟩
  · rw [show w.detachTalk.console = w.console from rfl, Console.deferring_room hroom]
    rfl
  · rw [show w.detachTalk.console = w.console from rfl, Console.deferring_full hfull]
    rfl

end

/-! ### The statement -/

/-- Settles O40. -/
theorem talkKeyOpensAndEndsATalk : Obligations.TalkKeyOpensAndEndsATalk := by
  intro s hr h0 hq
  refine ⟨fun hlow hkeys => ⟨fun a ht ha hto => ?_, fun a ht hqueue hsel ha habsent => ?_, fun ht hto hc hd => ?_,
    fun ht => ?_⟩, fun hlow => ?_, fun c cons a hc hp apart idle hapart hidle => ?_, fun htimer => ?_⟩
  · have hto' : s.TalksTo a := hto.imp_right fun ⟨hqueue, hsel, hp⟩ => ⟨hqueue, hsel, Or.inr hp⟩
    refine ⟨fun hc hd ⟨l, hl⟩ => ?_, fun hbusy => talkKey_waits hr h0 hq hlow hkeys ht hto' (Console.not_ready_iff.2 hbusy)⟩
    refine ⟨_, talkKey_opens_seat hr h0 hq hlow hkeys ht hto' ha (Console.ready_of hc hd) hl, ?_⟩
    obtain ⟨-, hlink, hintercom, -, hconsole, -, -⟩ := State.signUpdate_blocks { s with
      link := l
      intercom := { s.intercom.without a with talk := .talk a, talkTimer := some 1200000 }
      console := s.console.ended.forming s.now a .connect }
    rw [hlink, hintercom, hconsole]
    exact ⟨rfl, rfl, rfl, Link.offer_new hl rfl, Quad.get_set_same s.console.cmds a _, rfl⟩
  · rw [exec_talkKey]
    exact sequenceEvent_idle hr h0 hlow hkeys (State.takeTalk_absent (s := s.endKeys) ht hqueue hsel ha habsent)
      (hq.of_same rfl rfl rfl rfl)
  · have hto' : s.TalksTo 0 := hto.imp_right fun ⟨hqueue, hsel⟩ => ⟨hqueue, hsel, Or.inl rfl⟩
    refine ⟨fun hopen he => ⟨_, talkKey_opens_own hr h0 hq hlow hkeys ht hto' (Console.ready_of hc hd) hopen he, ?_⟩,
      fun hpriv => ⟨_, talkKey_refused_own hr h0 hq hlow hkeys ht hto' (Console.ready_of hc hd) hpriv, ?_⟩⟩
    · obtain ⟨-, -, hintercom, -, hconsole, -, -⟩ := State.signUpdate_blocks { s with
        intercom := s.intercom.ownTalk, console := s.console.ended.answering }
      rw [hintercom, hconsole]
      exact ⟨rfl, rfl, rfl, rfl, Quad.get_set_same s.console.lastReply 0 _, rfl⟩
    · obtain ⟨-, -, hintercom, -, hconsole, -, -⟩ := State.signUpdate_blocks { s with
        console := { s.console.ended.forming s.now 0 .connect with
          message := some .privacyRefused, cmds := s.console.cmds.set 0 none
          lastReply := s.console.lastReply.set 0 (some (.reply (.refused .privacy))) } }
      rw [hintercom, hconsole]
      exact ⟨rfl, rfl, Quad.get_set_same s.console.lastReply 0 _⟩
  · rw [exec_talkKey]
    exact sequenceEvent_idle hr h0 hlow hkeys (State.takeTalk_announce (s := s.endKeys) ht) (hq.of_same rfl rfl rfl rfl)
  · rw [exec_talkKey]
    exact sequenceEvent_low hr hq hlow
  · subst hapart hidle
    obtain ⟨hcmds, hdeferred, hseq, hlast⟩ := Console.ended_or_same hc
    rw [exec_talk_ends hr h0 hc hp, ← hcmds, ← hdeferred, ← hseq, ← hlast]
    have hquiet : ({ s with console := cons } : State).Quiet := hq.of_same rfl rfl rfl rfl
    refine ⟨fun hnone hempty ha => ⟨_, rfl, talk_ends_seat hquiet ha (Console.ready_of hnone hempty) _ rfl⟩,
      fun hnone hempty ha => ?_, fun hbusy => ?_⟩
    · subst ha
      exact congrArg _ (talk_ends_own hquiet h0 (Console.ready_of hnone hempty))
    · obtain ⟨hroom, hfull⟩ := talk_ends_busy (w := { s with console := cons }) hquiet (Console.not_ready_iff.2 hbusy)
      exact ⟨fun h => congrArg _ (hroom h), fun h => congrArg _ (hfull h)⟩
  · rw [exec_talkTimerExpiry]
    exact event_quiet hr (if_neg (by rw [htimer]; exact Bool.false_ne_true)) hq

end Sys2Proof.Machine
end

section
/-! PROOFS. Commands that fall due for several ends in turn: what station 0's console does (R117, R173, R176; O41). -/
namespace Sys2Proof.Machine
open Sys2Proof

/-! ### One end -/

/-- The console with a command due for a target: formed, and answered at once by the own end, or deferred, or discarded. -/
def Console.due (c : Console) (now : Nat) (a : Addr) (cmd : Cmd) : Console :=
  if c.ready a then (if a = 0 then c.answering else c.forming now a cmd) else c.deferring a cmd

/-- The console with the deferred LISTENs of a target discarded (R117). -/
def Console.unlistened (c : Console) (a : Addr) : Console :=
  { c with deferred := c.deferred.set a ((c.deferred.get a).filter (· ≠ .listen)) }

/-- The console after one end's turn: an end that is told has the command due, any other has its deferred LISTENs discarded. -/
def Console.tell (now : Nat) (cmd : Cmd) (told : Addr → Bool) (c : Console) (a : Addr) : Console :=
  if told a then c.due now a cmd else c.unlistened a

section
variable {now : Nat} {cmd : Cmd} {told : Addr → Bool} {c : Console} {a b : Addr}

theorem Console.tell_ready (ht : told a = true) (h : c.ready a = true) :
    c.tell now cmd told a = if a = 0 then c.answering else c.forming now a cmd := (if_pos ht).trans (if_pos h)

theorem Console.tell_busy (ht : told a = true) (h : c.ready a = false) : c.tell now cmd told a = c.deferring a cmd :=
  (if_pos ht).trans (if_neg (Bool.eq_false_iff.1 h))

theorem Console.tell_untold (ht : told a = false) : c.tell now cmd told a = c.unlistened a := if_neg (Bool.eq_false_iff.1 ht)

/-- The three things that can come of a turn. -/
theorem Console.tell_cases (now : Nat) (cmd : Cmd) (told : Addr → Bool) (c : Console) (a : Addr) :
    told a = true ∧ c.ready a = true ∧ c.tell now cmd told a = (if a = 0 then c.answering else c.forming now a cmd)
      ∨ told a = true ∧ c.ready a = false ∧ c.tell now cmd told a = c.deferring a cmd
      ∨ told a = false ∧ c.tell now cmd told a = c.unlistened a := by
  cases ht : told a with
  | false => exact Or.inr (Or.inr ⟨rfl, Console.tell_untold ht⟩)
  | true =>
    cases hc : c.ready a with
    | true => exact Or.inl ⟨rfl, rfl, Console.tell_ready ht hc⟩
    | false => exact Or.inr (Or.inl ⟨rfl, rfl, Console.tell_busy ht hc⟩)

theorem Console.deferring_deferred : (c.deferring a cmd).deferred.get b
    = if b = a ∧ (c.deferred.get a).length < 2 then c.deferred.get a ++ [cmd] else c.deferred.get b := by
  unfold Console.deferring
  by_cases h : (c.deferred.get a).length < 2
  · simp [h, Quad.get_set]
  · simp [h]

/-- A turn leaves what stands at the other targets. -/
theorem Console.tell_apart (hb : b ≠ a) : (c.tell now cmd told a).cmds.get b = c.cmds.get b
    ∧ (c.tell now cmd told a).deferred.get b = c.deferred.get b := by
  obtain ⟨-, -, h⟩ | ⟨-, -, h⟩ | ⟨-, h⟩ := Console.tell_cases now cmd told c a <;> rw [h]
  · split
    · next h0 =>
      subst h0
      exact ⟨Quad.get_set_other _ _ _ _ hb, rfl⟩
    · exact ⟨Quad.get_set_other _ _ _ _ hb, rfl⟩
  · exact ⟨rfl, Console.deferring_deferred.trans (if_neg fun hno => hb hno.1)⟩
  · exact ⟨rfl, Quad.get_set_other _ _ _ _ hb⟩

theorem Console.ready_congr {c d : Console} (hc : d.cmds.get a = c.cmds.get a) (hd : d.deferred.get a = c.deferred.get a) :
    d.ready a = c.ready a := by
  unfold Console.ready
  rw [hc, hd]

theorem Console.tell_ready_apart (hb : b ≠ a) : (c.tell now cmd told a).ready b = c.ready b :=
  Console.ready_congr (Console.tell_apart hb).1 (Console.tell_apart hb).2

theorem Console.tell_nextSeq :
    (c.tell now cmd told a).nextSeq = if told a && c.ready a then (c.nextSeq + 1) % 16 else c.nextSeq := by
  obtain ⟨ht, hc, h⟩ | ⟨ht, hc, h⟩ | ⟨ht, h⟩ := Console.tell_cases now cmd told c a
  · rw [h, ht, hc]
    split <;> rfl
  · rw [h, ht, hc]
    rfl
  · rw [h, ht]
    rfl

/-- What is deferred for the target itself after its turn. -/
theorem Console.tell_deferred : (c.tell now cmd told a).deferred.get a
    = if told a then (if c.ready a = false ∧ (c.deferred.get a).length < 2 then c.deferred.get a ++ [cmd] else c.deferred.get a)
      else (c.deferred.get a).filter (· ≠ .listen) := by
  obtain ⟨ht, hc, h⟩ | ⟨ht, hc, h⟩ | ⟨ht, h⟩ := Console.tell_cases now cmd told c a
  · rw [h, ht, hc]
    split <;> rfl
  · rw [h, ht, hc, Console.deferring_deferred]
    simp
  · rw [h, ht]
    exact Quad.get_set_same _ _ _

end

/-! ### The ends in turn -/

/-- The console after the turns of several ends. -/
def Console.tellAll (now : Nat) (cmd : Cmd) (told : Addr → Bool) (ends : List Addr) (c : Console) : Console :=
  ends.foldl (Console.tell now cmd told) c

section
variable {now : Nat} {cmd : Cmd} {told : Addr → Bool} {ends : List Addr} {c : Console} {a : Addr}

/-- The ends that take a sequence number: told, with nothing pending or deferred. -/
def Console.taking (c : Console) (told : Addr → Bool) (ends : List Addr) : List Addr :=
  ends.filter fun b => told b && c.ready b

theorem Console.tellAll_apart (h : a ∉ ends) : (c.tellAll now cmd told ends).cmds.get a = c.cmds.get a
    ∧ (c.tellAll now cmd told ends).deferred.get a = c.deferred.get a := by
  induction ends generalizing c with
  | nil => exact ⟨rfl, rfl⟩
  | cons b ends ih =>
    obtain ⟨hb, hends⟩ := not_or.1 (mt List.mem_cons.2 h)
    obtain ⟨hcmds, hdeferred⟩ := ih (c := c.tell now cmd told b) hends
    obtain ⟨hcmds', hdeferred'⟩ := Console.tell_apart (now := now) (cmd := cmd) (told := told) (c := c) hb
    exact ⟨hcmds.trans hcmds', hdeferred.trans hdeferred'⟩

theorem Console.taking_tell (h : a ∉ ends) : (c.tell now cmd told a).taking told ends = c.taking told ends :=
  List.filter_congr fun b hb => by
    rw [Console.tell_ready_apart]
    rintro rfl
    exact h hb

/-- Each end that takes one moves the sequence number on (R173). -/
theorem Console.tellAll_nextSeq (hends : ends.Nodup) (hseq : c.nextSeq < 16) :
    (c.tellAll now cmd told ends).nextSeq = (c.nextSeq + (c.taking told ends).length) % 16 := by
  induction ends generalizing c with
  | nil => exact (Nat.mod_eq_of_lt hseq).symm
  | cons b ends ih =>
    obtain ⟨hb, hends⟩ := List.nodup_cons.1 hends
    have hnext := Console.tell_nextSeq (now := now) (cmd := cmd) (told := told) (c := c) (a := b)
    have hrest := ih (c := c.tell now cmd told b) hends (by rw [hnext]; split <;> omega)
    rw [Console.taking_tell hb, hnext] at hrest
    refine hrest.trans ?_
    unfold Console.taking
    rw [List.filter_cons]
    split
    · rw [List.length_cons]
      omega
    · rfl

theorem ends_split_of_count {ends : List Addr} (h : ends.count a = 1) :
    ∃ front back, ends = front ++ a :: back ∧ a ∉ front ∧ a ∉ back := by
  obtain ⟨front, back, rfl, hfront⟩ := List.eq_append_cons_of_mem (List.count_pos_iff.1 (by omega : 0 < ends.count a))
  refine ⟨front, back, rfl, hfront, fun hback => ?_⟩
  have := List.count_pos_iff.2 hback
  rw [List.count_append, List.count_cons_self] at h
  omega

theorem Console.tellAll_append (front back : List Addr) :
    c.tellAll now cmd told (front ++ a :: back)
      = ((c.tellAll now cmd told front).tell now cmd told a).tellAll now cmd told back := List.foldl_append ..

/-- What is deferred for an end after its one turn. -/
theorem Console.tellAll_deferred (h : ends.count a = 1) :
    (c.tellAll now cmd told ends).deferred.get a = (c.tell now cmd told a).deferred.get a := by
  obtain ⟨front, back, rfl, hfront, hback⟩ := ends_split_of_count h
  obtain ⟨hcmds, hdeferred⟩ := Console.tellAll_apart (now := now) (cmd := cmd) (told := told) (c := c) hfront
  rw [Console.tellAll_append, (Console.tellAll_apart hback).2, Console.tell_deferred, Console.tell_deferred,
    Console.ready_congr hcmds hdeferred, hdeferred]

/-- A seat's command, formed in its turn with the number that the ends before it have left. -/
theorem Console.tellAll_formed {front back : List Addr} (hends : (front ++ a :: back).Nodup) (hseq : c.nextSeq < 16) (ha : a ≠ 0)
    (ht : told a = true) (hready : c.ready a = true) :
    (c.tellAll now cmd told (front ++ a :: back)).cmds.get a
      = some { cmd := cmd, seq := (c.nextSeq + (c.taking told front).length) % 16, formed := now, claiming := false
               handed := false, limit := none } := by
  obtain ⟨hfront, hrest, hapart⟩ := List.nodup_append.1 hends
  have ha' : a ∉ front := fun hmem => hapart a hmem a List.mem_cons_self rfl
  obtain ⟨hcmds, hdeferred⟩ := Console.tellAll_apart (now := now) (cmd := cmd) (told := told) (c := c) ha'
  rw [Console.tellAll_append, (Console.tellAll_apart (List.nodup_cons.1 hrest).1).1,
    Console.tell_ready ht ((Console.ready_congr hcmds hdeferred).trans hready), if_neg ha]
  refine (Quad.get_set_same _ _ _).trans ?_
  rw [Console.tellAll_nextSeq hfront hseq]

/-- Of the ends that take a number, those that the test `q` picks out, where it picks the ends before a cut. -/
theorem Console.taking_before {front back : List Addr} {q : Addr → Bool} (hfront : ∀ b ∈ front, q b = true)
    (hback : ∀ b ∈ back, q b = false) : (c.taking told (front ++ back)).filter q = c.taking told front := by
  have hkeep : (c.taking told front).filter q = c.taking told front :=
    List.filter_eq_self.2 fun b hb => hfront b (List.mem_of_mem_filter hb)
  have hdrop : (c.taking told back).filter q = [] :=
    List.filter_eq_nil_iff.2 fun b hb => Bool.eq_false_iff.1 (hback b (List.mem_of_mem_filter hb))
  unfold Console.taking at *
  rw [List.filter_append, List.filter_append, hkeep, hdrop, List.append_nil]

end

end Sys2Proof.Machine
end

section
/-! PROOFS. Commands that fall due for several ends in turn: the station, and the end of its event (R117, R173; O41). -/
namespace Sys2Proof.Machine
open Sys2Proof

/-! ### One end -/

/-- The station after one end's turn at station 0: its console; the intercom changed by `f` where the command is formed; the COMMAND of
a seat offered. -/
def State.tell (cmd : Cmd) (told : Addr → Bool) (f : Intercom → Addr → Intercom) (u : State) (a : Addr) : State :=
  { u with
    console := u.console.tell u.now cmd told a
    intercom := if told a && u.console.ready a then f u.intercom a else u.intercom
    offers := u.offers ++ if told a && u.console.ready a && a != 0 then [.command a] else [] }

/-- The intercom of station 0 where LISTEN is formed for an end in an announce (R117, R118). -/
def Intercom.heard (i : Intercom) (a : Addr) : Intercom :=
  { (if a = 0 then i.listening else i) with announced := i.announced ++ [a] }

/-- The intercom of station 0 where LISTEN_END is formed for an end (R117, R118). -/
def Intercom.unheard (i : Intercom) (a : Addr) : Intercom := if a = 0 then i.listenEnding else i

section
variable {u : State} {a : Addr} {cmd : Cmd} {told : Addr → Bool}

theorem State.dueCommand_told (h0 : u.addr = 0) (ht : u.intercom.talk ≠ .talk 0) (hold : told a = true) :
    u.dueCommand a cmd = u.tell cmd told (fun i a => if a = 0 then i.commanded cmd else i) a := by
  unfold State.tell
  rw [hold]
  cases hready : u.console.ready a with
  | false =>
    rw [State.dueCommand_busy cmd hready, Console.tell_busy hold hready]
    simp [State.onConsole]
  | true =>
    rw [Console.tell_ready hold hready]
    by_cases ha : a = 0
    · subst ha
      rw [State.dueCommand_own h0 ht cmd hready]
      simp
    · rw [State.dueCommand_ready cmd ha hready]
      simp [ha, State.onConsole, State.offer]

theorem Intercom.listening_announced (i : Intercom) : i.listening.announced = i.announced := by
  unfold Intercom.listening
  repeat' split
  all_goals rfl

theorem Intercom.listenEnding_announced (i : Intercom) : i.listenEnding.announced = i.announced := by
  unfold Intercom.listenEnding
  split <;> rfl

/-- LISTEN's turn at one end. -/
theorem State.offerListen_eq (h0 : u.addr = 0) (ht : u.intercom.talk ≠ .talk 0) :
    u.offerListen a = u.tell .listen (fun _ => true) Intercom.heard a := by
  unfold State.offerListen
  dsimp only
  rw [State.dueCommand_told (told := fun _ => true) h0 ht rfl]
  cases hready : u.console.ready a with
  | false => simp [State.tell, hready]
  | true =>
    by_cases ha : a = 0
    · subst ha
      simp [State.tell, State.onIntercom, hready, Intercom.heard, Intercom.commanded, Intercom.listening_announced]
    · simp [State.tell, State.onIntercom, hready, Intercom.heard, ha]

/-- LISTEN_END's turn at one end, or what is discarded there. -/
theorem State.endListen_eq (h0 : u.addr = 0) (ht : u.intercom.talk ≠ .talk 0) (htold : u.intercom.announced.contains = told) :
    u.endListen a = u.tell .listenEnd told Intercom.unheard a := by
  unfold State.endListen
  rw [htold]
  cases hold : told a with
  | true =>
    rw [if_pos rfl, State.dueCommand_told h0 ht hold]
    rfl
  | false =>
    unfold State.tell
    rw [if_neg Bool.false_ne_true, Console.tell_untold hold, hold]
    simp [State.onConsole, Console.unlistened]

end

/-! ### The ends in turn -/

/-- The station after the turns of several ends. -/
def State.tellAll (cmd : Cmd) (told : Addr → Bool) (f : Intercom → Addr → Intercom) (ends : List Addr) (u : State) : State :=
  ends.foldl (State.tell cmd told f) u

theorem Intercom.heard_talk (i : Intercom) (a : Addr) : (i.heard a).talk = i.talk := by
  unfold Intercom.heard
  dsimp only
  split
  · exact i.listening_talk
  · rfl

theorem Intercom.listenEnding_talk (i : Intercom) : i.listenEnding.talk = i.talk := by
  unfold Intercom.listenEnding
  split <;> rfl

theorem Intercom.unheard_keeps (i : Intercom) (a : Addr) :
    (i.unheard a).talk = i.talk ∧ (i.unheard a).announced = i.announced := by
  unfold Intercom.unheard
  split
  · exact ⟨i.listenEnding_talk, i.listenEnding_announced⟩
  · exact ⟨rfl, rfl⟩

section
variable {u : State} {a : Addr} {ends : List Addr} {cmd : Cmd} {told : Addr → Bool} {f : Intercom → Addr → Intercom}

/-- What the intercom's changes keep, a turn keeps. -/
theorem State.tell_intercom {α : Type} {p : Intercom → α} (h : ∀ i a, p (f i a) = p i) :
    p (u.tell cmd told f a).intercom = p u.intercom := by
  show p (if told a && u.console.ready a then f u.intercom a else u.intercom) = _
  split
  · exact h _ _
  · rfl

theorem State.foldl_offerListen (h0 : u.addr = 0) (ht : u.intercom.talk ≠ .talk 0) :
    ends.foldl State.offerListen u = u.tellAll .listen (fun _ => true) Intercom.heard ends := by
  induction ends generalizing u with
  | nil => rfl
  | cons a ends ih =>
    rw [List.foldl_cons, State.offerListen_eq h0 ht]
    exact ih (u := u.tell .listen (fun _ => true) Intercom.heard a) h0
      (by rwa [State.tell_intercom (p := Intercom.talk) Intercom.heard_talk])

theorem State.foldl_endListen (h0 : u.addr = 0) (ht : u.intercom.talk ≠ .talk 0) (htold : u.intercom.announced.contains = told) :
    ends.foldl State.endListen u = u.tellAll .listenEnd told Intercom.unheard ends := by
  induction ends generalizing u with
  | nil => rfl
  | cons a ends ih =>
    rw [List.foldl_cons, State.endListen_eq h0 ht htold]
    refine ih (u := u.tell .listenEnd told Intercom.unheard a) h0 ?_ ?_
    · rwa [State.tell_intercom (p := Intercom.talk) fun i b => (i.unheard_keeps b).1]
    · rwa [State.tell_intercom (p := Intercom.announced) fun i b => (i.unheard_keeps b).2]

/-- The turns touch the console, the intercom and what is offered. -/
theorem State.tellAll_form : ∃ i os, u.tellAll cmd told f ends
    = { u with console := u.console.tellAll u.now cmd told ends, intercom := i, offers := os } := by
  induction ends generalizing u with
  | nil => exact ⟨_, _, rfl⟩
  | cons a ends ih => exact ih (u := u.tell cmd told f a)

theorem State.tellAll_console : (u.tellAll cmd told f ends).console = u.console.tellAll u.now cmd told ends := by
  obtain ⟨i, os, h⟩ := State.tellAll_form (u := u) (cmd := cmd) (told := told) (f := f) (ends := ends)
  rw [h]

/-- Each seat that takes a sequence number has its COMMAND offered. -/
theorem State.tellAll_offers (hends : ends.Nodup) : (u.tellAll cmd told f ends).offers
    = u.offers ++ ((u.console.taking told ends).filter (· != 0)).map .command := by
  induction ends generalizing u with
  | nil => exact (List.append_nil _).symm
  | cons a ends ih =>
    obtain ⟨ha, hends⟩ := List.nodup_cons.1 hends
    refine (ih (u := u.tell cmd told f a) hends).trans ?_
    rw [show (u.tell cmd told f a).console = u.console.tell u.now cmd told a from rfl, Console.taking_tell ha]
    show u.offers ++ _ ++ _ = _
    rw [List.append_assoc]
    unfold Console.taking
    rw [List.filter_cons (x := a)]
    cases hnow : told a && u.console.ready a with
    | false => rfl
    | true =>
      rw [if_pos rfl, List.filter_cons (x := a), Bool.true_and]
      split <;> rfl

end

/-! ### The end of the event (R173, Table 5-3) -/

section
variable {s u : State} {a : Addr} {front back : List Addr} {cmd : Cmd} {told : Addr → Bool} {f : Intercom → Addr → Intercom}

/-- Of four ends at most three are seats. -/
theorem seats_length_le {ends : List Addr} (h : ends.Nodup) : (ends.filter (· != 0)).length ≤ 3 := by
  have hnodup : (0 :: ends.filter (· != 0)).Nodup := List.nodup_cons.2 ⟨by simp, h.filter _⟩
  exact Nat.le_of_succ_le_succ hnodup.length_le_card

/-- The sequence number after an event in which the ends have taken theirs. -/
theorem State.settleEvent_told_nextSeq {v : State} {ends : List Addr} (hends : ends.Nodup) (hseq : u.console.nextSeq < 16)
    (hv : v.console = (u.tellAll cmd told f ends).console) :
    v.settleEvent.console.nextSeq = (u.console.nextSeq + (u.console.taking told ends).length) % 16 := by
  rw [v.settleEvent_kept.nextSeq, hv, State.tellAll_console]
  exact Console.tellAll_nextSeq hends hseq

/-- A seat's COMMAND after the event, whatever else of the intercom the event changes. -/
theorem State.settleEvent_told {v : State} {i : Intercom} (hq : u.Quiet)
    (hends : (front ++ a :: back).Nodup) (hseq : u.console.nextSeq < 16) (ha : a ≠ 0)
    (ht : told a = true) (hready : u.console.ready a = true)
    (hv : v = { u.tellAll cmd told f (front ++ a :: back) with intercom := i }) :
    u.Commanded v.settleEvent a cmd ((u.console.nextSeq + (u.console.taking told front).length) % 16) := by
  subst hv
  have hoffers := State.tellAll_offers (u := u) (cmd := cmd) (told := told) (f := f) hends
  obtain ⟨i', os, hform⟩ := State.tellAll_form (u := u) (cmd := cmd) (told := told) (f := f) (ends := front ++ a :: back)
  rw [hform] at hoffers ⊢
  obtain rfl : os = _ := hoffers
  rw [hq.1, List.nil_append]
  have hnodup : (u.console.taking told (front ++ a :: back)).Nodup := hends.filter _
  have hmem : a ∈ (u.console.taking told (front ++ a :: back)).filter (· != 0) :=
    List.mem_filter.2 ⟨List.mem_filter.2 ⟨by simp, by simp [ht, hready]⟩, bne_iff_ne.2 ha⟩
  have hcount : (((u.console.taking told (front ++ a :: back)).filter (· != 0)).map Offer.command).count (.command a) = 1 := by
    refine List.count_eq_one_of_mem ((hnodup.filter _).map fun b c h => ?_) (List.mem_map_of_mem hmem)
    exact Offer.command.inj h
  have hlength := seats_length_le hnodup
  obtain ⟨hanswer, hroom, hfull⟩ := State.settleEvent_command (a := a) (s := { u with
      console := u.console.tellAll u.now cmd told (front ++ a :: back), intercom := i
      offers := ((u.console.taking told (front ++ a :: back)).filter (· != 0)).map .command })
    hq.2 hcount (Console.tellAll_formed hends hseq ha ht hready)
  rintro queued refused rfl rfl
  refine ⟨hanswer, fun hsil hlen => hroom hsil ?_, hfull⟩
  show u.link.queue.length + (List.map _ _).length ≤ 16
  rw [List.length_map]
  omega

/-- An event leaves a talk that has no partner. -/
theorem State.settleEvent_talk_apart (h : s.intercom.talk.partner = none) : s.settleEvent.intercom.talk = s.intercom.talk := by
  unfold State.settleEvent
  rw [(State.signUpdate_blocks _).2.2.1]
  refine flush_keeps (P := fun u => u.intercom.talk = s.intercom.talk) (fun u o hu => ?_) (fun _ _ _ h => h) ?_
  · obtain ⟨-, hsame⟩ | ⟨payload, tag, -, ⟨l, -, htaken⟩ | ⟨-, hrefused⟩⟩ := u.tryOffer_cases o
    · rwa [hsame]
    · rw [htaken]
      cases o with
      | hireEvent =>
        obtain ⟨p, l, ht⟩ := (u.onLink _).offerTaken_hireEvent
        rw [ht]
        exact hu
      | _ => exact hu
    · rw [hrefused]
      cases o with
      | command t =>
        unfold State.offerRefused
        dsimp only
        rw [if_neg]
        · exact hu
        · show ¬ ((_ && u.intercom.talk.partner == some t) = true)
          rw [hu, h]
          simp
      | _ => exact hu
  · obtain ⟨sh, os, n, hform⟩ := s.lateCloseIfDue_form'
    rw [hform]

end

end Sys2Proof.Machine
end

section
/-! PROOFS. ANNOUNCE pressed: LISTEN falls due at every end that is to hear it (R117; O41). -/
namespace Sys2Proof.Machine
open Sys2Proof

/-! ### Addresses in ascending order (log entry 61) -/

section
variable {a : Addr} {front back : List Addr}

theorem ascending_before (h : (front ++ a :: back).Pairwise (· < ·)) : ∀ b ∈ front, b < a := fun b hb =>
  (List.pairwise_append.1 h).2.2 b hb a List.mem_cons_self

theorem ascending_after (h : (front ++ a :: back).Pairwise (· < ·)) : ∀ b ∈ a :: back, ¬ b < a := fun _ hb =>
  (List.mem_cons.1 hb).elim (fun hba => hba ▸ lt_irrefl a) fun hb =>
    lt_asymm (List.rel_of_pairwise_cons (List.pairwise_append.1 h).2.1 hb)

end

theorem ascending_of_sublist {ends : List Addr} (h : ends.Sublist seatAddrs) : (0 :: ends).Pairwise (· < ·) :=
  List.Pairwise.sublist (h.cons_cons 0) (by decide)

theorem ascending_nodup {ends : List Addr} (h : ends.Pairwise (· < ·)) : ends.Nodup := h.imp ne_of_lt

/-! ### The operation -/

section
variable (s : State)

theorem exec_announcePress : exec .announcePress s = sequenceEvent alone State.takeAnnounce s := rfl

/-- The seats that are present, by ascending address. -/
def State.listeners : List Addr := [1, 2, 3].filter fun a => (s.peer.rows.get a).present

/-- Station 0 with the announce open, before any end has its turn. -/
def State.announcing : State :=
  { s with intercom := { s.intercom with talk := .announce, announceTimer := some 1200000, listenSet := s.listeners, announced := [] } }

/-- Station 0 with the announce open and every end's turn taken. -/
def State.announcedAll : State := s.announcing.tellAll .listen (fun _ => true) Intercom.heard (0 :: s.listeners)

end

section
variable {s : State}

theorem State.listeners_ascending : (0 :: s.listeners).Pairwise (· < ·) := ascending_of_sublist List.filter_sublist

theorem State.takeAnnounce_opens (h0 : s.addr = 0) (ht : s.intercom.talk = .none) : s.takeAnnounce = s.announcedAll := by
  unfold State.takeAnnounce
  rw [ht]
  exact State.foldl_offerListen (u := s.announcing) h0 Talk.noConfusion

theorem State.takeAnnounce_talk {a : Addr} (hp : s.intercom.talk.partner = some a) : s.takeAnnounce = s.say .talkOpen := by
  unfold State.takeAnnounce
  obtain ht | ht := Talk.partner_eq_some_iff.1 hp <;> rw [ht] <;> rfl

theorem State.takeAnnounce_again (ht : s.intercom.talk = .announce) : s.takeAnnounce = s := by
  unfold State.takeAnnounce
  rw [ht]

/-! ### The intercom after the turns -/

section
variable {u : State} {told : Addr → Bool} {cmd : Cmd} {ends : List Addr}

theorem State.tell_announced (a : Addr) : (u.tell cmd told Intercom.heard a).intercom.announced
    = u.intercom.announced ++ if told a && u.console.ready a then [a] else [] := by
  show (if told a && u.console.ready a then u.intercom.heard a else u.intercom).announced = _
  split
  · rfl
  · exact (List.append_nil _).symm

/-- The ends that have been offered LISTEN (R117). -/
theorem State.tellAll_announced (hends : ends.Nodup) : (u.tellAll cmd told Intercom.heard ends).intercom.announced
    = u.intercom.announced ++ u.console.taking told ends := by
  induction ends generalizing u with
  | nil => exact (List.append_nil _).symm
  | cons a ends ih =>
    obtain ⟨ha, hends⟩ := List.nodup_cons.1 hends
    refine (ih (u := u.tell cmd told Intercom.heard a) hends).trans ?_
    rw [show (u.tell cmd told Intercom.heard a).console = u.console.tell u.now cmd told a from rfl, Console.taking_tell ha,
      State.tell_announced, List.append_assoc]
    unfold Console.taking
    rw [List.filter_cons (x := a)]
    split <;> rfl

/-- The seats' turns leave the own end. -/
theorem State.tellAll_seats (h : 0 ∉ ends) : ∃ l,
    (u.tellAll cmd told Intercom.heard ends).intercom = { u.intercom with announced := l } := by
  induction ends generalizing u with
  | nil => exact ⟨_, rfl⟩
  | cons a ends ih =>
    obtain ⟨ha, hends⟩ := not_or.1 (mt List.mem_cons.2 h)
    obtain ⟨l, hl⟩ := ih (u := u.tell cmd told Intercom.heard a) hends
    have hstep : ∃ l', (u.tell cmd told Intercom.heard a).intercom = { u.intercom with announced := l' } := by
      show ∃ l', (if told a && u.console.ready a then u.intercom.heard a else u.intercom) = _
      unfold Intercom.heard
      rw [if_neg (Ne.symm ha)]
      split <;> exact ⟨_, rfl⟩
    obtain ⟨l', hl'⟩ := hstep
    exact ⟨l, hl.trans (by rw [hl'])⟩

end

/-- The intercom with the announce open and every end's turn taken: the own end as its turn leaves it. -/
theorem State.announced_intercom : ∃ l, s.announcedAll.intercom
    = { (if s.console.ready 0 then s.announcing.intercom.listening else s.announcing.intercom) with announced := l } := by
  have hnot : 0 ∉ s.listeners := (List.nodup_cons.1 (ascending_nodup s.listeners_ascending)).1
  obtain ⟨l, hl⟩ := State.tellAll_seats (u := s.announcing.tell .listen (fun _ => true) Intercom.heard 0) (cmd := .listen)
    (told := fun _ => true) hnot
  refine ⟨l, hl.trans ?_⟩
  show { (if s.console.ready 0 = true then s.announcing.intercom.heard 0 else s.announcing.intercom) with announced := l } = _
  split <;> rfl

theorem Intercom.listening_announcing (i : Intercom) : i.listening.talk = i.talk ∧ i.listening.announceTimer = i.announceTimer
    ∧ i.listening.listenSet = i.listenSet := by
  unfold Intercom.listening
  repeat' split
  all_goals exact ⟨rfl, rfl, rfl⟩

/-- The announce is open after every end's turn. -/
theorem State.announced_open : s.announcedAll.intercom.talk = .announce ∧ s.announcedAll.intercom.announceTimer = some 1200000
    ∧ s.announcedAll.intercom.listenSet = s.listeners := by
  obtain ⟨l, hl⟩ := s.announced_intercom
  rw [hl]
  split
  · exact s.announcing.intercom.listening_announcing
  · exact ⟨rfl, rfl, rfl⟩

theorem State.mem_announced {a : Addr} : a ∈ s.announcedAll.intercom.announced
    ↔ (a = 0 ∨ a ∈ s.listeners) ∧ s.console.cmds.get a = none ∧ s.console.deferred.get a = [] := by
  have hlist : s.announcedAll.intercom.announced = s.console.taking (fun _ => true) (0 :: s.listeners) :=
    (State.tellAll_announced (ascending_nodup s.listeners_ascending)).trans (List.nil_append _)
  rw [hlist, Console.taking, List.mem_filter, List.mem_cons, Bool.true_and, Console.ready_iff]

/-- The own end with nothing pending listens, HELD under a prompt (R117, R118). -/
theorem State.announced_listens (hready : s.console.ready 0 = true)
    (he : s.intercom.endState = .idle ∨ s.intercom.endState = .calling ∨ s.intercom.endState = .connected) :
    s.announcedAll.intercom.endState = (if s.intercom.prompt then .held .listen else .listen)
      ∧ s.announcedAll.intercom.endTimer = some 1200000 := by
  obtain ⟨l, hl⟩ := s.announced_intercom
  rw [hl, if_pos hready, Intercom.listening_enters (i := s.announcing.intercom) he]
  exact ⟨rfl, rfl⟩

theorem State.announced_endState (hbusy : s.console.ready 0 = false) :
    s.announcedAll.intercom.endState = s.intercom.endState := by
  obtain ⟨l, hl⟩ := s.announced_intercom
  rw [hl, if_neg (Bool.eq_false_iff.1 hbusy)]
  rfl

/-! ### The commands after the event -/

theorem State.announced_console : s.announcedAll.console
    = s.console.tellAll s.now .listen (fun _ => true) (0 :: s.listeners) := State.tellAll_console

theorem State.announced_deferred {a : Addr} (ha : a = 0 ∨ a ∈ s.listeners) (hbusy : s.console.ready a = false)
    (hroom : (s.console.deferred.get a).length < 2) :
    s.announcedAll.console.deferred.get a = s.console.deferred.get a ++ [.listen] := by
  have hone : (0 :: s.listeners).count a = 1 :=
    List.count_eq_one_of_mem (ascending_nodup s.listeners_ascending) (List.mem_cons.2 ha)
  rw [State.announced_console, Console.tellAll_deferred hone, Console.tell_deferred, if_pos rfl, if_pos ⟨hbusy, hroom⟩]

/-- LISTEN as it stands after the event, for each seat with nothing pending (R173). -/
theorem State.announced_commands (hq : s.Quiet) (hseq : s.console.nextSeq < 16) :
    ∀ ready, ready = s.console.taking (fun _ => true) (0 :: s.listeners) →
      s.announcedAll.settleEvent.console.nextSeq = (s.console.nextSeq + ready.length) % 16
      ∧ ∀ a ∈ ready, a ≠ 0 → s.Commanded s.announcedAll.settleEvent a .listen
          ((s.console.nextSeq + (ready.filter fun b => decide (b < a)).length) % 16) := by
  rintro ready rfl
  have hasc := s.listeners_ascending
  have hnodup := ascending_nodup hasc
  refine ⟨State.settleEvent_told_nextSeq (u := s.announcing) (f := Intercom.heard) hnodup hseq rfl, fun a ha hseat => ?_⟩
  obtain ⟨hmem, hready⟩ := List.mem_filter.1 ha
  obtain ⟨front, back, hsplit⟩ := List.append_of_mem hmem
  rw [hsplit] at hasc hnodup
  rw [hsplit, Console.taking_before (fun b hb => decide_eq_true (ascending_before hasc b hb))
    (fun b hb => decide_eq_false (ascending_after hasc b hb))]
  exact State.settleEvent_told (u := s.announcing) (f := Intercom.heard) (i := s.announcedAll.intercom)
    (hq.of_same rfl rfl rfl rfl) hnodup hseq hseat rfl hready (by rw [State.announcedAll, hsplit])

end

end Sys2Proof.Machine
end

section
/-! PROOFS. The announce ends: LISTEN_END at every end that has been offered LISTEN (R117; O41). -/
namespace Sys2Proof.Machine
open Sys2Proof

section
variable (s : State)

theorem exec_announceRelease : exec .announceRelease s = event (fun u => u.atConsole State.endAnnounce) s := rfl

theorem exec_announceTimerExpiry : exec .announceTimerExpiry s
    = event (fun u => if u.intercom.announceTimer.isSome then u.endAnnounce else u) s := rfl

/-- Station 0 with every end's turn taken at the end of the announce. -/
def State.silencedAll : State :=
  s.tellAll .listenEnd s.intercom.announced.contains Intercom.unheard (s.intercom.listenSet ++ [0])

/-- The intercom with no announce open. -/
def Intercom.unannounced (i : Intercom) : Intercom :=
  { i with talk := .none, announceTimer := none, listenSet := [], announced := [] }

/-- Station 0 after the announce. -/
def State.announceClosed : State := { s.silencedAll with intercom := s.silencedAll.intercom.unannounced }

end

section
variable {s : State}

theorem State.endAnnounce_closes (h0 : s.addr = 0) (ht : s.intercom.talk = .announce) : s.endAnnounce = s.announceClosed := by
  have hseat : s.intercom.talk ≠ .talk 0 := by
    rw [ht]
    exact Talk.noConfusion
  unfold State.endAnnounce
  rw [if_pos ht, State.foldl_endListen h0 hseat rfl]
  rfl

theorem State.endAnnounce_none (ht : s.intercom.talk ≠ .announce) : s.endAnnounce = s := if_neg ht

/-- The two commands that end the announce (R116, R117). -/
theorem exec_announce_ends {c : Instr} (h0 : s.addr = 0)
    (hc : c = .announceRelease ∨ (c = .announceTimerExpiry ∧ s.intercom.announceTimer ≠ none)) :
    ∃ f, exec c s = event f s ∧ f s = s.endAnnounce := by
  obtain rfl | ⟨rfl, htimer⟩ := hc
  · exact ⟨_, exec_announceRelease s, State.atConsole_console _ h0⟩
  · exact ⟨_, exec_announceTimerExpiry s, if_pos (Option.isSome_iff_ne_none.2 htimer)⟩

/-! ### The own end -/

/-- The own end that was to listen still is to be told, or is IDLE. -/
def State.Listening (told : Addr → Bool) (u : State) : Prop :=
  (told 0 = true ∧ u.console.ready 0 = true ∧ (u.intercom.endState = .listen ∨ u.intercom.endState = .held .listen))
    ∨ u.intercom.endState = .idle

theorem Intercom.unheard_idle {i : Intercom} (a : Addr) (h : i.endState = .idle) : (i.unheard a).endState = .idle := by
  unfold Intercom.unheard
  split
  · rwa [Intercom.listenEnding_same (Or.inl h)]
  · exact h

section
variable {u : State} {told : Addr → Bool} {cmd : Cmd}

/-- The own end is IDLE after its own turn. -/
theorem State.Listening.idle (h : u.Listening told) : (u.tell cmd told Intercom.unheard 0).intercom.endState = .idle := by
  show (if told 0 && u.console.ready 0 then u.intercom.unheard 0 else u.intercom).endState = .idle
  obtain ⟨hold, hready, he⟩ | he := h
  · rw [hold, hready, Bool.and_self, if_pos rfl, Intercom.unheard, if_pos rfl, Intercom.listenEnding_leaves he]
    rfl
  · split
    · exact Intercom.unheard_idle 0 he
    · exact he

theorem State.Listening.tell (h : u.Listening told) (a : Addr) : (u.tell cmd told Intercom.unheard a).Listening told := by
  by_cases ha : a = 0
  · subst ha
    exact Or.inr h.idle
  · have hsame : (u.tell cmd told Intercom.unheard a).intercom = u.intercom := by
      show (if told a && u.console.ready a then u.intercom.unheard a else u.intercom) = _
      rw [Intercom.unheard, if_neg ha, ite_self]
    have hready : (u.tell cmd told Intercom.unheard a).console.ready 0 = u.console.ready 0 :=
      Console.tell_ready_apart (Ne.symm ha)
    unfold State.Listening
    rw [hsame, hready]
    exact h

theorem State.Listening.tellAll (h : u.Listening told) (ends : List Addr) :
    (u.tellAll cmd told Intercom.unheard ends).Listening told := by
  induction ends generalizing u with
  | nil => exact h
  | cons a ends ih => exact ih (h.tell a)

end

/-- The own end that was offered LISTEN, with nothing pending for it, returns to IDLE (R118). -/
theorem State.announceClosed_idle (htold : 0 ∈ s.intercom.announced) (hready : s.console.ready 0 = true)
    (he : s.intercom.endState = .listen ∨ s.intercom.endState = .held .listen) :
    s.announceClosed.intercom.endState = .idle := by
  have hlistening : s.Listening s.intercom.announced.contains :=
    Or.inl ⟨List.contains_iff_mem.2 htold, hready, he⟩
  have hlast : s.silencedAll = (s.tellAll .listenEnd s.intercom.announced.contains Intercom.unheard s.intercom.listenSet).tell
      .listenEnd s.intercom.announced.contains Intercom.unheard 0 := List.foldl_append ..
  show s.silencedAll.intercom.endState = .idle
  rw [hlast]
  exact (hlistening.tellAll _).idle

/-! ### The commands after the event -/

theorem State.announceClosed_console : s.announceClosed.console
    = s.console.tellAll s.now .listenEnd s.intercom.announced.contains (s.intercom.listenSet ++ [0]) := State.tellAll_console

theorem State.announceClosed_deferred {a : Addr} (hone : (s.intercom.listenSet ++ [0]).count a = 1) :
    (a ∈ s.intercom.announced → s.console.ready a = false → (s.console.deferred.get a).length < 2 →
        s.announceClosed.console.deferred.get a = s.console.deferred.get a ++ [.listenEnd])
      ∧ (a ∉ s.intercom.announced →
        s.announceClosed.console.deferred.get a = (s.console.deferred.get a).filter (· ≠ .listen)) := by
  rw [State.announceClosed_console, Console.tellAll_deferred hone, Console.tell_deferred]
  refine ⟨fun htold hbusy hroom => ?_, fun hno => ?_⟩
  · rw [if_pos (List.contains_iff_mem.2 htold), if_pos ⟨hbusy, hroom⟩]
  · rw [if_neg (mt List.contains_iff_mem.1 hno)]

/-- A seat of an ascending listen set, cut out of the order of the turns. -/
theorem listenSet_split {seats : List Addr} (hseats : seats.Sublist seatAddrs) {a : Addr} (ha : a ∈ seats ++ [0]) (hseat : a ≠ 0) :
    ∃ front back, seats ++ [0] = front ++ a :: back ∧ (∀ b ∈ front, b ≠ 0 ∧ b < a) ∧ ∀ b ∈ a :: back, ¬ (b ≠ 0 ∧ b < a) := by
  have hasc := ascending_of_sublist hseats
  have hmem : a ∈ seats := (List.mem_append.1 ha).resolve_right fun h => hseat (List.mem_singleton.1 h)
  obtain ⟨front, back, rfl⟩ := List.append_of_mem hmem
  obtain ⟨hpos, hasc⟩ := List.pairwise_cons.1 hasc
  refine ⟨front, back ++ [0], by simp, fun b hb => ⟨fun h0 => ?_, ascending_before hasc b hb⟩, fun b hb ⟨hb0, hlt⟩ => ?_⟩
  · exact lt_irrefl 0 (h0 ▸ hpos b (List.mem_append_left _ hb))
  · rw [← List.cons_append, List.mem_append, List.mem_singleton] at hb
    exact hb.elim (fun hb => ascending_after hasc b hb hlt) hb0

/-- LISTEN_END as it stands after the event, for each seat that was offered LISTEN, with nothing pending (R173). -/
theorem State.announceClosed_commands (hq : s.Quiet) (hok : s.intercom.Ok) (hseq : s.console.nextSeq < 16) :
    ∀ ready, ready = s.console.taking s.intercom.announced.contains (s.intercom.listenSet ++ [0]) →
      s.announceClosed.settleEvent.console.nextSeq = (s.console.nextSeq + ready.length) % 16
      ∧ ∀ a ∈ ready, a ≠ 0 → s.Commanded s.announceClosed.settleEvent a .listenEnd
          ((s.console.nextSeq + (ready.filter fun b => decide (b ≠ 0) && decide (b < a)).length) % 16) := by
  rintro ready rfl
  obtain ⟨-, -, -, hseats⟩ := hok
  have hnodup : (s.intercom.listenSet ++ [0]).Nodup :=
    (List.perm_append_singleton 0 _).nodup_iff.2 (ascending_nodup (ascending_of_sublist hseats))
  refine ⟨State.settleEvent_told_nextSeq (f := Intercom.unheard) hnodup hseq rfl, fun a ha hseat => ?_⟩
  obtain ⟨hmem, hready⟩ := List.mem_filter.1 ha
  obtain ⟨htold, hready⟩ := Bool.and_eq_true_iff.1 hready
  obtain ⟨front, back, hsplit, hfront, hback⟩ := listenSet_split hseats hmem hseat
  rw [hsplit] at hnodup
  rw [hsplit, Console.taking_before (fun b hb => by simpa using hfront b hb) (fun b hb => by simpa using hback b hb)]
  exact State.settleEvent_told (f := Intercom.unheard) (i := s.silencedAll.intercom.unannounced)
    hq hnodup hseq hseat htold hready (by rw [State.announceClosed, State.silencedAll, hsplit])

end

end Sys2Proof.Machine
end

section
/-! PROOFS. ANNOUNCE, and what the intercom's timers end (R116, R117, R120, R123; O41). -/
namespace Sys2Proof.Machine
open Sys2Proof

/-! ### The announce, command by command -/

section
variable {s : State} (hr : s.supply.running = true) (h0 : s.addr = 0)
include hr h0

theorem announcePress_talk (hlow : s.supply.state ≠ .low) (hkeys : s.console.keys = .idle) {a : Addr}
    (hp : s.intercom.talk.partner = some a) (hq : s.Quiet) : exec .announcePress s
      = .next (State.signUpdate { s with console := { s.console.ended with message := some .talkOpen } }) :=
  (exec_announcePress s).trans <| sequenceEvent_idle hr h0 hlow hkeys (State.takeAnnounce_talk (s := s.endKeys) hp) (hq.of_same rfl rfl rfl rfl)

theorem announcePress_again (hlow : s.supply.state ≠ .low) (hkeys : s.console.keys = .idle)
    (ht : s.intercom.talk = .announce) (hq : s.Quiet) :
    exec .announcePress s = .next (State.signUpdate { s with console := s.console.ended }) :=
  (exec_announcePress s).trans <| sequenceEvent_idle hr h0 hlow hkeys (State.takeAnnounce_again (s := s.endKeys) ht) (hq.of_same rfl rfl rfl rfl)

theorem announcePress_opens (hlow : s.supply.state ≠ .low) (hkeys : s.console.keys = .idle)
    (ht : s.intercom.talk = .none) : exec .announcePress s = .next s.endKeys.announcedAll.settleEvent :=
  (exec_announcePress s).trans <| sequenceEvent_next hr h0 hlow hkeys (State.takeAnnounce_opens (s := s.endKeys) h0 ht)

end

/-! ### The end's 120 s, the CALL_WITHDRAW after a start, the release of the prompt -/

section
variable (s : State)

theorem exec_startupCallWithdraw : exec .startupCallWithdraw s = event (fun u =>
    if u.intercom.withdrawDue ∧ u.link.synced then (u.onIntercom fun i => { i with withdrawDue := false }).sayEvent .callWithdraw
    else u) s := rfl

theorem exec_promptRelease : exec .promptRelease s
    = event (fun u => if u.intercom.promptTimer.isSome then u.releasePrompt else u) s := rfl

/-- What the end's 120 s end (R116). -/
def State.endTimeOut (s : State) : State :=
  match s.intercom.endState with
  | .connected => s.idleEnd
  | .listen => s.idleEnd
  | .idle => s
  | .calling => s
  | .held _ => s

theorem exec_endTalkTimerExpiry : exec .endTalkTimerExpiry s = event State.endTimeOut s := rfl

end

section
variable {s : State}

theorem State.endTimeOut_ends (h : s.intercom.endState = .connected ∨ s.intercom.endState = .listen) :
    s.endTimeOut = s.idleEnd := by
  unfold State.endTimeOut
  obtain h | h := h <;> rw [h]

theorem State.endTimeOut_stands (h : s.intercom.endState = .idle ∨ s.intercom.endState = .calling
    ∨ ∃ w, s.intercom.endState = .held w) : s.endTimeOut = s := by
  unfold State.endTimeOut
  obtain h | h | ⟨w, h⟩ := h <;> rw [h]

/-- The intercom once the prompt has let the speaker go. -/
def Intercom.promptOver (i : Intercom) : Intercom := { i with prompt := false, promptTimer := none }

theorem State.releasePrompt_held {w : HeldState} {e : EndState}
    (hwe : (w = .connected ∧ e = .connected) ∨ (w = .listen ∧ e = .listen)) (h : s.intercom.endState = .held w) :
    s.releasePrompt = ({ s with intercom := { s.intercom.promptOver with endState := e } } : State).saySpeakerFree := by
  unfold State.releasePrompt
  obtain ⟨rfl, rfl⟩ | ⟨rfl, rfl⟩ := hwe <;> rw [h] <;> rfl

theorem State.releasePrompt_free (h : ∀ w, s.intercom.endState ≠ .held w) :
    s.releasePrompt = { s with intercom := s.intercom.promptOver } := by
  unfold State.releasePrompt
  cases he : s.intercom.endState with
  | held w => exact absurd he (h w)
  | _ => rfl

theorem State.saySpeakerFree_seat (h0 : s.addr ≠ 0) : s.saySpeakerFree = s.sayEvent .speakerFree := by
  unfold State.saySpeakerFree
  rw [State.isConsole_seat h0]
  rfl

variable (hr : s.supply.running = true)
include hr

theorem startupCallWithdraw_says (hdue : s.intercom.withdrawDue = true) (hsynced : s.link.synced = true) :
    ∃ t, exec .startupCallWithdraw s = .next t
      ∧ ({ s with intercom := { s.intercom with withdrawDue := false } } : State).Kept t
      ∧ (s.silent = false → t.Offered (.callWithdraw ∈ t.intercom.events) 4 (encIntercomEvent .callWithdraw)) := by
  rw [exec_startupCallWithdraw]
  exact event_says hr (u := { s with intercom := { s.intercom with withdrawDue := false } }) (if_pos ⟨hdue, hsynced⟩)
    (State.Kept.refl _) rfl

theorem startupCallWithdraw_none (h : s.intercom.withdrawDue = false ∨ s.link.synced = false) :
    ∃ t, exec .startupCallWithdraw s = .next t ∧ s.Kept t := by
  rw [exec_startupCallWithdraw]
  refine event_keeps hr (if_neg fun ⟨hdue, hsynced⟩ => ?_) (State.Kept.refl s)
  obtain h | h := h
  · exact Bool.false_ne_true (h.symm.trans hdue)
  · exact Bool.false_ne_true (h.symm.trans hsynced)

section
variable (htimer : s.intercom.promptTimer ≠ none)
include htimer

theorem promptRelease_held {w : HeldState} {e : EndState}
    (hwe : (w = .connected ∧ e = .connected) ∨ (w = .listen ∧ e = .listen)) (h : s.intercom.endState = .held w) :
    ∃ t, exec .promptRelease s = .next t
      ∧ ({ s with intercom := { s.intercom with prompt := false, promptTimer := none, endState := e } } : State).Kept t
      ∧ (s.addr ≠ 0 → s.silent = false → t.Offered (.speakerFree ∈ t.intercom.events) 4 (encIntercomEvent .speakerFree)) := by
  have hrelease : (if s.intercom.promptTimer.isSome = true then s.releasePrompt else s) = _ :=
    (if_pos (Option.isSome_iff_ne_none.2 htimer)).trans (State.releasePrompt_held hwe h)
  rw [exec_promptRelease]
  by_cases h0 : s.addr = 0
  · obtain ⟨t, hnext, hkept⟩ := event_keeps hr hrelease (State.saySpeakerFree_kept _)
    exact ⟨t, hnext, hkept, fun hseat => absurd h0 hseat⟩
  · obtain ⟨t, hnext, hkept, hsaid⟩ := event_says hr (hrelease.trans (State.saySpeakerFree_seat h0)) (State.Kept.refl _) rfl
    exact ⟨t, hnext, hkept, fun _ => hsaid⟩

theorem promptRelease_free (h : ∀ w, s.intercom.endState ≠ .held w) : ∃ t, exec .promptRelease s = .next t
    ∧ ({ s with intercom := { s.intercom with prompt := false, promptTimer := none } } : State).Kept t := by
  rw [exec_promptRelease]
  exact event_keeps hr ((if_pos (Option.isSome_iff_ne_none.2 htimer)).trans (State.releasePrompt_free h)) (State.Kept.refl _)

end

theorem promptRelease_none (htimer : s.intercom.promptTimer = none) : ∃ t, exec .promptRelease s = .next t ∧ s.Kept t := by
  rw [exec_promptRelease]
  exact event_keeps hr (if_neg (by rw [htimer]; exact Bool.false_ne_true)) (State.Kept.refl s)

end

/-! ### The statement -/

/-- Settles O41. -/
theorem announceListensAndTimersEndWhatTheyTime : Obligations.AnnounceListensAndTimersEndWhatTheyTime := by
  refine ⟨fun s hr h0 => ⟨fun hlow hkeys => ⟨fun ht => ?_, fun a hp hq => announcePress_talk hr h0 hlow hkeys hp hq,
    fun ht hq => announcePress_again hr h0 hlow hkeys ht hq⟩, fun c hc => ⟨fun ht => ?_, fun ht => ?_⟩, fun htimer => ?_⟩,
    fun s hr => ⟨fun he => ?_, fun he => ?_, startupCallWithdraw_says hr, startupCallWithdraw_none hr,
      fun htimer => ⟨fun w e => promptRelease_held hr htimer, promptRelease_free hr htimer⟩, promptRelease_none hr⟩⟩
  · obtain ⟨htalk, htimer, hset⟩ := s.endKeys.announced_open
    have hkept := s.endKeys.announcedAll.settleEvent_kept
    have hlisten : s.endKeys.announcedAll.settleEvent.intercom.listenSet = s.listeners := hkept.listenSet.trans hset
    refine ⟨_, announcePress_opens hr h0 hlow hkeys ht, ?_, hkept.announceTimer.trans htimer, hlisten, fun a => ?_,
      fun e hc hd he hform => ?_, fun hbusy => ?_, fun hq hseq ready hready => ?_, fun a ha hbusy hroom => ?_⟩
    · rw [State.settleEvent_talk_apart (by rw [htalk]; rfl), htalk]
    · rw [hkept.announced, hlisten]
      exact State.mem_announced (s := s.endKeys)
    · rw [hkept.endState, hkept.endTimer, hform]
      exact State.announced_listens (s := s.endKeys) (Console.ready_of hc hd) he
    · rw [hkept.endState]
      exact State.announced_endState (s := s.endKeys) (Console.not_ready_iff.2 hbusy)
    · rw [hlisten] at hready
      exact State.announced_commands (s := s.endKeys) (hq.of_same rfl rfl rfl rfl) hseq ready hready
    · rw [hlisten] at ha
      rw [hkept.deferred]
      exact State.announced_deferred (s := s.endKeys) ha (Console.not_ready_iff.2 hbusy) hroom
  · obtain ⟨f, hexec, hf⟩ := exec_announce_ends h0 hc
    have hkept := s.announceClosed.settleEvent_kept
    refine ⟨s.announceClosed.settleEvent, ?_, ?_, hkept.announceTimer, hkept.listenSet, hkept.announced,
      fun htold hc hd he => ?_, fun hq hok hcon ready hready => ?_, fun a hone => ?_⟩
    · rw [hexec, event_next hr, hf, State.endAnnounce_closes h0 ht]
    · exact s.announceClosed.settleEvent_talk.elim id id
    · rw [hkept.endState]
      exact State.announceClosed_idle htold (Console.ready_of hc hd) he
    · exact State.announceClosed_commands hq hok hcon.1 ready hready
    · obtain ⟨htold, huntold⟩ := State.announceClosed_deferred hone
      rw [hkept.deferred]
      refine ⟨fun ha hbusy => htold ha (Console.not_ready_iff.2 hbusy), fun ha => (huntold ha).trans ?_⟩
      exact List.filter_congr fun x _ => by cases x <;> rfl
  · obtain ⟨f, hexec, hf⟩ := exec_announce_ends h0 hc
    rw [hexec]
    exact event_keeps hr (hf.trans (State.endAnnounce_none ht)) (State.Kept.refl s)
  · rw [exec_announceTimerExpiry]
    exact event_keeps hr (if_neg (by rw [htimer]; exact Bool.false_ne_true)) (State.Kept.refl s)
  · rw [exec_endTalkTimerExpiry]
    exact event_keeps hr (State.endTimeOut_ends he) (State.Kept.refl _)
  · rw [exec_endTalkTimerExpiry]
    exact event_keeps hr (State.endTimeOut_stands he) (State.Kept.refl s)

end Sys2Proof.Machine
end

section
/-! PROOFS. The checks that the payments share, and the tenders of cash and account (O42, O43). -/
namespace Sys2Proof.Machine
open Sys2Proof

/-! ### What `State.Kept` reads of the payment block -/

theorem State.Kept.setPay {s t : State} (h : s.Kept t) (p : Pay) :
    ({ s with pay := p } : State).Kept { t with pay := p } := { h with pay := rfl }

theorem State.Kept.onPay {s t : State} (h : s.Kept t) (f : Pay → Pay) : (s.onPay f).Kept (t.onPay f) :=
  { h with pay := congrArg f h.pay }

/-! ### The slot moves to PAYING, and the hire is closed from there (R19, R146) -/

/-- The hire controller with this hire in PAYING, the resume window of a STOPPED one closed (R19). -/
def HireCtl.paying (c : HireCtl) (h : Hire) : HireCtl :=
  { c with slot := .paying h, resume := if c.slot = .stopped h then none else c.resume }

/-- The hire controller in PAYING with this hire as a tender has left it (R19). -/
def HireCtl.payingOn (c : HireCtl) (h h' : Hire) : HireCtl := { c.paying h with slot := .paying h' }

theorem State.toPaying_eq {s : State} {h : Hire} (hslot : s.hire.slot = .stopped h ∨ s.hire.slot = .paying h) :
    s.toPaying = s.onHire fun c => c.paying h := by
  unfold State.toPaying HireCtl.paying State.onHire
  dsimp only
  obtain hslot | hslot := hslot
  · rw [hslot, if_pos rfl]
  · rw [hslot, if_neg Slot.noConfusion]
    conv_rhs => rw [← hslot]

/-- The close of a hire leaves nothing of the slot and the resume window before it (R21). -/
theorem State.closeHire_paying (s : State) (h h' : Hire) (o : HireOutcome) :
    (s.onHire fun c => c.paying h).closeHire h' o = s.closeHire h' o := by
  rw [State.closeHire_eq, State.closeHire_eq]
  unfold State.withHireClosed
  rw [State.account_eq, State.account_eq]
  rfl

theorem State.settleNow_eq {s : State} {h : Hire} (hslot : s.hire.slot = .stopped h ∨ s.hire.slot = .paying h) :
    s.settleNow = s.closeHire h .settled := by
  unfold State.settleNow
  rw [State.toPaying_eq hslot]
  exact s.closeHire_paying h h .settled

/-! ### How a command with a reply ends -/

/-- A heard command that is answered: the reply stands after it. -/
theorem commandEvent_replied {s e v : State} {src : Source} {seq : Nat} {r : Reply} {f : State → State}
    (hr : s.supply.running = true) (hs : s.Hears src) (hf : f (s.took src seq) = v.replyTo src seq r) (hk : e.Kept v)
    (hc : v.console.cmds = (s.took src seq).console.cmds) (hv : v.silent = s.silent) :
    ∃ t, commandEvent src seq f s = .next t ∧ e.Kept t ∧ s.Replied t src seq r :=
  event_replied hr ((State.command_heard hs f).trans hf) hk (State.took_pending hc) hv

/-! ### The checks of a payment, in their order (R131, R144 to R146) -/

/-- A payment command is a payment of this hire by some operation after the shared checks. -/
theorem exec_payment {c : Instr} {src : Source} {seq tendered digits number : Nat}
    (hc : c = .payCash src seq tendered ∨ c = .payAccount src seq digits number ∨ c = .payCard src seq) (s : State) :
    ∃ f : State → Hire → State, exec c s = commandEvent src seq (fun u => u.takePayment src seq (f u)) s := by
  obtain rfl | rfl | rfl := hc <;> exact ⟨_, rfl⟩

/-- The CASH tender of an amount handed over: what it applies, and the change (R144). -/
def Hire.cashTender (h : Hire) (tendered : Nat) : Tender :=
  .cash (min tendered h.rc.remaining) tendered (tendered - min tendered h.rc.remaining)

section
variable {s : State} {h : Hire} (hslot : s.hire.slot = .stopped h ∨ s.hire.slot = .paying h)
  (src : Source) (seq : Nat)
include hslot

theorem State.payGate_due (f : Hire → State) : s.payGate src seq f = f h := by
  unfold State.payGate
  obtain hslot | hslot := hslot <;> rw [hslot]

theorem State.takePayment_active (f : Hire → State) (hactive : s.pay.session ≠ .none) :
    s.takePayment src seq f = s.refuse src seq .paymentActive := by
  unfold State.takePayment
  rw [State.payGate_due hslot, State.payRefusal, if_pos ((Session.active_iff _).2 hactive)]

variable (hnone : s.pay.session = .none)
include hnone

theorem State.takePayment_full (f : Hire → State) (hfull : 3 ≤ h.rc.tenders.length) :
    s.takePayment src seq f = s.refuse src seq .wrongState := by
  unfold State.takePayment
  rw [State.payGate_due hslot, State.payRefusal, if_neg fun ha => (Session.active_iff _).1 ha hnone, if_pos hfull]

variable (hroom : h.rc.tenders.length < 3)
include hroom

theorem State.takePayment_pass (f : Hire → State) : s.takePayment src seq f =
    if h.rc.remaining = 0 then s.settleNow.replyTo src seq .done else f h := by
  unfold State.takePayment
  rw [State.payGate_due hslot, State.payRefusal, if_neg fun ha => (Session.active_iff _).1 ha hnone,
    if_neg (Nat.not_le.2 hroom)]

theorem State.takePayment_settles (f : Hire → State) (hzero : h.rc.remaining = 0) :
    s.takePayment src seq f = (s.closeHire h .settled).replyTo src seq .done := by
  rw [State.takePayment_pass hslot src seq hnone hroom, if_pos hzero, State.settleNow_eq hslot]

variable (hleft : 0 < h.rc.remaining)
include hleft

/-- With something remaining, the command's own checks follow. -/
theorem State.takePayment_open (f : Hire → State) : s.takePayment src seq f = f h := by
  rw [State.takePayment_pass hslot src seq hnone hroom, if_neg (Nat.pos_iff_ne_zero.1 hleft)]

theorem State.takeCash_bad {tendered : Nat} (hbad : tendered = 0 ∨ 999999 < tendered) :
    s.takeCash src seq tendered = s.refuse src seq .amountRange := by
  unfold State.takeCash
  rw [State.takePayment_open hslot src seq hnone hroom hleft, if_pos (by omega)]

theorem State.takeCash_good {tendered : Nat} (hlo : 1 ≤ tendered) (hhi : tendered ≤ 999999) :
    s.takeCash src seq tendered = ((s.tender (h.cashTender tendered)).showChange
      (tendered - min tendered h.rc.remaining)).replyTo src seq .done := by
  unfold State.takeCash
  rw [State.takePayment_open hslot src seq hnone hroom hleft, if_neg (by omega)]
  rfl

theorem State.takeAccount_bad {digits number : Nat} (hbad : digits = 0 ∨ 8 < digits) :
    s.takeAccount src seq digits number = s.refuse src seq .amountRange := by
  unfold State.takeAccount
  rw [State.takePayment_open hslot src seq hnone hroom hleft, if_pos (by omega)]

theorem State.takeAccount_good {digits number : Nat} (hlo : 1 ≤ digits) (hhi : digits ≤ 8) :
    s.takeAccount src seq digits number = (s.tender (.account h.rc.remaining digits number)).replyTo src seq .done := by
  unfold State.takeAccount
  rw [State.takePayment_open hslot src seq hnone hroom hleft, if_neg (by omega)]

end

theorem Card.available_iff (c : Card) : c.available = true ↔ c.currency ≠ none
    ∧ (c.moduleState = .ready ∨ c.moduleState = .cardWait ∨ c.moduleState = .processing) := by
  rw [← Option.isSome_iff_ne_none, Card.available, Bool.and_eq_true]
  cases c.moduleState <;> simp

section
variable {s : State} {h : Hire} (hslot : s.hire.slot = .stopped h ∨ s.hire.slot = .paying h)
  (src : Source) (seq : Nat) (hnone : s.pay.session = .none) (hroom : h.rc.tenders.length < 3) (hleft : 0 < h.rc.remaining)
include hslot hnone hroom hleft

theorem State.takeCard_unavailable (hcard : s.card.currency = none ∨ s.card.moduleState = .notFitted
      ∨ s.card.moduleState = .unknown ∨ s.card.moduleState = .outOfService ∨ s.card.moduleState = .absent) :
    s.takeCard src seq = s.refuse src seq .cardUnavailable := by
  have hno : ¬ s.card.available = true := by
    rw [Card.available_iff]
    rintro ⟨hcur, hm⟩
    obtain hc | hc := hcard
    · exact hcur hc
    · obtain hm | hm | hm := hm <;> rw [hm] at hc <;> simp at hc
  unfold State.takeCard
  rw [State.takePayment_open hslot src seq hnone hroom hleft, if_pos (by simpa using hno)]

variable (hcur : s.card.currency ≠ none)
  (hm : s.card.moduleState = .ready ∨ s.card.moduleState = .cardWait ∨ s.card.moduleState = .processing)
include hcur hm

theorem State.takeCard_available : s.takeCard src seq = if 4 ≤ s.pay.reversals.length then s.refuse src seq .cardBlocked
    else ((s.toPaying.hireChanged).beginSession h).replyTo src seq .done := by
  unfold State.takeCard
  rw [State.takePayment_open hslot src seq hnone hroom hleft, s.card.available_iff.2 ⟨hcur, hm⟩]
  rfl

end

/-- Settles O42. -/
theorem paymentsAreCheckedInOrder : Obligations.PaymentsAreCheckedInOrder := by
  intro src seq tendered digits number c h s hr hs hslot hc
  obtain ⟨f, hexec⟩ := exec_payment hc s
  have hslot' : (s.took src seq).hire.slot = .stopped h ∨ (s.took src seq).hire.slot = .paying h := by
    rwa [State.took_hire]
  have hpay : (s.took src seq).pay = s.pay := s.took_pay src seq
  have hcard : (s.took src seq).card = s.card := s.took_card src seq
  refine ⟨fun hactive => ?_, fun hnone hfull => ?_, fun hnone hroom hzero => ?_, fun hnone hroom hleft => ?_⟩
  · rw [← hpay] at hactive
    rw [hexec]
    exact commandEvent_refused hr hs (State.takePayment_active hslot' src seq _ hactive)
  · rw [← hpay] at hnone
    rw [hexec]
    exact commandEvent_refused hr hs (State.takePayment_full hslot' src seq hnone _ hfull)
  · rw [← hpay] at hnone
    rw [hexec]
    exact commandEvent_closes hr hs (State.takePayment_settles hslot' src seq hnone hroom _ hzero)
  · rw [← hpay] at hnone
    refine ⟨?_, ?_, ?_, ?_⟩
    · rintro rfl hbad
      exact commandEvent_refused (f := fun u => u.takeCash src seq tendered) hr hs
        (State.takeCash_bad hslot' src seq hnone hroom hleft hbad)
    · rintro rfl hbad
      exact commandEvent_refused (f := fun u => u.takeAccount src seq digits number) hr hs
        (State.takeAccount_bad hslot' src seq hnone hroom hleft hbad)
    · rintro rfl hbad
      rw [← hcard] at hbad
      exact commandEvent_refused (f := fun u => u.takeCard src seq) hr hs
        (State.takeCard_unavailable hslot' src seq hnone hroom hleft hbad)
    · rintro rfl hcur hm hblocked
      rw [← hcard] at hcur hm
      rw [← hpay] at hblocked
      exact commandEvent_refused (f := fun u => u.takeCard src seq) hr hs
        ((State.takeCard_available hslot' src seq hnone hroom hleft hcur hm).trans (if_pos hblocked))

/-! ### A tender (R19) -/

/-- A hire with one more tender (R19). -/
def Hire.tendered (h : Hire) (t : Tender) : Hire := { h with rc := { h.rc with tenders := h.rc.tenders ++ [t] } }

/-- A tender reaches due and tip when it applies all that remains. -/
theorem Hire.tendered_reaches (h : Hire) (t : Tender) :
    (h.tendered t).rc.owed ≤ (h.tendered t).rc.appliedSum ↔ h.rc.remaining ≤ t.applied := by
  have hsum : (h.tendered t).rc.appliedSum = h.rc.appliedSum + t.applied := by
    simp [Hire.tendered, HireRecord.appliedSum]
  have howed : (h.tendered t).rc.owed = h.rc.owed := rfl
  rw [hsum, howed, HireRecord.remaining]
  omega

section
variable {s : State} {h : Hire} (hroom : h.rc.tenders.length < 3)
include hroom

theorem State.applyTender_eq (hslot : s.hire.slot = .paying h) (t : Tender) : s.applyTender t =
    if (h.tendered t).rc.owed ≤ (h.tendered t).rc.appliedSum then s.closeHire (h.tendered t) .settled
    else s.onHire fun c => { c with slot := .paying (h.tendered t) } := by
  unfold State.applyTender
  rw [hslot]
  exact if_pos hroom

variable (hslot : s.hire.slot = .stopped h ∨ s.hire.slot = .paying h)
include hslot

theorem State.tender_settles {t : Tender} (hall : h.rc.remaining ≤ t.applied) :
    s.tender t = s.hireChanged.closeHire (h.tendered t) .settled := by
  unfold State.tender
  rw [State.toPaying_eq hslot, State.applyTender_eq (h := h) hroom rfl, if_pos ((h.tendered_reaches t).2 hall)]
  exact s.hireChanged.closeHire_paying h (h.tendered t) .settled

theorem State.tender_waits {t : Tender} (hpart : t.applied < h.rc.remaining) :
    s.tender t = (s.onHire fun c => c.payingOn h (h.tendered t)).hireChanged := by
  unfold State.tender
  rw [State.toPaying_eq hslot, State.applyTender_eq (h := h) hroom rfl,
    if_neg fun hreach => Nat.not_le.2 hpart ((h.tendered_reaches t).1 hreach)]
  rfl

end

/-- The display with the change of a cash tender (R144, R178). -/
def Display.changed (d : Display) (change : Nat) : Display :=
  { d with outcome := none, change := some change, timer := some 100000 }

/-- The change is shown alike whatever waits for its frame. -/
theorem State.Kept.showChange {s t : State} (h : s.Kept t) (change : Nat) :
    (s.showChange change).Kept (t.showChange change) :=
  { h with display := congrArg (fun d : Display => d.changed change) h.display }

/-- The change is shown beside a hire event that has been said. -/
theorem State.sayHireEvent_showChange (s : State) (e : HireEvent) (change : Nat) :
    (s.sayHireEvent e).showChange change = (s.showChange change).sayHireEvent e := by
  unfold State.sayHireEvent
  rw [show (s.showChange change).silent = s.silent from rfl]
  split <;> rfl

/-- Settles O43. -/
theorem cashAndAccountTendersAreApplied : Obligations.CashAndAccountTendersAreApplied := by
  intro src seq tendered digits number h s hr hs hslot hnone hroom hleft
  have hslot' : (s.took src seq).hire.slot = .stopped h ∨ (s.took src seq).hire.slot = .paying h := by
    rwa [State.took_hire]
  have hkept := s.took_kept src seq
  have hclosed (h' : Hire) := (s.took src seq).hireChanged.withHireClosed_other h' .settled
  rw [← s.took_pay src seq] at hnone
  refine ⟨?_, ?_⟩
  · rintro hlo hhi shown rfl h' (hh : h' = h.tendered (h.cashTender tendered))
    have hf := State.takeCash_good hslot' src seq hnone hroom hleft hlo hhi
    refine ⟨fun hpart => ?_, fun hall => ?_⟩
    · rw [State.tender_waits hroom hslot' (Nat.lt_of_le_of_lt (Nat.min_le_left _ _) hpart), ← hh] at hf
      exact commandEvent_replied (f := fun u => u.takeCash src seq tendered) hr hs hf
        ((s.took_onHire_kept src seq fun c => c.payingOn h h').hireChanged.showChange _) rfl (s.took_silent src seq)
    · rw [State.tender_settles (t := h.cashTender tendered) hroom hslot' (Nat.le_min.2 ⟨hall, Nat.le_refl _⟩),
        State.closeHire_eq, State.sayHireEvent_showChange] at hf
      subst hh
      obtain ⟨hcon, hsil⟩ := hclosed (h.tendered (h.cashTender tendered))
      exact commandEvent_told (f := fun u => u.takeCash src seq tendered) hr hs hf
        ((hkept.hireChanged.hireClosed _ .settled).showChange _) (congrArg Console.cmds hcon)
        (hsil.trans (s.took_silent src seq))
  · rintro hlo hhi h' rfl
    have hf := State.takeAccount_good hslot' src seq hnone hroom hleft (number := number) hlo hhi
    rw [State.tender_settles hroom hslot' (Nat.le_refl _), State.closeHire_eq] at hf
    obtain ⟨hcon, hsil⟩ := hclosed (h.tendered (.account h.rc.remaining digits number))
    exact commandEvent_told (f := fun u => u.takeAccount src seq digits number) hr hs hf
      (hkept.hireChanged.hireClosed _ .settled) (congrArg Console.cmds hcon) (hsil.trans (s.took_silent src seq))

end Sys2Proof.Machine
end

section
/-! PROOFS. The card session: how it begins, and how it is cancelled (O44). -/
namespace Sys2Proof.Machine
open Sys2Proof

/-! ### The prompt request (R120) -/

/-- The prompt takes the speaker from the own end. -/
def Intercom.promptHolds (i : Intercom) : Bool :=
  match i.endState with
  | .connected => true
  | .listen => true
  | _ => false

section
variable (s : State)

theorem State.raisePrompt_eq : s.raisePrompt = s.moved s.intercom.prompted s.intercom.promptHolds := by
  unfold State.raisePrompt Intercom.prompted Intercom.promptHolds
  cases he : s.intercom.endState with
  | connected => rfl
  | listen => rfl
  | _ =>
    dsimp only
    rw [← he]
    rfl

theorem State.raisePrompt_kept : ({ s with intercom := s.intercom.prompted } : State).Kept s.raisePrompt := by
  rw [State.raisePrompt_eq]
  exact s.moved_kept _ _

theorem State.raisePrompt_other : s.raisePrompt.console = s.console ∧ s.raisePrompt.silent = s.silent := by
  obtain ⟨j, os, hform, -⟩ := s.moved_form s.intercom.prompted s.intercom.promptHolds
  rw [State.raisePrompt_eq, hform]
  exact ⟨rfl, rfl⟩

theorem State.saySpeakerFree_other : s.saySpeakerFree.console = s.console ∧ s.saySpeakerFree.silent = s.silent := by
  unfold State.saySpeakerFree State.talkFreed State.sayEvent
  repeat' split
  all_goals exact ⟨rfl, rfl⟩

/-- Releasing the prompt gives a HELD end its speaker back, and says so (R120). -/
theorem State.releasePrompt_eq :
    s.releasePrompt = ({ s with intercom := s.intercom.unprompted } : State).saySpeakerFree
      ∨ s.releasePrompt = { s with intercom := s.intercom.unprompted } := by
  unfold State.releasePrompt Intercom.unprompted
  cases he : s.intercom.endState with
  | held w => cases w <;> exact Or.inl rfl
  | _ =>
    dsimp only
    rw [← he]
    exact Or.inr rfl

theorem State.releasePrompt_kept : ({ s with intercom := s.intercom.unprompted } : State).Kept s.releasePrompt := by
  obtain heq | heq := s.releasePrompt_eq <;> rw [heq]
  · exact State.saySpeakerFree_kept _
  · exact .refl _

theorem State.releasePrompt_other : s.releasePrompt.console = s.console ∧ s.releasePrompt.silent = s.silent := by
  obtain heq | heq := s.releasePrompt_eq <;> rw [heq]
  · exact State.saySpeakerFree_other _
  · exact ⟨rfl, rfl⟩

end

/-! ### A session begins (R131 to R133, R135) -/

theorem State.tipStepFirst_iff (s : State) (h : Hire) : s.tipStepFirst h = true ↔
    h.rc.tenders = [] ∧ h.rc.tip = none ∧ (∃ im, s.image = some im ∧ im.tips ≠ []) ∧ s.straps.buttons = true := by
  have himage : ((s.image.map fun im => !im.tips.isEmpty).getD false) = true ↔ ∃ im, s.image = some im ∧ im.tips ≠ [] := by
    cases s.image <;> simp
  unfold State.tipStepFirst
  rw [Bool.and_eq_true, Bool.and_eq_true, Bool.and_eq_true, himage, List.isEmpty_iff, Option.isNone_iff_eq_none, and_assoc,
    and_assoc]

/-- What the payment block holds as a session begins: the tip step, or the request of what remains (R132, R135). -/
def Pay.BegunAs (p : Pay) (h : Hire) (tipStep : Prop) (pay : Pay) : Prop :=
  (tipStep ∧ pay = { p with session := .tipSelect 0, tipTimer := some 300000 })
    ∨ (¬ tipStep ∧ pay = { p with session := .cardWait h.cardSession, tipTimer := none })

theorem State.beginSession_eq {s : State} {h : Hire} {pay : Pay} (hm : s.card.moduleState ≠ .outOfService)
    (hm' : s.card.moduleState ≠ .absent) (hpay : s.pay.BegunAs h (s.tipStepFirst h = true) pay) :
    s.beginSession h = ({ s with pay := pay } : State).raisePrompt := by
  unfold State.beginSession
  obtain ⟨htip, rfl⟩ | ⟨htip, rfl⟩ := hpay
  · rw [if_pos htip]
    rfl
  · rw [if_neg htip, State.formRequest_waits h hm hm']
    rfl

theorem Hire.cardSession_eq (h : Hire) : h.cardSession =
    { amount := h.rc.remaining, tip := if h.rc.tenders = [] then h.rc.tip.getD 0 else 0
      txn := none, cancelReq := false, cancelSent := false } := by
  unfold Hire.cardSession
  cases h.rc.tenders <;> rfl

/-- The station with this hire in PAYING, its display cleared, and this payment block. -/
def State.payingCard (s : State) (h : Hire) (pay : Pay) : State :=
  { s with hire := s.hire.paying h, display := s.display.cleared, pay := pay }

theorem State.takeCard_begins {s : State} {h : Hire} {pay : Pay}
    (hslot : s.hire.slot = .stopped h ∨ s.hire.slot = .paying h) (src : Source) (seq : Nat) (hnone : s.pay.session = .none)
    (hroom : h.rc.tenders.length < 3) (hleft : 0 < h.rc.remaining) (hcur : s.card.currency ≠ none)
    (hm : s.card.moduleState = .ready ∨ s.card.moduleState = .cardWait ∨ s.card.moduleState = .processing)
    (hfew : s.pay.reversals.length < 4) (hpay : s.pay.BegunAs h (s.tipStepFirst h = true) pay) :
    s.takeCard src seq = (s.payingCard h pay).raisePrompt.replyTo src seq .done := by
  have hopen : s.card.moduleState ≠ .outOfService ∧ s.card.moduleState ≠ .absent := by
    obtain hm | hm | hm := hm <;> rw [hm] <;> exact ⟨ModuleState.noConfusion, ModuleState.noConfusion⟩
  rw [State.takeCard_available hslot src seq hnone hroom hleft hcur hm, if_neg (Nat.not_le.2 hfew), State.toPaying_eq hslot]
  exact congrArg (fun u : State => u.replyTo src seq .done) (State.beginSession_eq hopen.1 hopen.2 hpay)

section
variable {s : State} {src : Source} {seq : Nat} {h : Hire} (hr : s.supply.running = true) (hs : s.Hears src)
include hr hs

/-- A PAY_CARD that is taken: the slot in PAYING, the display cleared, the session begun and the prompt raised. -/
theorem payCard_begins {pay : Pay} (hslot : s.hire.slot = .stopped h ∨ s.hire.slot = .paying h) (hnone : s.pay.session = .none)
    (hroom : h.rc.tenders.length < 3) (hleft : 0 < h.rc.remaining) (hcur : s.card.currency ≠ none)
    (hm : s.card.moduleState = .ready ∨ s.card.moduleState = .cardWait ∨ s.card.moduleState = .processing)
    (hfew : s.pay.reversals.length < 4) (hpay : s.pay.BegunAs h (s.tipStepFirst h = true) pay) :
    ∃ t, exec (.payCard src seq) s = .next t
      ∧ ({ s.payingCard h pay with intercom := s.intercom.prompted } : State).Kept t ∧ s.Replied t src seq .done := by
  have htip : (s.took src seq).tipStepFirst h = s.tipStepFirst h := by cases src <;> rfl
  rw [← s.took_hire src seq] at hslot
  rw [← s.took_card src seq] at hcur hm
  rw [← htip] at hpay
  rw [← s.took_pay src seq] at hnone hfew hpay
  have hf := State.takeCard_begins hslot src seq hnone hroom hleft hcur hm hfew hpay
  have hbegun : (s.payingCard h pay).Kept ((s.took src seq).payingCard h pay) :=
    (s.took_onHire_kept src seq fun c => c.paying h).hireChanged.setPay pay
  obtain ⟨hcon, hsil⟩ := ((s.took src seq).payingCard h pay).raisePrompt_other
  refine commandEvent_replied (f := fun u => u.takeCard src seq) hr hs hf
    ((hbegun.setIntercom (.refl s.intercom.prompted)).trans ?_) (congrArg Console.cmds hcon)
    (hsil.trans (s.took_silent src seq))
  rw [← s.took_intercom src seq]
  exact State.raisePrompt_kept _

/-! ### CARD_CANCEL (R134, R140) -/

variable (hslot : s.hire.slot = .paying h)
include hslot

theorem cardCancel_none (hnone : s.pay.session = .none) : ∃ t, exec (.cardCancel src seq) s = .next t ∧ s.Kept t
    ∧ s.Replied t src seq (.refused .wrongState) := by
  refine commandEvent_refused (f := fun u => u.takeCardCancel src seq) hr hs ?_
  unfold State.takeCardCancel
  rw [State.took_hire, hslot, State.took_pay, hnone]
  rfl

/-- With a session active the command is DONE, whatever the cancel does (R140). -/
theorem cardCancel_active {e : State} (hactive : s.pay.session ≠ .none) (hk : e.Kept (s.took src seq).cancelSession)
    (hcon : (s.took src seq).cancelSession.console = (s.took src seq).console)
    (hsil : (s.took src seq).cancelSession.silent = (s.took src seq).silent) :
    ∃ t, exec (.cardCancel src seq) s = .next t ∧ e.Kept t ∧ s.Replied t src seq .done := by
  refine commandEvent_replied (f := fun u => u.takeCardCancel src seq) hr hs ?_ hk (congrArg Console.cmds hcon)
    (hsil.trans (s.took_silent src seq))
  unfold State.takeCardCancel
  rw [State.took_hire, hslot, State.took_pay]
  exact if_pos ((Session.active_iff _).2 hactive)

end

section
variable {s : State}

/-- In the tip step, and before the PAY has been sent, a cancel ends the session (R134, R140). -/
theorem State.cancelSession_early (h : (∃ c, s.pay.session = .tipSelect c) ∨ ∃ q, s.pay.session = .cardWait q ∧ q.txn = none) :
    s.cancelSession = s.endQuietly := by
  unfold State.cancelSession
  obtain ⟨c, hs⟩ | ⟨q, hs, hq⟩ := h <;> rw [hs]
  exact if_pos (by rw [hq]; rfl)

theorem State.cancelSession_late {q : CardSession}
    (h : (s.pay.session = .cardWait q ∧ q.txn ≠ none) ∨ s.pay.session = .enquiry q) :
    s.cancelSession = s.requestCancel := by
  unfold State.cancelSession
  obtain ⟨hs, hq⟩ | hs := h <;> rw [hs]
  exact if_neg (by simpa using hq)

theorem State.endQuietly_kept {t : State} (h : s.Kept t) (hi : t.intercom = s.intercom) :
    ({ s with pay := { s.pay with session := .none, tipTimer := none, overall := none }
              intercom := s.intercom.unprompted } : State).Kept t.endQuietly := by
  refine .trans ?_ t.endSession.releasePrompt_kept
  rw [show t.endSession.intercom = s.intercom from hi]
  exact (h.onPay fun p => { p with session := .none, tipTimer := none, overall := none }).setIntercom (.refl _)

end

/-- Settles O44. -/
theorem cardSessionIsBegunAndCancelled : Obligations.CardSessionIsBegunAndCancelled := by
  refine ⟨?_, fun src seq h s hr hs hslot => ⟨cardCancel_none hr hs hslot, fun hearly => ?_, fun q session hlate => ?_⟩⟩
  · rintro src seq h s hr hs hslot hnone hroom hleft hcur hm hfew tipStep rfl pay hpay
    rw [← State.tipStepFirst_iff, ← Hire.cardSession_eq] at hpay
    exact payCard_begins hr hs hslot hnone hroom hleft hcur hm hfew hpay
  · have heq : (s.took src seq).cancelSession = (s.took src seq).endQuietly :=
      State.cancelSession_early (by rwa [State.took_pay])
    have hactive : s.pay.session ≠ .none := by
      obtain ⟨c, hc⟩ | ⟨q, hq, -⟩ := hearly
      · rw [hc]
        exact Session.noConfusion
      · rw [hq]
        exact Session.noConfusion
    obtain ⟨hcon, hsil⟩ := (s.took src seq).endSession.releasePrompt_other
    refine cardCancel_active hr hs hslot hactive ?_ (heq ▸ hcon) (heq ▸ hsil)
    rw [heq]
    exact State.endQuietly_kept (s.took_kept src seq) (s.took_intercom src seq)
  · have heq : (s.took src seq).cancelSession = (s.took src seq).onPay fun p => { p with session := session } := by
      rw [State.cancelSession_late (q := q), State.requestCancel_active (q := q)]
      · rw [State.took_pay]
        exact hlate.imp (fun ⟨hq, _, hs⟩ => ⟨hq, hs⟩) id
      · rw [State.took_pay]
        exact hlate.imp (fun ⟨hq, ht, _⟩ => ⟨hq, ht⟩) And.left
    have hactive : s.pay.session ≠ .none := by
      obtain ⟨hq, -, -⟩ | ⟨hq, -⟩ := hlate
      all_goals
        rw [hq]
        exact Session.noConfusion
    refine cardCancel_active hr hs hslot hactive ?_ (by rw [heq]; rfl) (by rw [heq]; rfl)
    rw [heq]
    exact (s.took_kept src seq).onPay fun p => { p with session := session }

end Sys2Proof.Machine
end

section
/-! PROOFS. What goes out on the card line (O46). -/
namespace Sys2Proof.Machine
open Sys2Proof

/-- A card frame is a start byte and what its check holds of (R125). -/
theorem CardReq.bytes_framed (q : CardReq) : ∃ body, q.bytes = 2#8 :: body ∧ crc16 body = 0 := by
  cases q <;> exact ⟨_, rfl, crc16_withCrc16 _⟩

theorem Session.card?_eq {x : Session} {q : CardSession} (h : x = .cardWait q ∨ x = .enquiry q) : x.card? = some q := by
  obtain rfl | rfl := h <;> rfl

section
variable {s : State}

/-! ### The session's PAY and CANCEL (R130, R135, R140) -/

theorem State.sendPay_free {q : CardSession} {txn : Nat} (hfree : s.card.out = none) (hs : s.pay.session = .cardWait q)
    (hwait : q.txn = none) (htxn : txn = s.freeTxn 104 s.card.nextTxn) :
    s.sendPay = ((s.onPay fun p => { p with session := .cardWait { q with txn := some txn }, overall := some 900000 }).onCard
      fun c => { c with nextTxn := succTxn txn, missed := 0 }).sendCard (.pay txn q.amount q.tip (s.card.currency.getD 0)) := by
  have hready : q.txn.isNone = true ∧ s.cardIdle = true := ⟨by rw [hwait]; rfl, by rw [State.cardIdle, hfree]; rfl⟩
  unfold State.sendPay
  rw [hs]
  dsimp only
  rw [if_pos hready, ← htxn]
  rfl

theorem State.sendPay_busy (hbusy : s.card.out ≠ none) : s.sendPay = s := by
  unfold State.sendPay
  cases s.pay.session with
  | cardWait q => exact if_neg fun hready => hbusy (Option.isNone_iff_eq_none.1 hready.2)
  | _ => rfl

theorem State.cancelWaiting_eq {q : CardSession} (hq : s.pay.session.card? = some q) :
    s.cancelWaiting = (q.txn.isSome && q.cancelReq && !q.cancelSent) := by
  unfold State.cancelWaiting
  rw [hq]

theorem State.sendCancel_free {q : CardSession} {txn : Nat} (hfree : s.card.out = none) (hq : s.pay.session.card? = some q)
    (htxn : q.txn = some txn) (hreq : q.cancelReq = true) (hunsent : q.cancelSent = false) :
    s.sendCancel = (s.onPay fun p => { p with session := p.session.cancelIsSent }).sendCard (.cancel txn) := by
  have hready : s.cancelWaiting = true ∧ s.cardIdle = true :=
    ⟨by rw [State.cancelWaiting_eq hq, htxn, hreq, hunsent]; rfl, by rw [State.cardIdle, hfree]; rfl⟩
  unfold State.sendCancel
  rw [if_pos hready, hq, Option.bind_some, htxn]
  rfl

theorem State.sendCancel_busy (hbusy : s.card.out ≠ none) : s.sendCancel = s :=
  if_neg fun hready => hbusy (Option.isNone_iff_eq_none.1 hready.2)

/-! ### The tick (R128, R142) -/

/-- The station with its poll interval begun again. -/
def State.ticked (s : State) : State := s.onCard fun c => { c with poll := some c.pollInterval }

theorem State.takeTick_stopped (hpoll : s.card.poll = none) : s.takeTick = s := by
  unfold State.takeTick
  rw [hpoll]
  rfl

section
variable (hpoll : s.card.poll ≠ none)
include hpoll

theorem State.takeTick_eq : s.takeTick = if s.cardIdle ∧ !s.payWaiting ∧ !s.cancelWaiting then
    match s.tickRequest with
    | some q => s.ticked.sendCard q
    | none => s.ticked
    else s.ticked := by
  unfold State.takeTick
  rw [if_pos (Option.isSome_iff_ne_none.2 hpoll)]
  rfl

theorem State.takeTick_sends {q : CardReq} (hfree : s.card.out = none) (hpay : s.payWaiting = false)
    (hcancel : s.cancelWaiting = false) (hreq : s.tickRequest = some q) : s.takeTick = s.ticked.sendCard q := by
  rw [State.takeTick_eq hpoll, State.cardIdle, hfree, hpay, hcancel, if_pos ⟨rfl, rfl, rfl⟩, hreq]

theorem State.takeTick_busy (hbusy : s.card.out ≠ none) : s.takeTick = s.ticked := by
  rw [State.takeTick_eq hpoll, if_neg fun hready => hbusy (Option.isNone_iff_eq_none.1 hready.1)]

/-- In CARD_WAIT a tick sends nothing. -/
theorem State.takeTick_cardWait {q : CardSession} (hs : s.pay.session = .cardWait q) : s.takeTick = s.ticked := by
  have hreq : s.tickRequest = none := by rw [State.tickRequest, hs]
  rw [State.takeTick_eq hpoll, hreq, ite_self]

theorem State.takeTick_enquiry {q : CardSession} {txn : Nat} (hfree : s.card.out = none) (hs : s.pay.session = .enquiry q)
    (htxn : q.txn = some txn) (hcancel : q.cancelReq = false ∨ q.cancelSent = true) :
    s.takeTick = s.ticked.sendCard (.enquire txn) := by
  refine State.takeTick_sends hpoll hfree (by rw [State.payWaiting, hs]) ?_ ?_
  · rw [State.cancelWaiting_eq (Session.card?_eq (Or.inr hs))]
    obtain h | h := hcancel <;> simp [h]
  · rw [State.tickRequest, hs]
    dsimp only
    rw [htxn]
    rfl

/-- With no transaction under way a tick sends the REVERSE of the oldest entry, or a POLL. -/
theorem State.takeTick_rest {req : CardReq} (hfree : s.card.out = none)
    (hs : s.pay.session = .none ∨ ∃ c, s.pay.session = .tipSelect c)
    (hreq : (s.pay.reversals = [] ∧ req = .poll)
      ∨ ∃ r rest, s.pay.reversals = r :: rest ∧ req = .reverse r.txn r.amount) :
    s.takeTick = s.ticked.sendCard req := by
  have hpay : s.payWaiting = false := by
    unfold State.payWaiting
    obtain hs | ⟨c, hs⟩ := hs <;> rw [hs]
  have hcancel : s.cancelWaiting = false := by
    unfold State.cancelWaiting
    obtain hs | ⟨c, hs⟩ := hs <;> rw [hs] <;> rfl
  refine State.takeTick_sends hpoll hfree hpay hcancel ?_
  unfold State.tickRequest
  obtain ⟨hr, rfl⟩ | ⟨r, rest, hr, rfl⟩ := hreq <;> obtain hs | ⟨c, hs⟩ := hs <;> rw [hs, hr]

end

/-! ### The last byte has left (R125) -/

theorem State.requestSent_unsent {o : CardOut} (ho : s.card.out = some o) (hunsent : o.sent = false) :
    s.requestSent = s.onCard fun c => { c with out := some { o with sent := true, timer := some c.respLimit } } := by
  unfold State.requestSent
  rw [ho]
  dsimp only
  rw [hunsent]
  rfl

end

section
variable (s : State)

theorem exec_cardPaySend : exec .cardPaySend s = event State.sendPay s := rfl

theorem exec_cardCancelSend : exec .cardCancelSend s = event State.sendCancel s := rfl

theorem exec_pollTick : exec .pollTick s = event State.takeTick s := rfl

theorem exec_cardRequestSent : exec .cardRequestSent s = event State.requestSent s := rfl

end

/-- Settles O46. -/
theorem cardRequestsGoOut : Obligations.CardRequestsGoOut := by
  rintro s hr out rfl line rfl
  rw [exec_cardPaySend, exec_cardCancelSend, exec_pollTick, exec_cardRequestSent]
  refine ⟨fun hfree => ⟨?_, ?_, ?_⟩, fun o ho => ⟨fun hpoll => ?_, ?_, fun hunsent => ?_⟩, fun hpoll => ?_,
    CardReq.bytes_framed⟩
  · rintro q txn req hs hwait htxn rfl
    exact event_keeps hr (State.sendPay_free hfree hs hwait htxn) (.refl _)
  · rintro q txn session htxn hreq hunsent hs
    have hq : s.pay.session.card? = some q := Session.card?_eq (hs.imp And.left And.left)
    have hmarked : s.pay.session.cancelIsSent = session := by
      obtain ⟨hs, rfl⟩ | ⟨hs, rfl⟩ := hs <;> rw [hs] <;> rfl
    refine event_keeps hr (State.sendCancel_free hfree hq htxn hreq hunsent) ?_
    rw [← hmarked]
    exact .refl _
  · rintro hpoll poll rfl
    exact ⟨fun q txn hs htxn hcancel => event_keeps hr (State.takeTick_enquiry hpoll hfree hs htxn hcancel) (.refl _),
      fun q hs => event_keeps hr (State.takeTick_cardWait hpoll hs) (.refl _),
      fun req hs hreq => event_keeps hr (State.takeTick_rest hpoll hfree hs hreq) (.refl _)⟩
  · exact event_keeps hr (State.takeTick_busy hpoll (by rw [ho]; exact Option.some_ne_none o)) (.refl _)
  · have hbusy : s.card.out ≠ none := by rw [ho]; exact Option.some_ne_none o
    rintro c (rfl | rfl)
    · exact event_keeps hr (State.sendPay_busy hbusy) (.refl s)
    · exact event_keeps hr (State.sendCancel_busy hbusy) (.refl s)
  · exact event_keeps hr (State.requestSent_unsent ho hunsent) (.refl _)
  · exact event_keeps hr (State.takeTick_stopped hpoll) (.refl s)

end Sys2Proof.Machine
end

section
/-! PROOFS. Response limits that expire (O47). -/
namespace Sys2Proof.Machine
open Sys2Proof

/-! ### The request outstanding (R127) -/

theorem Card.outstanding_sent {c : Card} {o : CardOut} (ho : c.out = some o) (hsent : o.sent = true) :
    c.outstanding = some o.req := by
  rw [Card.outstanding, ho]
  exact if_pos hsent

theorem Card.outstanding_none {c : Card} (h : c.out = none ∨ ∃ o, c.out = some o ∧ o.sent = false) : c.outstanding = none := by
  unfold Card.outstanding
  obtain h | ⟨o, ho, hunsent⟩ := h
  · rw [h]
    rfl
  · rw [ho]
    exact if_neg (by rw [hunsent]; exact Bool.false_ne_true)

/-! ### A miss (R127, R129, R139, R142) -/

/-- The entries of the reversal list after a request of no session is missed: a REVERSE counts an attempt of its own (R142). -/
def CardReq.attempted (req : CardReq) (r : Reversal) : Reversal :=
  match req with
  | .reverse txn _ => if r.txn = txn then { r with attempts := min 255 (r.attempts + 1) } else r
  | _ => r

section
variable {s : State} {req : CardReq}

theorem State.takeMiss_none (h : s.card.outstanding = none) : s.takeMiss = s := by
  unfold State.takeMiss
  rw [h]

/-- A missed POLL or REVERSE (R129, R142). -/
theorem State.takeMiss_idle (h : s.card.outstanding = some req) (hidle : req.ofSession = false) :
    s.takeMiss = s.missIdle.onPay fun p => { p with reversals := p.reversals.map req.attempted } := by
  unfold State.takeMiss
  rw [h]
  cases req with
  | poll =>
    show s.missIdle = s.missIdle.onPay fun p => { p with reversals := p.reversals.map fun r => r }
    simp only [List.map_id_fun']
    rfl
  | reverse txn amount => rfl
  | _ => exact absurd hidle Bool.noConfusion

theorem State.takeMiss_session (h : s.card.outstanding = some req) (hsession : req.ofSession = true) :
    s.takeMiss = s.missSession := by
  unfold State.takeMiss
  rw [h]
  cases req with
  | poll => exact absurd hsession Bool.noConfusion
  | reverse txn amount => exact absurd hsession Bool.noConfusion
  | _ => rfl

theorem State.missSession_enquires {q : CardSession} (hq : s.pay.session.card? = some q) (hfew : s.card.missed < 2) :
    s.missSession = (s.onCard fun c => { c with out := none, missed := c.missed + 1 }).toEnquiry q := by
  have hless : ¬ 3 ≤ s.card.missed + 1 := by omega
  unfold State.missSession
  dsimp only [State.onCard]
  rw [hq]
  exact if_neg hless

theorem State.missSession_doubts {q : CardSession} (hq : s.pay.session.card? = some q) (hthird : 2 ≤ s.card.missed) :
    s.missSession = (s.onCard fun c => { c with out := none, missed := c.missed + 1 }).inDoubt q := by
  have hmore : 3 ≤ s.card.missed + 1 := by omega
  unfold State.missSession
  dsimp only [State.onCard]
  rw [hq]
  exact if_pos hmore

end

/-! ### The rows of the table (log entry 4) -/

section
variable (s : State)

theorem exec_cardResponseExpiry : exec .cardResponseExpiry s = event State.takeMiss s := rfl

theorem exec_moduleAbsent : exec .moduleAbsent s = event (fun u =>
    if u.card.outstanding.isSome ∧ !u.missIsSession ∧ u.card.missed = 2 then u.takeMiss else u) s := rfl

theorem exec_transactionInDoubt : exec .transactionInDoubt s = event (fun u =>
    if u.missIsSession ∧ u.card.missed = 2 then u.takeMiss else u) s := rfl

end

section
variable {s : State} {req : CardReq}

theorem State.missIsSession_eq (h : s.card.outstanding = some req) : s.missIsSession = req.ofSession := by
  rw [State.missIsSession, h]
  rfl

theorem moduleAbsent_third (h : s.card.outstanding = some req) (hidle : req.ofSession = false) (hthird : s.card.missed = 2) :
    exec .moduleAbsent s = exec .cardResponseExpiry s := by
  rw [exec_moduleAbsent, exec_cardResponseExpiry]
  exact event_congr (if_pos ⟨by rw [h]; rfl, by rw [State.missIsSession_eq h, hidle]; rfl, hthird⟩)

theorem transactionInDoubt_third (h : s.card.outstanding = some req) (hsession : req.ofSession = true)
    (hthird : s.card.missed = 2) : exec .transactionInDoubt s = exec .cardResponseExpiry s := by
  rw [exec_transactionInDoubt, exec_cardResponseExpiry]
  exact event_congr (if_pos ⟨(State.missIsSession_eq h).trans hsession, hthird⟩)

end

theorem CardReq.ofSession_of {req : CardReq} (h : (∃ txn amount tip cur, req = .pay txn amount tip cur)
    ∨ (∃ txn, req = .enquire txn) ∨ (∃ txn, req = .cancel txn)) : req.ofSession = true := by
  obtain ⟨_, _, _, _, rfl⟩ | ⟨_, rfl⟩ | ⟨_, rfl⟩ := h <;> rfl

/-- Settles O47. -/
theorem missesCountToAbsentOrInDoubt : Obligations.MissesCountToAbsentOrInDoubt := by
  intro s hr
  refine ⟨?_, ?_, ?_⟩
  · rintro o ho hsent missed rfl
    have hout := Card.outstanding_sent ho hsent
    refine ⟨?_, fun hreq q hs => ?_⟩
    · rintro req hsame hreq
      rw [hsame] at hout
      have hidle : req.ofSession = false := by obtain rfl | ⟨txn, amount, rfl⟩ := hreq <;> rfl
      obtain ⟨t, hnext, hkept⟩ := event_keeps hr (State.takeMiss_idle hout hidle) (.refl _)
      obtain rfl | ⟨txn, amount, rfl⟩ := hreq <;> exact ⟨t, hnext, hkept, moduleAbsent_third hout rfl⟩
    · have hsession := CardReq.ofSession_of hreq
      have hq := Session.card?_eq hs
      have hmiss := State.takeMiss_session hout hsession
      exact ⟨fun hfew => event_keeps hr (hmiss.trans (State.missSession_enquires hq hfew)) (.refl _),
        fun hthird => event_keeps hr (hmiss.trans (State.missSession_doubts hq hthird)) (.refl _),
        transactionInDoubt_third hout hsession⟩
  · intro h
    have hout := Card.outstanding_none h
    rintro c (rfl | rfl | rfl)
    · exact event_keeps hr (State.takeMiss_none hout) (.refl s)
    · rw [exec_moduleAbsent]
      exact event_keeps hr (if_neg fun hmiss => by simp [hout] at hmiss) (.refl s)
    · rw [exec_transactionInDoubt]
      exact event_keeps hr (if_neg fun hmiss => by simp [State.missIsSession, hout] at hmiss) (.refl s)
  · rintro hthird c (rfl | rfl)
    · rw [exec_moduleAbsent]
      exact event_keeps hr (if_neg fun hmiss => hthird hmiss.2.2) (.refl s)
    · rw [exec_transactionInDoubt]
      exact event_keeps hr (if_neg fun hmiss => hthird hmiss.2) (.refl s)

end Sys2Proof.Machine
end

section
/-! PROOFS. What the module answers (O48). -/
namespace Sys2Proof.Machine
open Sys2Proof

/-! ### The request that a frame answers (R127) -/

section
variable {c : Card} {txn : Nat}

theorem Card.awaits_iff : c.awaits txn = true ↔ ∃ req, c.outstanding = some req ∧ req.ofSession = true ∧ req.txn = txn := by
  unfold Card.awaits
  cases c.outstanding <;> simp

theorem Card.awaits_not_poll (h : c.awaits txn = true) : c.outstanding ≠ some .poll := by
  obtain ⟨req, hreq, hsession, -⟩ := Card.awaits_iff.1 h
  rw [hreq]
  rintro ⟨⟩
  exact Bool.false_ne_true hsession

theorem Card.reverses_iff : c.reverses txn = true ↔ ∃ amount, c.outstanding = some (.reverse txn amount) := by
  unfold Card.reverses
  split
  · next t amount hreq =>
    rw [hreq]
    simp
  · next hno =>
    simp only [Bool.false_eq_true, false_iff]
    rintro ⟨amount, hreq⟩
    exact hno _ _ hreq

theorem Card.awaits_not_reverses (h : c.awaits txn = true) : ¬ c.reverses txn = true := by
  obtain ⟨req, hreq, hsession, -⟩ := Card.awaits_iff.1 h
  rw [Card.reverses_iff, hreq]
  rintro ⟨amount, ⟨⟩⟩
  exact Bool.false_ne_true hsession

end

/-! ### A frame is heard (R124, R126) -/

/-- The module state after a frame other than a STATUS (R124). -/
def ModuleState.found (m : ModuleState) : ModuleState := if m = .unknown ∨ m = .absent then .ready else m

/-- The card link scanning again, with the module in this state. -/
def Card.heard (c : Card) (m : ModuleState) : Card := { c with rxOpen := false, moduleState := m }

/-- The card link after the frame that answers its request (R127). -/
def Card.answeredIn (c : Card) (m : ModuleState) : Card := { c.heard m with out := none, missed := 0 }

/-- The station after a frame that answers nothing. -/
def State.cardHeard (s : State) (m : ModuleState) : State := { s with card := s.card.heard m }

/-- The station after a frame that answers its request, before what the answer does. -/
def State.cardAnswered (s : State) (m : ModuleState) : State := { s with card := s.card.answeredIn m }

/-- The station as a valid frame finds its receiver. -/
def State.scanning (s : State) : State := s.onCard fun c => { c with rxOpen := false }

theorem State.moduleFound_scanning (s : State) : s.scanning.moduleFound = s.cardHeard s.card.moduleState.found := by
  unfold State.moduleFound State.cardHeard Card.heard ModuleState.found
  dsimp only [State.scanning, State.onCard]
  cases s.card.moduleState <;> rfl

section
variable {s e u v : State} {f : State → State} (hr : s.supply.running = true)
include hr

theorem cardEvent_unfitted (f : State → State) (hunfit : s.card.moduleState = .notFitted) :
    ∃ t, cardEvent f s = .next t ∧ s.Kept t := by
  unfold cardEvent
  exact event_keeps hr (if_pos hunfit) (.refl s)

theorem cardEvent_keeps (hfit : s.card.moduleState ≠ .notFitted) (hf : f s.scanning = u) (hk : e.Kept u) :
    ∃ t, cardEvent f s = .next t ∧ e.Kept t := by
  unfold cardEvent
  exact event_keeps hr ((if_neg hfit).trans hf) hk

/-- A card frame that closes the hire says so (R21, R22). -/
theorem cardEvent_says {ev : HireEvent} (hfit : s.card.moduleState ≠ .notFitted) (hf : f s.scanning = v.sayHireEvent ev)
    (hk : e.Kept v) (hv : v.silent = s.silent) :
    ∃ t, cardEvent f s = .next t ∧ e.Kept t ∧ s.Announced t ev := by
  have htaken : (if s.card.moduleState = .notFitted then s else f (s.onCard fun c => { c with rxOpen := false }))
      = v.sayHireEvent ev := (if_neg hfit).trans hf
  unfold cardEvent
  refine ⟨_, event_next hr, ?_, ?_⟩
  · rw [htaken]
    exact (hk.trans (v.sayHireEvent_kept ev)).trans (State.settleEvent_kept _)
  · rw [htaken]
    exact State.announced_alone hv ev

end

/-! ### STATUS (R124, R136) -/

section
variable {s : State} {txn : Nat} (st : CardStatus)

theorem State.takeStatus_poll (hpoll : s.card.outstanding = some .poll) :
    s.scanning.takeStatus txn st = s.cardAnswered (moduleOf st) := if_pos hpoll

theorem State.takeStatus_session {q : CardSession} (hawaits : s.card.awaits txn = true)
    (hq : s.pay.session.card? = some q) :
    s.scanning.takeStatus txn st = (s.cardAnswered (moduleOf st)).toEnquiry q := by
  have henquires : (s.cardAnswered (moduleOf st)).sessionEnquires = (s.cardAnswered (moduleOf st)).toEnquiry q := by
    unfold State.sessionEnquires
    rw [show (s.cardAnswered (moduleOf st)).pay = s.pay from rfl, hq]
  exact ((if_neg (Card.awaits_not_poll hawaits)).trans (if_pos hawaits)).trans henquires

theorem State.takeStatus_other (hpoll : s.card.outstanding ≠ some .poll) (hother : s.card.awaits txn = false) :
    s.scanning.takeStatus txn st = s.cardHeard (moduleOf st) :=
  (if_neg hpoll).trans (if_neg (Bool.eq_false_iff.1 hother))

end

/-! ### RESULT (R137, R138, Table 8-3) -/

section
variable {s : State} {txn : Nat}

theorem State.takeResult_session {q : CardSession} (hawaits : s.card.awaits txn = true) (hq : s.pay.session.card? = some q)
    (o : CardOutcome) (a scheme four : Nat) (auth : List Nat) : s.scanning.takeResult txn o a scheme four auth =
      (s.cardAnswered s.card.moduleState.found).sessionResult q o a scheme four auth := by
  unfold State.takeResult
  rw [State.moduleFound_scanning]
  refine (if_pos hawaits).trans ?_
  rw [show (s.cardHeard s.card.moduleState.found).pay = s.pay from rfl, hq]
  rfl

theorem State.takeResult_other (hother : s.card.awaits txn = false) (o : CardOutcome) (a scheme four : Nat) (auth : List Nat) :
    s.scanning.takeResult txn o a scheme four auth = s.cardHeard s.card.moduleState.found := by
  unfold State.takeResult
  rw [State.moduleFound_scanning]
  exact if_neg (Bool.eq_false_iff.1 hother)

end

/-- The end of a session is alike whatever waits for its frame (R136, R143). -/
theorem State.Kept.sessionEnded {s t : State} (h : s.Kept t) (o : ShownOutcome) : (s.sessionEnded o).Kept (t.sessionEnded o) :=
  { h with
    pay := congrArg (fun p : Pay => { p with session := .none, tipTimer := none, overall := none }) h.pay
    display := congrArg (fun d : Display => { d with outcome := some o, timer := some 100000 }) h.display
    promptTimer := congrArg (fun b : Bool => if b then some 3000 else none) h.prompt }

/-- A session ends beside a hire event that has been said. -/
theorem State.sayHireEvent_endWith (s : State) (e : HireEvent) (o : ShownOutcome) :
    (s.sayHireEvent e).endWith o = (s.endWith o).sayHireEvent e := by
  unfold State.sayHireEvent
  rw [show (s.endWith o).silent = s.silent from rfl]
  split <;> rfl

section
variable {s : State} {q : CardSession} {o : CardOutcome} {a : Nat} (scheme four : Nat) (auth : List Nat)

theorem State.sessionResult_declined (h : (o = .approved ∨ o = .partApproved) ∧ a = 0 ∨ o = .declined) :
    s.sessionResult q o a scheme four auth = s.sessionEnded .declined := by
  obtain ⟨rfl | rfl, rfl⟩ | rfl := h <;> rfl

theorem State.sessionResult_ended {shown : ShownOutcome} (h : (o = .cancelled ∧ shown = .cancelled)
      ∨ (o = .cardError ∧ shown = .cardError) ∨ (o = .refused ∧ shown = .refused)) :
    s.sessionResult q o a scheme four auth = s.sessionEnded shown := by
  obtain ⟨rfl, rfl⟩ | ⟨rfl, rfl⟩ | ⟨rfl, rfl⟩ := h <;> rfl

section
variable (happroved : o = .approved ∨ o = .partApproved)
include happroved

theorem State.sessionResult_approved : s.sessionResult q o a scheme four auth = s.approve q a scheme four auth := by
  obtain rfl | rfl := happroved <;> rfl

theorem State.sessionResult_doubts (hmore : q.amount < a) : s.sessionResult q o a scheme four auth = s.inDoubt q := by
  rw [State.sessionResult_approved scheme four auth happroved, State.approve, if_neg (by omega), if_pos hmore]

/-- What the display shows of an approval (R137, Table 8-3). -/
def CardSession.approvalShown (q : CardSession) (a : Nat) : ShownOutcome :=
  if a = q.amount then .approved else .partApproved (q.amount - a)

section
variable (hpos : 0 < a) (hle : a ≤ q.amount)
include hpos hle

theorem State.sessionResult_applies : s.sessionResult q o a scheme four auth =
    (s.hireChanged.applyTender (.card a (q.txn.getD 0) scheme four auth)).endWith (q.approvalShown a) := by
  rw [State.sessionResult_approved scheme four auth happroved, State.approve, if_neg (by omega), if_neg (by omega)]
  rfl

variable {h h' : Hire} (hslot : s.hire.slot = .paying h) (hroom : h.rc.tenders.length < 3)
  (hh : h' = h.tendered (.card a (q.txn.getD 0) scheme four auth))
include hslot hroom hh

/-- An approval that leaves something of due and tip: the hire stays in PAYING with the tender (R19). -/
theorem State.sessionResult_waits (hpart : h'.rc.appliedSum < h'.rc.owed) : s.sessionResult q o a scheme four auth =
    (s.hireChanged.onHire fun c => { c with slot := .paying h' }).sessionEnded (q.approvalShown a) := by
  rw [State.sessionResult_applies scheme four auth happroved hpos hle, State.applyTender_eq (s := s.hireChanged) hroom hslot,
    ← hh, if_neg (Nat.not_le.2 hpart)]
  rfl

/-- An approval that reaches due and tip: the hire is closed and the close said (R19, R21). -/
theorem State.sessionResult_settles (hall : h'.rc.owed ≤ h'.rc.appliedSum) : s.sessionResult q o a scheme four auth =
    ((s.hireChanged.withHireClosed h' .settled).sessionEnded (q.approvalShown a)).sayHireEvent
      (.closed h'.rc.no .settled) := by
  rw [State.sessionResult_applies scheme four auth happroved hpos hle, State.applyTender_eq (s := s.hireChanged) hroom hslot,
    ← hh, if_pos hall, State.closeHire_eq, State.sayHireEvent_endWith]
  rfl

end

end

end

/-! ### NOT_FOUND and REVERSED (R136, R141, R142) -/

section
variable {s : State} {txn : Nat}

/-- The entry of a REVERSE that is answered is removed. -/
theorem State.takeNotFound_reverses (h : s.card.reverses txn = true) :
    s.scanning.takeNotFound txn = (s.cardAnswered s.card.moduleState.found).dropReversal txn := by
  unfold State.takeNotFound
  rw [State.moduleFound_scanning]
  exact if_pos h

theorem State.takeReversed_reverses (h : s.card.reverses txn = true) :
    s.scanning.takeReversed txn = (s.cardAnswered s.card.moduleState.found).dropReversal txn := by
  unfold State.takeReversed
  rw [State.moduleFound_scanning]
  exact if_pos h

theorem State.takeNotFound_session {q : CardSession} (h : s.card.awaits txn = true) (hq : s.pay.session.card? = some q) :
    s.scanning.takeNotFound txn = (s.cardAnswered s.card.moduleState.found).sessionEnded .notCompleted := by
  unfold State.takeNotFound
  rw [State.moduleFound_scanning]
  exact ((if_neg (Card.awaits_not_reverses h)).trans (if_pos h)).trans (if_pos (by
    rw [show (s.cardHeard s.card.moduleState.found).pay = s.pay from rfl, hq]
    rfl))

section
variable (hno : ¬ s.card.reverses txn = true)
include hno

theorem State.takeNotFound_other (hother : s.card.awaits txn = false) :
    s.scanning.takeNotFound txn = s.cardHeard s.card.moduleState.found := by
  unfold State.takeNotFound
  rw [State.moduleFound_scanning]
  exact (if_neg hno).trans (if_neg (Bool.eq_false_iff.1 hother))

theorem State.takeReversed_other : s.scanning.takeReversed txn = s.cardHeard s.card.moduleState.found := by
  unfold State.takeReversed
  rw [State.moduleFound_scanning]
  exact if_neg hno

end

end

/-! ### The commands -/

section
variable (s : State) (txn : Nat)

theorem exec_status (st : CardStatus) : exec (.status txn st) s = cardEvent (fun u => u.takeStatus txn st) s := rfl

theorem exec_result (o : CardOutcome) (a scheme four : Nat) (auth : List Nat) :
    exec (.result txn o a scheme four auth) s = cardEvent (fun u => u.takeResult txn o a scheme four auth) s := rfl

theorem exec_notFound : exec (.notFound txn) s = cardEvent (fun u => u.takeNotFound txn) s := rfl

theorem exec_reversed : exec (.reversed txn) s = cardEvent (fun u => u.takeReversed txn) s := rfl

theorem exec_cardFrameTruncated (late : Option Byte) : exec (.cardFrameTruncated late) s = event (fun u =>
    if u.card.moduleState = .notFitted then u else u.onCard fun c => { c with rxOpen := late == some 2#8 }) s := rfl

/-- Bytes that spell no frame only close the receiver (R126). -/
theorem exec_cardFrameDiscarded {bytes : List Byte}
    (h : scanCard (bytes.length + 2) (if s.card.rxOpen then 2#8 :: bytes else bytes) = none) :
    exec (.cardFrameDiscarded bytes) s = event (fun u => if u.card.moduleState = .notFitted then u else u.scanning) s := by
  have hscan : scanCard (bytes.length + 2) (s.cardBytes bytes) = none := h
  show execCardFrameDiscarded bytes s = _
  unfold execCardFrameDiscarded
  rw [hscan]
  rfl

end

section
variable {s : State} (hr : s.supply.running = true)
include hr

/-- A station with no module takes no card frame (R124). -/
theorem card_unfitted (hunfit : s.card.moduleState = .notFitted) (txn : Nat) (st : CardStatus) (o : CardOutcome)
    (a scheme four : Nat) (auth : List Nat) (bytes : List Byte) (late : Option Byte) (c : Instr)
    (hscan : scanCard (bytes.length + 2) (if s.card.rxOpen then 2#8 :: bytes else bytes) = none)
    (hc : c = .status txn st ∨ c = .result txn o a scheme four auth ∨ c = .notFound txn ∨ c = .reversed txn
      ∨ c = .cardFrameDiscarded bytes ∨ c = .cardFrameTruncated late) : ∃ t, exec c s = .next t ∧ s.Kept t := by
  obtain rfl | rfl | rfl | rfl | rfl | rfl := hc
  · rw [exec_status]
    exact cardEvent_unfitted hr _ hunfit
  · rw [exec_result]
    exact cardEvent_unfitted hr _ hunfit
  · rw [exec_notFound]
    exact cardEvent_unfitted hr _ hunfit
  · rw [exec_reversed]
    exact cardEvent_unfitted hr _ hunfit
  · rw [exec_cardFrameDiscarded s hscan]
    exact event_keeps hr (if_pos hunfit) (.refl s)
  · rw [exec_cardFrameTruncated]
    exact event_keeps hr (if_pos hunfit) (.refl s)

variable (hfit : s.card.moduleState ≠ .notFitted)
include hfit

theorem status_taken (txn : Nat) (st : CardStatus) :
    (s.card.outstanding = some .poll → ∃ t, exec (.status txn st) s = .next t ∧ (s.cardAnswered (moduleOf st)).Kept t)
    ∧ (s.card.awaits txn = true → ∀ q, s.pay.session = .cardWait q ∨ s.pay.session = .enquiry q →
      ∃ t, exec (.status txn st) s = .next t ∧ ((s.cardAnswered (moduleOf st)).toEnquiry q).Kept t)
    ∧ (s.card.outstanding ≠ some .poll → s.card.awaits txn = false →
      ∃ t, exec (.status txn st) s = .next t ∧ (s.cardHeard (moduleOf st)).Kept t) := by
  rw [exec_status]
  exact ⟨fun hpoll => cardEvent_keeps hr hfit (State.takeStatus_poll st hpoll) (.refl _),
    fun hawaits q hs => cardEvent_keeps hr hfit (State.takeStatus_session st hawaits (Session.card?_eq hs)) (.refl _),
    fun hpoll hother => cardEvent_keeps hr hfit (State.takeStatus_other st hpoll hother) (.refl _)⟩

section
variable {txn : Nat} {o : CardOutcome} {a scheme four : Nat} {auth : List Nat} {q : CardSession} {h h' : Hire}
  (hawaits : s.card.awaits txn = true) (hq : s.pay.session.card? = some q) (hslot : s.hire.slot = .paying h)
  (happroved : o = .approved ∨ o = .partApproved)
include hawaits hq

/-- A RESULT for the session does what its outcome says, on the answered request (R137). -/
theorem result_keeps {u e : State}
    (hres : (s.cardAnswered s.card.moduleState.found).sessionResult q o a scheme four auth = u) (hk : e.Kept u) :
    ∃ t, exec (.result txn o a scheme four auth) s = .next t ∧ e.Kept t :=
  cardEvent_keeps (f := fun v => v.takeResult txn o a scheme four auth) hr hfit
    ((State.takeResult_session hawaits hq o a scheme four auth).trans hres) hk

include hslot happroved

theorem result_doubts (hmore : q.amount < a) : ∃ t, exec (.result txn o a scheme four auth) s = .next t
    ∧ (({ s.cardAnswered s.card.moduleState.found with
          pay := { s.pay with reversals := s.pay.reversals ++ [{ txn := q.txn.getD 0, amount := q.amount, hireNo := h.rc.no
                                                                 addr := s.addr, attempts := 0 }] } }
        : State).sessionEnded .inDoubt).Kept t := by
  refine result_keeps hr hfit hawaits hq (State.sessionResult_doubts scheme four auth happroved hmore) ?_
  unfold State.inDoubt
  rw [show (s.cardAnswered s.card.moduleState.found).hire = s.hire from rfl, hslot]
  exact .refl _

variable (hroom : h.rc.tenders.length < 3) (hpos : 0 < a) (hle : a ≤ q.amount)
  (hh : h' = h.tendered (.card a (q.txn.getD 0) scheme four auth))
include hroom hpos hle hh

theorem result_waits (hpart : h'.rc.appliedSum < h'.rc.owed) :
    ∃ t, exec (.result txn o a scheme four auth) s = .next t
      ∧ (({ s.cardAnswered s.card.moduleState.found with
            hire := { s.hire with slot := .paying h' }, display := s.display.cleared } : State).sessionEnded
          (q.approvalShown a)).Kept t :=
  result_keeps hr hfit hawaits hq
    (State.sessionResult_waits scheme four auth happroved hpos hle hslot hroom hh hpart) (.refl _)

theorem result_settles (hall : h'.rc.owed ≤ h'.rc.appliedSum) :
    ∃ t, exec (.result txn o a scheme four auth) s = .next t
      ∧ ((({ s.cardAnswered s.card.moduleState.found with display := s.display.cleared } : State).hireClosed h'
          .settled).sessionEnded (q.approvalShown a)).Kept t
      ∧ s.Announced t (.closed h'.rc.no .settled) :=
  cardEvent_says (f := fun v => v.takeResult txn o a scheme four auth) hr hfit
    ((State.takeResult_session hawaits hq o a scheme four auth).trans
      (State.sessionResult_settles scheme four auth happroved hpos hle hslot hroom hh hall))
    (((State.Kept.refl _).hireClosed h' .settled).sessionEnded _)
    ((s.cardAnswered s.card.moduleState.found).hireChanged.withHireClosed_other h' .settled).2

end

end

/-- Settles O48. -/
theorem moduleAnswersAreTaken : Obligations.ModuleAnswersAreTaken := by
  rintro s hr found rfl
  refine ⟨?_, card_unfitted hr⟩
  rintro hfit card rfl answered rfl
  refine ⟨?_, ?_, fun txn hawaits q hs => ?_, ?_, ?_, fun bytes hscan => ?_, fun late => ?_⟩
  · rintro txn st m (⟨rfl, rfl⟩ | ⟨rfl, rfl⟩ | ⟨rfl, rfl⟩ | ⟨rfl, rfl⟩) <;> exact status_taken hr hfit txn _
  · rintro txn o a scheme four auth q h hawaits hs hslot hroom u rfl
    have hq := Session.card?_eq hs
    refine ⟨fun hdeclined => ?_, fun shown hended => ?_, fun happroved hmore => ?_, ?_⟩
    · exact result_keeps hr hfit hawaits hq (State.sessionResult_declined scheme four auth hdeclined) (.refl _)
    · exact result_keeps hr hfit hawaits hq (State.sessionResult_ended scheme four auth hended) (.refl _)
    · exact result_doubts hr hfit hawaits hq hslot happroved hmore
    · rintro happroved hpos hle h' hh shown rfl
      exact ⟨result_waits hr hfit hawaits hq hslot happroved hroom hpos hle hh, fun hall => by
        subst hh
        exact result_settles hr hfit hawaits hq hslot happroved hroom hpos hle rfl hall⟩
  · rw [exec_notFound]
    exact cardEvent_keeps hr hfit (State.takeNotFound_session hawaits (Session.card?_eq hs)) (.refl _)
  · rintro txn amount c hout (rfl | rfl)
    · rw [exec_reversed]
      exact cardEvent_keeps hr hfit (State.takeReversed_reverses (Card.reverses_iff.2 ⟨amount, hout⟩)) (.refl _)
    · rw [exec_notFound]
      exact cardEvent_keeps hr hfit (State.takeNotFound_reverses (Card.reverses_iff.2 ⟨amount, hout⟩)) (.refl _)
  · intro txn hother hno o a scheme four auth
    have hno : ¬ s.card.reverses txn = true := fun h => (Card.reverses_iff.1 h).elim hno
    rintro c (rfl | rfl | rfl)
    · rw [exec_result]
      exact cardEvent_keeps hr hfit (State.takeResult_other hother o a scheme four auth) (.refl _)
    · rw [exec_notFound]
      exact cardEvent_keeps hr hfit (State.takeNotFound_other hno hother) (.refl _)
    · rw [exec_reversed]
      exact cardEvent_keeps hr hfit (State.takeReversed_other hno) (.refl _)
  · rw [exec_cardFrameDiscarded s hscan]
    exact event_keeps hr (if_neg hfit) (.refl _)
  · rw [exec_cardFrameTruncated]
    refine event_keeps hr (if_neg hfit) ?_
    rw [beq_eq_decide]
    exact .refl _

end Sys2Proof.Machine
end

section
/-! PROOFS. What a closed hire adds to the accumulators, and the parts of a summary (O51). -/
namespace Sys2Proof.Machine
open Sys2Proof

/-! ### Tenders (Table 9-3) -/

/-- The totals of the three kinds of tender. -/
def Accum.tenderTotals (a : Accum) : Nat × Nat × Nat := (a.cash, a.card, a.account)

/-- `total` is one of the three totals of tenders, and `amount` what a tender adds to it. -/
structure TenderTotal (total : Accum → Nat) (amount : Tender → Nat) : Prop where
  reads : ∀ a b : Accum, a.tenderTotals = b.tenderTotals → total a = total b
  step  : ∀ (a : Accum) (t : Tender), total a ≤ top32 → total (a.addTender t) = satAdd top32 (total a) (amount t)

/-- A tender of another kind leaves a total within its bound as it is. -/
theorem satAdd_zero {top n : Nat} (h : n ≤ top) : satAdd top n 0 = n := Nat.min_eq_right h

theorem tenderTotal_cash : TenderTotal Accum.cash fun t => match t with | .cash x _ _ => x | _ => 0 where
  reads _ _ h := congrArg Prod.fst h
  step a t ha := by
    cases t with
    | cash => rfl
    | card => exact (satAdd_zero ha).symm
    | account => exact (satAdd_zero ha).symm

theorem tenderTotal_card : TenderTotal Accum.card fun t => match t with | .card x _ _ _ _ => x | _ => 0 where
  reads _ _ h := congrArg (fun x => x.2.1) h
  step a t ha := by
    cases t with
    | card => rfl
    | cash => exact (satAdd_zero ha).symm
    | account => exact (satAdd_zero ha).symm

theorem tenderTotal_account : TenderTotal Accum.account fun t => match t with | .account x _ _ => x | _ => 0 where
  reads _ _ h := congrArg (fun x => x.2.2) h
  step a t ha := by
    cases t with
    | account => rfl
    | cash => exact (satAdd_zero ha).symm
    | card => exact (satAdd_zero ha).symm

/-- The tenders of a hire add their sum to a total, which stays at its top. -/
theorem TenderTotal.addTenders {total : Accum → Nat} {amount : Tender → Nat} (ht : TenderTotal total amount)
    (ts : List Tender) : ∀ a : Accum, total a ≤ top32 →
      total (ts.foldl Accum.addTender a) = satAdd top32 (total a) (ts.map amount).sum := by
  unfold satAdd
  induction ts with
  | nil => exact fun a h => (Nat.min_eq_right h).symm
  | cons t ts ih =>
    intro a h
    have hone : total (a.addTender t) = min top32 (total a + amount t) := ht.step a t h
    have hrest := ih (a.addTender t) (hone ▸ Nat.min_le_left _ _)
    rw [List.foldl_cons, hrest, hone, List.map_cons, List.sum_cons]
    omega

/-- Tenders touch only the totals of the three kinds. -/
theorem Accum.addTenders_form (ts : List Tender) : ∀ a : Accum, ∃ cash card account,
    ts.foldl Accum.addTender a = { a with cash := cash, card := card, account := account } := by
  induction ts with
  | nil => exact fun a => ⟨a.cash, a.card, a.account, rfl⟩
  | cons t ts ih =>
    intro a
    obtain ⟨cash, card, account, h⟩ := ih (a.addTender t)
    refine ⟨cash, card, account, h.trans ?_⟩
    cases t <;> rfl

/-! ### A closed hire (R155, Table 9-3) -/

section
variable (a : Accum) (r : HireRecord) (o : HireOutcome)

/-- What a closed hire adds outside the totals of its tenders. -/
theorem Accum.addHire_form : ∃ cash card account, a.addHire r o = { a with
    settled := if o = .settled then satAdd top16 a.settled 1 else a.settled
    unpaid := if o = .unpaid then satAdd top16 a.unpaid 1 else a.unpaid
    cancelled := if o = .cancelled then satAdd top16 a.cancelled 1 else a.cancelled
    paidPulses := satAdd top32 a.paidPulses r.paidPulses
    hiredSeconds := satAdd top32 a.hiredSeconds (r.hiredTenths / 10)
    conflicts := satAdd top16 a.conflicts (bitNat r.conflict)
    metered := if o = .cancelled then a.metered else satAdd top32 a.metered (r.metered + r.topUp.getD 0)
    extras := if o = .cancelled then a.extras else satAdd top32 a.extras r.extrasSum
    tips := if o = .cancelled then a.tips else satAdd top32 a.tips (r.tip.getD 0)
    unpaidTotal := if o = .unpaid then satAdd top32 a.unpaidTotal (r.unpaid.getD 0) else a.unpaidTotal
    cash := cash, card := card, account := account } := by
  cases o with
  | settled => exact Accum.addTenders_form r.tenders _
  | cancelled => exact ⟨a.cash, a.card, a.account, rfl⟩
  | unpaid =>
    obtain ⟨cash, card, account, h⟩ := Accum.addTenders_form r.tenders _
    refine ⟨cash, card, account, (congrArg (fun b : Accum => { b with
      unpaidTotal := satAdd top32 b.unpaidTotal (r.unpaid.getD 0) }) h).trans ?_⟩
    rfl

/-- The totals of a settled or unpaid hire's tenders are those its tenders leave, one after the other. -/
theorem Accum.addHire_tenders (ho : o ≠ .cancelled) : ∃ b : Accum,
    (a.addHire r o).tenderTotals = (r.tenders.foldl Accum.addTender b).tenderTotals ∧ b.tenderTotals = a.tenderTotals := by
  cases o with
  | settled => exact ⟨_, rfl, rfl⟩
  | unpaid => exact ⟨_, rfl, rfl⟩
  | cancelled => exact absurd rfl ho

/-- The tenders of a settled or unpaid hire go to the totals of their kinds. -/
theorem TenderTotal.addHire {total : Accum → Nat} {amount : Tender → Nat} (ht : TenderTotal total amount)
    (ha : total a ≤ top32) : total (a.addHire r o)
      = if o = .cancelled then total a else satAdd top32 (total a) (r.tenders.map amount).sum := by
  by_cases ho : o = .cancelled
  · subst ho
    exact ht.reads _ _ rfl
  · obtain ⟨b, hsame, hb⟩ := a.addHire_tenders r o ho
    have hstart : total b = total a := ht.reads _ _ hb
    rw [if_neg ho, ht.reads _ _ hsame, ht.addTenders r.tenders b (hstart ▸ ha), hstart]

end

/-- Settles O51. -/
theorem closedHireIsAccumulatedAndSummarised : Obligations.ClosedHireIsAccumulatedAndSummarised := by
  refine ⟨fun a r o => ?_, fun s n lost a => ⟨_, _, _, _, rfl, rfl, fun im him => ?_, fun him => ?_, rfl⟩⟩
  · obtain ⟨cash, card, account, h⟩ := a.addHire_form r o
    refine ⟨congrArg Accum.settled h, congrArg Accum.unpaid h, congrArg Accum.cancelled h, congrArg Accum.paidPulses h,
      congrArg Accum.hiredSeconds h, congrArg Accum.conflicts h, congrArg Accum.metered h, congrArg Accum.extras h,
      congrArg Accum.tips h, congrArg Accum.unpaidTotal h, tenderTotal_cash.addHire a r o, tenderTotal_card.addHire a r o,
      tenderTotal_account.addHire a r o, ?_⟩
    rw [h]
    exact ⟨rfl, rfl, rfl, rfl⟩
  · unfold State.metres
    rw [him]
    exact ⟨rfl, rfl⟩
  · unfold State.metres
    rw [him]
    exact ⟨rfl, rfl⟩

end Sys2Proof.Machine
end

section
/-! PROOFS. A SHIFT frame sent in an event, and the late close with its summary (O19). -/
namespace Sys2Proof.Machine
open Sys2Proof

/-! ### The shift after an event -/

section
variable {s v : State}

/-- With no late close to make, an event's end touches of the shift only what waits for its frames (R81). -/
theorem State.settleEvent_shift (h : v.NoLateClose) :
    ∃ held tx late, v.settleEvent.shift = { v.shift with held := held, tx := tx, lateTx := late } := by
  obtain ⟨held, tx, late, hshift⟩ := v.flushOffers_shift
  refine ⟨held, tx, late, ?_⟩
  rw [State.settleEvent_rested h, (State.signUpdate_blocks _).2.2.2.1, hshift]

theorem State.tryOffer_nextNo (s : State) (o : Offer) : (s.tryOffer o).hire.nextNo = s.hire.nextNo := by
  obtain ⟨-, h⟩ | ⟨payload, tag, -, ⟨l, -, h⟩ | ⟨-, h⟩⟩ := s.tryOffer_cases o <;> rw [h]
  · cases o with
    | hireEvent =>
      obtain ⟨p, l', ht⟩ := (s.onLink fun _ => l).offerTaken_hireEvent
      rw [ht]
      rfl
    | _ => rfl
  · cases o with
    | command a =>
      obtain ⟨i, hc⟩ := s.offerRefused_command a
      rw [hc]
    | _ => rfl

/-- With no late close to make, an event's end leaves the next hire number (R3). -/
theorem State.settleEvent_nextNo (h : v.NoLateClose) : v.settleEvent.hire.nextNo = v.hire.nextNo := by
  rw [State.settleEvent_rested h, (State.signUpdate_hire _).1]
  exact flush_keeps (P := fun u => u.hire.nextNo = v.hire.nextNo) (fun u o hu => (u.tryOffer_nextNo o).trans hu)
    (fun _ _ _ hu => hu) rfl

end

/-! ### A SHIFT frame is held to be offered (Table 5-4, R91) -/

section
variable {s u : State} {f : ShiftFrame}

/-- Sending a SHIFT frame touches the frames held and the offers. -/
theorem State.sendShift_form (u : State) (f : ShiftFrame) : ∃ held os,
    u.sendShift f = { u with shift := { u.shift with held := held }, offers := os } := by
  unfold State.sendShift
  split
  · exact ⟨u.shift.held, u.offers, rfl⟩
  · exact ⟨_, _, rfl⟩

theorem State.sendShift_held (hawake : u.silent = false) : f ∈ (u.sendShift f).shift.held := by
  unfold State.sendShift
  rw [hawake]
  exact List.mem_append_right _ List.mem_cons_self

/-- A SHIFT frame held when an event's work is done is held or queued after it (Table 5-4). -/
theorem State.settleEvent_offersShift (h : f ∈ u.shift.held) :
    u.settleEvent.Offered (f ∈ u.settleEvent.shift.held) 5 (encShiftFrame f) := State.settleEvent_shiftFrame (Or.inl h)

/-- An event whose operation sends a SHIFT frame: it is held or queued after it, unless the station is LINK_SILENT. -/
theorem event_sendsShift {op : State → State} {e : State} (hr : s.supply.running = true) (hf : op s = u.sendShift f)
    (hk : e.Kept u) (hsilent : u.silent = s.silent) : ∃ t, event op s = .next t ∧ e.Kept t
      ∧ (s.silent = false → t.Offered (f ∈ t.shift.held) 5 (encShiftFrame f)) := by
  refine ⟨_, event_next hr, ?_, fun hawake => ?_⟩
  · rw [hf]
    exact (hk.trans (u.sendShift_kept f)).trans (State.settleEvent_kept _)
  · rw [hf]
    exact State.settleEvent_offersShift (State.sendShift_held (hsilent.trans hawake))

end

/-! ### The late close (R153, R157, R152, R3) -/

section
variable {s v : State} {number driver : Nat}

/-- The LATE summary of a closed shift, as it is first offered (R161). -/
def State.lateSummary (v : State) : SumTx :=
  { parts := v.summaryParts v.shift.number v.shift.lost v.shift.acc, k := 0, held := false, gen := v.shift.gen }

/-- A summary reads of the station the image and the reversals alone (R161). -/
theorem State.summaryParts_same {t : State} (himage : t.image = v.image) (hpay : t.pay = v.pay) :
    t.summaryParts = v.summaryParts := by
  funext n lost a
  unfold State.summaryParts State.metres
  rw [himage, hpay]

theorem State.startSummary_late (v : State) (parts : List SummaryPart) : v.startSummary true parts = { v with
    shift := { v.shift with gen := v.shift.gen + 1
                            lateTx := some { parts := parts, k := 0, held := false, gen := v.shift.gen } }
    offers := v.offers ++ [.lateSummary] } := rfl

/-- The late close, when it may be made: the old shift closed LATE, the new one adopted, the LATE summary offered. -/
theorem State.lateCloseIfDue_made (hp : v.shift.pendingLate = some (number, driver)) (hfree : v.hire.slot = .free)
    (hnone : v.pay.session = .none) : v.lateCloseIfDue = { v with
      shift := { v.shift with
        number := number, driver := some driver, openTime := some v.clock.seconds, acc := .zero, lost := false
        coldMark := false, state := .onShift, pendingLate := none, gen := v.shift.gen + 1, lateTx := some v.lateSummary
        last := some { number := v.shift.number, driver := v.shift.driver, openTime := v.shift.openTime
                       lost := v.shift.lost, closeTime := v.clock.seconds, mark := .late, acc := v.shift.acc } }
      hire := { v.hire with nextNo := 1 }
      offers := v.offers ++ [.lateSummary] } := by
  have hparts : (v.closeShift .late).startLateSummary = (v.closeShift .late).startSummary true v.lateSummary.parts := by
    show (v.closeShift .late).startSummary true ((v.closeShift .late).summaryParts _ _ _) = _
    rw [State.summaryParts_same (t := v.closeShift .late) (v := v) rfl rfl]
    rfl
  have hdue : (v.hire.slot.isFree && !v.pay.session.active) = true := by rw [hfree, hnone]; rfl
  unfold State.lateCloseIfDue
  rw [hp]
  dsimp only
  rw [if_pos hdue, hparts, State.startSummary_late]
  rfl

/-- The shift of `v` has been closed LATE at `t`, and the new one adopted; the LATE summary begins (R153, R157, R152, R3,
R161). -/
structure State.ClosedLate (v t : State) (number driver : Nat) : Prop where
  state    : t.shift.state = .onShift
  number   : t.shift.number = number
  driver   : t.shift.driver = some driver
  openTime : t.shift.openTime = some v.clock.seconds
  acc      : t.shift.acc = .zero
  lost     : t.shift.lost = false
  coldMark : t.shift.coldMark = false
  pending  : t.shift.pendingLate = none
  nextNo   : t.hire.nextNo = 1
  last     : t.shift.last = some { number := v.shift.number, driver := v.shift.driver, openTime := v.shift.openTime
                                   lost := v.shift.lost, closeTime := v.clock.seconds, mark := .late, acc := v.shift.acc }
  summary  : ∃ tx, t.shift.lateTx = some tx ∧ tx.k = 0 ∧ tx.parts = v.summaryParts v.shift.number v.shift.lost v.shift.acc
    ∧ ∀ p, tx.parts[0]? = some p → t.Offered (tx.held = true) 5 (encSummary true p)

/-- Only its own refusal marks the LATE summary as held (Table 5-4). -/
theorem State.offerRefused_lateTx (s : State) {o : Offer} (ho : o ≠ .lateSummary) :
    (s.offerRefused o).shift.lateTx = s.shift.lateTx := by
  cases o with
  | command a =>
    obtain ⟨i, h⟩ := s.offerRefused_command a
    rw [h]
  | lateSummary => exact absurd rfl ho
  | _ => rfl

theorem State.tryOffer_lateTx (s : State) {o : Offer} (ho : o ≠ .lateSummary) :
    (s.tryOffer o).shift.lateTx = s.shift.lateTx := by
  obtain ⟨-, h⟩ | ⟨payload, tag, -, ⟨l, -, h⟩ | ⟨-, h⟩⟩ := s.tryOffer_cases o <;> rw [h]
  · rw [State.offerTaken_lateTx, if_neg ho]
    rfl
  · exact s.offerRefused_lateTx ho

/-- The LATE summary stands with this part, offered again or not, and its part is still to be offered, or held, or queued. -/
def State.LateOffered (os : List Offer) (tx : SumTx) (p : SummaryPart) (u : State) : Prop :=
  ∃ held, u.shift.lateTx = some (tx.holding held)
    ∧ (.lateSummary ∈ os ∨ u.Offered (held = true) 5 (encSummary true p))

theorem State.LateOffered.tryOffer {tx : SumTx} {p : SummaryPart} (hpart : tx.parts[tx.k]? = some p) {os os' : List Offer}
    {o : Offer} {u : State} (h : u.LateOffered (os ++ o :: os') tx p) : (u.tryOffer o).LateOffered (os ++ os') tx p := by
  obtain ⟨held, htx, hstands⟩ := h
  by_cases ho : o = .lateSummary
  · subst ho
    obtain ⟨held', htx', hoffered⟩ := State.tryOffer_lateSummary htx hpart
    exact ⟨held', htx', Or.inr hoffered⟩
  · refine ⟨held, (u.tryOffer_lateTx ho).trans htx, ?_⟩
    obtain hmem | hheld | hcarries := hstands
    · exact Or.inl (mem_without_of_ne hmem (Ne.symm ho))
    · exact Or.inr (Or.inl hheld)
    · exact Or.inr (Or.inr ((u.tryOffer_kept o).queued _ _ (by decide) (by decide) hcarries))

/-- After the offers of a moment that holds the LATE summary its part is held or queued, in whatever order they are made. -/
theorem State.flushOffers_lateSummary {tx : SumTx} {p : SummaryPart} (htx : v.shift.lateTx = some tx)
    (hpart : tx.parts[tx.k]? = some p) (ho : .lateSummary ∈ v.offers) : ∃ held,
      v.flushOffers.shift.lateTx = some (tx.holding held) ∧ v.flushOffers.Offered (held = true) 5 (encSummary true p) := by
  have hstart : v.LateOffered v.offers tx p := ⟨tx.held, htx, Or.inl ho⟩
  obtain ⟨held, hheld, hnil | hoffered⟩ := flush_tracks (P := fun os u => u.LateOffered os tx p)
    (fun _ _ _ _ h => State.LateOffered.tryOffer hpart h) (fun _ _ _ _ h => h) hstart
  · cases hnil
  · exact ⟨held, hheld, hoffered⟩

section
variable (hp : v.shift.pendingLate = some (number, driver)) (hfree : v.hire.slot = .free) (hnone : v.pay.session = .none)
include hp hfree hnone

/-- What stands of a late close in a state that keeps it, once its summary is accounted for. -/
theorem State.ClosedLate.of_kept {t : State} {tx : SumTx} (hk : v.lateCloseIfDue.Kept t) (htx : t.shift.lateTx = some tx)
    (hk0 : tx.k = 0) (hparts : tx.parts = v.summaryParts v.shift.number v.shift.lost v.shift.acc)
    (hoffered : ∀ p, tx.parts[0]? = some p → t.Offered (tx.held = true) 5 (encSummary true p)) :
    v.ClosedLate t number driver := by
  rw [State.lateCloseIfDue_made hp hfree hnone] at hk
  obtain ⟨h1, h2, h3, h4, h5, h6, h7, h8, h9, -, -, h12⟩ := hk.shift rfl
  exact ⟨h1, h2, h3, h4, h5, h6, h7, h9, h12, h8, tx, htx, hk0, hparts, hoffered⟩

/-- An event after which a late close can be made makes it (R153). -/
theorem State.lateCloseIfDue_closes : v.ClosedLate v.lateCloseIfDue.flushOffers.signUpdate number driver := by
  have hmade := State.lateCloseIfDue_made hp hfree hnone
  have hlate : v.lateCloseIfDue.shift.lateTx = some v.lateSummary := by rw [hmade]
  have hoffers : .lateSummary ∈ v.lateCloseIfDue.offers := by
    rw [hmade]
    exact List.mem_append_right _ List.mem_cons_self
  obtain ⟨p, hpart⟩ : ∃ p, v.lateSummary.parts[0]? = some p := ⟨_, rfl⟩
  obtain ⟨held, htx, hoffered⟩ := State.flushOffers_lateSummary hlate hpart hoffers
  obtain ⟨-, hlink, -, hshift, -⟩ := v.lateCloseIfDue.flushOffers.signUpdate_blocks
  refine .of_kept hp hfree hnone (tx := v.lateSummary.holding held)
    ((State.flushOffers_kept _).trans (State.signUpdate_kept _)) ?_ rfl rfl fun p' hp' => ?_
  · rw [hshift, htx]
  · cases hpart.symm.trans hp'
    unfold State.Offered
    rw [hlink]
    exact hoffered

end

end

theorem exec_lateClose (s : State) : exec .lateClose s = event State.lateCloseIfDue s := rfl

/-- Settles O19. -/
theorem lateCloseIsMadeAtRest : Obligations.LateCloseIsMadeAtRest := by
  intro number driver s hr hp
  rw [exec_lateClose]
  refine ⟨fun hfree hnone => ⟨_, event_next hr, ?_⟩, fun hwait => ⟨_, event_next hr, ?_⟩⟩
  · have hclosed := State.lateCloseIfDue_closes hp hfree hnone
    rw [State.settleEvent_rested s.lateCloseIfDue_noLateClose]
    exact ⟨((State.lateCloseIfDue_kept s).trans (State.flushOffers_kept _)).trans (State.signUpdate_kept _), hclosed.state,
      hclosed.number, hclosed.driver, hclosed.openTime, hclosed.acc, hclosed.lost, hclosed.coldMark, hclosed.pending,
      hclosed.nextNo, hclosed.last, hclosed.summary⟩
  · have hlate : s.NoLateClose := Or.inr hwait
    obtain ⟨held, tx, late, hshift⟩ := State.settleEvent_shift hlate
    rw [State.lateCloseIfDue_waits hlate, hshift]
    exact ⟨State.settleEvent_kept s, hp, rfl, rfl, rfl⟩

end Sys2Proof.Machine
end

section
/-! PROOFS. What a seat does with the SHIFT frames of station 0 (O49, O50). -/
namespace Sys2Proof.Machine
open Sys2Proof

/-! ### Frames that a seat takes from station 0 alone (R149) -/

section
variable {s : State} (f : State → State)

theorem State.fromConsole_seat (h0 : s.addr ≠ 0) : s.fromConsole 0 f = f s :=
  if_pos ⟨rfl, by rw [State.isConsole_seat h0]; rfl⟩

theorem State.fromConsole_other {a : Addr} (ha : a ≠ 0) : s.fromConsole a f = s := if_neg fun h => ha h.1

end

section
variable (s : State) (a : Addr) (number : Nat)

theorem exec_shiftOpen (rejoin : Bool) (driver : Nat) : exec (.shiftOpen a rejoin number driver) s
    = frameEvent a (fun u => u.fromConsole a fun u => u.takeShiftOpen rejoin number driver) s := rfl

theorem exec_shiftCall : exec (.shiftCall a number) s
    = frameEvent a (fun u => u.fromConsole a fun u => u.takeShiftCall number) s := rfl

theorem exec_shiftDone (forced : Bool) (addrs : List Addr) : exec (.shiftDone a forced number addrs) s
    = frameEvent a (fun u => u.fromConsole a fun u => u.takeShiftDone forced number addrs) s := rfl

theorem exec_shiftAbandon : exec (.shiftAbandon a number) s
    = frameEvent a (fun u => u.fromConsole a fun u => u.takeShiftAbandon number) s := rfl

theorem exec_seatClosingLimitExpiry : exec .seatClosingLimitExpiry s
    = event (fun u => if u.shift.closing.isSome then u.leaveClosing else u) s := rfl

end

section
variable {s u : State} {f : State → State} (hr : s.supply.running = true) (h0 : s.addr ≠ 0) (hs : s.HearsFrom 0)
  (hf : f s.heardFrame = u)
include hr h0 hs hf

/-- A frame of station 0 that a seat takes, and the end of its event. -/
theorem seatFrame_next : frameEvent 0 (fun v => v.fromConsole 0 f) s = .next u.settleEvent := by
  rw [frameEvent_next hr hs, State.fromConsole_seat (s := s.heardFrame) f h0, hf]

theorem seatFrame_quiet (hq : u.Quiet) : frameEvent 0 (fun v => v.fromConsole 0 f) s = .next u.signUpdate := by
  rw [seatFrame_next hr h0 hs hf, State.settleEvent_quiet hq]

end

/-! ### SHIFT_OPEN (R152, R153) -/

section
variable {s : State} (rejoin : Bool) {number driver : Nat}

/-- A late close waits under the number it was first asked for with (R153). -/
theorem State.pendLate_form (s : State) (number driver : Nat) : ∃ p,
    s.pendLate number driver = { s with shift := { s.shift with pendingLate := p } }
      ∧ ((∀ d, s.shift.pendingLate ≠ some (number, d)) → p = some (number, driver))
      ∧ ∀ d, s.shift.pendingLate = some (number, d) → p = some (number, d) := by
  unfold State.pendLate State.onShift
  refine ⟨_, rfl, ?_⟩
  cases hp : s.shift.pendingLate with
  | none => exact ⟨fun _ => rfl, fun _ h => nomatch h⟩
  | some x =>
    obtain ⟨n, d⟩ := x
    by_cases hn : n = number
    · subst hn
      exact ⟨fun h => absurd rfl (h d), fun _ h => (if_pos rfl).trans h⟩
    · exact ⟨fun _ => if_neg hn, fun _ h => by cases h; exact absurd rfl hn⟩

/-- The seat ON_SHIFT with this late close pending. -/
def State.lateWaiting (s : State) (closing : Timer) (tx : Option SumTx) (p : Option (Nat × Nat)) : State :=
  { s with shift := { s.shift with state := .onShift, closing := closing, tx := tx, pendingLate := p } }

theorem State.takeShiftOpen_offShift (hoff : s.shift.state = .offShift) :
    s.takeShiftOpen rejoin number driver = s.adoptShift number driver rejoin := by
  unfold State.takeShiftOpen
  rw [hoff]

section
variable (hon : s.shift.state ≠ .offShift)
include hon

theorem State.takeShiftOpen_same (hn : s.shift.number = number) : s.takeShiftOpen rejoin number driver = s := by
  unfold State.takeShiftOpen
  cases hst : s.shift.state with
  | offShift => exact absurd hst hon
  | onShift => exact if_pos hn
  | closing => exact if_pos hn

/-- In another shift a late close is pending, and a seat that was CLOSING is ON_SHIFT again (R153). -/
theorem State.takeShiftOpen_other (hn : s.shift.number ≠ number) : ∃ closing tx p,
    s.takeShiftOpen rejoin number driver = s.lateWaiting closing tx p
      ∧ ((∀ d, s.shift.pendingLate ≠ some (number, d)) → p = some (number, driver))
      ∧ ∀ d, s.shift.pendingLate = some (number, d) → p = some (number, d) := by
  cases hst : s.shift.state with
  | offShift => exact absurd hst hon
  | onShift =>
    obtain ⟨p, hform, hp⟩ := s.pendLate_form number driver
    refine ⟨s.shift.closing, s.shift.tx, p, ?_, hp⟩
    unfold State.takeShiftOpen
    rw [hst]
    refine (if_neg hn).trans (hform.trans ?_)
    unfold State.lateWaiting
    rw [← hst]
  | closing =>
    obtain ⟨p, hform, hp⟩ := s.leaveClosing.pendLate_form number driver
    refine ⟨none, none, p, ?_, hp⟩
    unfold State.takeShiftOpen
    rw [hst]
    exact (if_neg hn).trans hform

end

end

/-! ### SHIFT_DONE and SHIFT_ABANDON (R163, R165) -/

section
variable {s : State} {number : Nat} (forced : Bool) (addrs : List Addr)

theorem State.takeShiftDone_closes (h : s.shift.state = .closing ∧ s.shift.number = number) (hmem : s.addr ∈ addrs) :
    s.takeShiftDone forced number addrs = s.leaveClosing.closeShift (if forced then .forced else .normal) := by
  unfold State.takeShiftDone
  rw [if_pos h, if_pos (List.contains_iff_mem.2 hmem)]

theorem State.takeShiftDone_reopens (h : s.shift.state = .closing ∧ s.shift.number = number) (hmem : s.addr ∉ addrs) :
    s.takeShiftDone forced number addrs = s.leaveClosing := by
  unfold State.takeShiftDone
  rw [if_pos h, if_neg fun hc => hmem (List.contains_iff_mem.1 hc)]

theorem State.takeShiftDone_other (h : ¬ (s.shift.state = .closing ∧ s.shift.number = number)) :
    s.takeShiftDone forced number addrs = s := if_neg h

theorem State.takeShiftAbandon_closing (h : s.shift.state = .closing ∧ s.shift.number = number) :
    s.takeShiftAbandon number = s.leaveClosing := if_pos h

theorem State.takeShiftAbandon_other (h : ¬ (s.shift.state = .closing ∧ s.shift.number = number)) :
    s.takeShiftAbandon number = s := if_neg h

end

/-! ### The statement about what the seat follows -/

section
variable {s : State} (hr : s.supply.running = true) (h0 : s.addr ≠ 0) (hs : s.HearsFrom 0)
  (number driver : Nat) (rejoin : Bool)
include hr h0 hs

/-- A seat that is ON_SHIFT or CLOSING, at rest, closes its shift LATE in the event of the other shift's SHIFT_OPEN (R153). -/
theorem shiftOpen_closesLate (hq : s.Quiet) (hon : s.shift.state ≠ .offShift) (hn : s.shift.number ≠ number)
    (hfree : s.hire.slot = .free) (hnone : s.pay.session = .none) : ∃ t, exec (.shiftOpen 0 rejoin number driver) s = .next t
      ∧ s.ClosedLate t number driver := by
  obtain ⟨closing, tx, p, hform, hnew, -⟩ := State.takeShiftOpen_other (s := s.heardFrame) rejoin (driver := driver) hon hn
  have hidle : s.shift.pendingLate = none := hq.2.resolve_right fun h => h.elim (absurd hfree) (absurd hnone)
  obtain rfl : p = some (number, driver) := hnew fun _ h => nomatch hidle.symm.trans h
  have hclosed := State.lateCloseIfDue_closes (v := s.heardFrame.lateWaiting closing tx (some (number, driver)))
    rfl hfree hnone
  rw [exec_shiftOpen]
  refine ⟨_, seatFrame_next hr h0 hs hform, hclosed.state, hclosed.number, hclosed.driver, hclosed.openTime, hclosed.acc,
    hclosed.lost, hclosed.coldMark, hclosed.pending, hclosed.nextNo, hclosed.last, ?_⟩
  obtain ⟨tx', htx, hk, hparts, hoffered⟩ := hclosed.summary
  rw [State.summaryParts_same (t := s.heardFrame.lateWaiting closing tx (some (number, driver))) (v := s) rfl rfl]
    at hparts
  exact ⟨tx', htx, hk, hparts, hoffered⟩

/-- While the late close may not be made it waits (R153). -/
theorem shiftOpen_waits (hon : s.shift.state ≠ .offShift) (hn : s.shift.number ≠ number)
    (hwait : s.hire.slot ≠ .free ∨ s.pay.session ≠ .none) : ∃ t, exec (.shiftOpen 0 rejoin number driver) s = .next t
      ∧ t.shift.number = s.shift.number ∧ t.shift.acc = s.shift.acc ∧ t.shift.state = .onShift ∧ t.hire.slot = s.hire.slot
      ∧ ((∀ d, s.shift.pendingLate ≠ some (number, d)) → t.shift.pendingLate = some (number, driver))
      ∧ ∀ d, s.shift.pendingLate = some (number, d) → t.shift.pendingLate = some (number, d) := by
  obtain ⟨closing, tx, p, hform, hp⟩ := State.takeShiftOpen_other (s := s.heardFrame) rejoin (driver := driver) hon hn
  obtain ⟨held, tx', late, hshift⟩ := State.settleEvent_shift (v := s.heardFrame.lateWaiting closing tx p) (Or.inr hwait)
  rw [exec_shiftOpen]
  refine ⟨_, seatFrame_next hr h0 hs hform, ?_⟩
  rw [(State.settleEvent_kept _).slot, hshift]
  exact ⟨rfl, rfl, rfl, rfl, hp⟩

end

/-- Settles O49. -/
theorem seatFollowsTheShift : Obligations.SeatFollowsTheShift := by
  intro s hr h0 hq
  have hquiet {sh : Shift} (hp : sh.pendingLate = s.shift.pendingLate) : ({ s.heardFrame with shift := sh } : State).Quiet :=
    hq.of_same rfl hp rfl rfl
  refine ⟨fun hs number driver rejoin forced addrs => ?_, fun hlimit => ?_, fun hlimit => ?_, ?_⟩
  · have htakes {f : State → State} {sh : Shift} (hp : sh.pendingLate = s.shift.pendingLate)
        (hf : f s.heardFrame = { s.heardFrame with shift := sh }) :=
      seatFrame_quiet hr h0 hs hf (hquiet hp)
    refine ⟨fun hoff => ?_, fun hon hn => ?_, fun hon hn => ⟨fun hfree hnone => ?_, ?_⟩, ?_, fun h => ?_, ?_⟩
    · rw [exec_shiftOpen]
      refine ⟨_, seatFrame_next hr h0 hs (State.takeShiftOpen_offShift (s := s.heardFrame) rejoin hoff), ?_⟩
      exact (State.heardFrame_kept _).trans (State.settleEvent_kept _)
    · rw [exec_shiftOpen]
      exact htakes rfl (State.takeShiftOpen_same (s := s.heardFrame) rejoin hon hn)
    · obtain ⟨t, ht, hclosed⟩ := shiftOpen_closesLate hr h0 hs number driver rejoin hq hon hn hfree hnone
      exact ⟨t, ht, hclosed.state, hclosed.number, hclosed.driver, hclosed.openTime, hclosed.acc, hclosed.lost,
        hclosed.coldMark, hclosed.nextNo, hclosed.pending, hclosed.last, hclosed.summary⟩
    · exact shiftOpen_waits hr h0 hs number driver rejoin hon hn
    · rintro shift h rfl
      rw [exec_shiftDone]
      by_cases hmem : s.addr ∈ addrs
      · rw [if_pos hmem]
        exact htakes rfl (State.takeShiftDone_closes (s := s.heardFrame) forced addrs h hmem)
      · rw [if_neg hmem]
        exact htakes rfl (State.takeShiftDone_reopens (s := s.heardFrame) forced addrs h hmem)
    · rw [exec_shiftAbandon]
      exact htakes rfl (State.takeShiftAbandon_closing (s := s.heardFrame) h)
    · intro hother c hc
      have hno : ¬ (s.shift.state = .closing ∧ s.shift.number = number) := fun ⟨hst, hn⟩ =>
        hother.elim (absurd hst) (absurd hn)
      obtain rfl | rfl := hc
      · exact (exec_shiftDone ..).trans (htakes rfl (State.takeShiftDone_other (s := s.heardFrame) forced addrs hno))
      · exact (exec_shiftAbandon ..).trans (htakes rfl (State.takeShiftAbandon_other (s := s.heardFrame) hno))
  · rw [exec_seatClosingLimitExpiry]
    exact event_quiet hr (if_pos (Option.isSome_iff_ne_none.2 hlimit)) (hq.of_same rfl rfl rfl rfl)
  · rw [exec_seatClosingLimitExpiry]
    exact event_quiet hr (if_neg fun h => Option.isSome_iff_ne_none.1 h hlimit) hq
  · intro a number driver rejoin forced addrs c ha hs hc
    have hignored {f : State → State} : frameEvent a (fun u => u.fromConsole a f) s = .next s.heardFrame.signUpdate :=
      frameEvent_quiet hr hs (State.fromConsole_other f ha) (hquiet rfl)
    obtain rfl | rfl | rfl | rfl := hc
    · exact (exec_shiftOpen ..).trans hignored
    · exact (exec_shiftCall ..).trans hignored
    · exact (exec_shiftDone ..).trans hignored
    · exact (exec_shiftAbandon ..).trans hignored

/-! ### SHIFT_CALL (R160, R161) -/

section
variable {s : State} {number : Nat}

theorem State.atRest_iff (s : State) : s.atRest = true ↔ s.hire.slot = .free ∧ s.pay.session = .none := by
  unfold State.atRest
  rw [Bool.and_eq_true, Bool.not_eq_true', ← Bool.not_eq_true, Session.active_iff, not_not, Slot.isFree_iff]

theorem State.takeShiftCall_offShift (hoff : s.shift.state = .offShift) : s.takeShiftCall number = s := by
  unfold State.takeShiftCall
  rw [hoff]

theorem State.takeShiftCall_other (hon : s.shift.state ≠ .offShift) (hn : s.shift.number ≠ number) :
    s.takeShiftCall number = s.sendShift (.refuse .number s.shift.number) := by
  unfold State.takeShiftCall
  cases hst : s.shift.state with
  | offShift => exact absurd hst hon
  | onShift => exact if_pos hn
  | closing => exact if_pos hn

theorem State.takeShiftCall_busy (hon : s.shift.state = .onShift) (hn : s.shift.number = number)
    (hbusy : s.hire.slot ≠ .free ∨ s.pay.session ≠ .none) :
    s.takeShiftCall number = s.sendShift (.refuse .busy s.shift.number) := by
  unfold State.takeShiftCall
  rw [hon]
  refine (if_neg (not_not_intro hn)).trans (if_neg fun hrest => ?_)
  obtain ⟨hfree, hnone⟩ := s.atRest_iff.1 hrest
  exact hbusy.elim (absurd hfree) (absurd hnone)

theorem State.takeShiftCall_answered (hn : s.shift.number = number)
    (h : (s.shift.state = .onShift ∧ s.hire.slot = .free ∧ s.pay.session = .none) ∨ s.shift.state = .closing) :
    s.takeShiftCall number = s.answerCall := by
  unfold State.takeShiftCall
  obtain ⟨hon, hrest⟩ | hclosing := h
  · rw [hon]
    exact (if_neg (not_not_intro hn)).trans (if_pos (s.atRest_iff.2 hrest))
  · rw [hclosing]
    exact if_neg (not_not_intro hn)

/-- The seat that answers a SHIFT_CALL, before its summary is offered (R160, R161). -/
def State.answering (s : State) : State := { s with shift := { s.shift with
  state := .closing, closing := some 100000, gen := s.shift.gen + 1
  tx := some { parts := s.summaryParts s.shift.number s.shift.lost s.shift.acc, k := 0, held := false, gen := s.shift.gen } } }

theorem State.answerCall_eq (s : State) : s.answerCall = s.answering.offer .summary := rfl

end

/-- Settles O50. -/
theorem seatAnswersTheCall : Obligations.SeatAnswersTheCall := by
  intro number s hr h0 hs hq
  have hquiet : s.heardFrame.Quiet := hq.of_same rfl rfl rfl rfl
  have hrefuses {reason : RefuseReason}
      (hf : s.heardFrame.takeShiftCall number = s.heardFrame.sendShift (.refuse reason s.shift.number)) :
      ∃ t, frameEvent 0 (fun v => v.fromConsole 0 fun v => v.takeShiftCall number) s = .next t ∧ s.Kept t
        ∧ (s.silent = false → t.Offered (.refuse reason s.shift.number ∈ t.shift.held) 5
          (encShiftFrame (.refuse reason s.shift.number))) := by
    have hop : s.hear 0 (fun v => v.fromConsole 0 fun v => v.takeShiftCall number)
        = s.heardFrame.sendShift (.refuse reason s.shift.number) := by
      rw [State.hear_other hs, State.fromConsole_seat (s := s.heardFrame) _ h0, hf]
    exact event_sendsShift hr hop s.heardFrame_kept rfl
  rw [exec_shiftCall]
  refine ⟨fun hoff => ?_, fun hon hn => ?_, fun hon hn hbusy => ?_, fun hn h => ?_⟩
  · exact seatFrame_quiet hr h0 hs (State.takeShiftCall_offShift (s := s.heardFrame) hoff) hquiet
  · exact hrefuses (State.takeShiftCall_other (s := s.heardFrame) hon hn)
  · exact hrefuses (State.takeShiftCall_busy (s := s.heardFrame) hon hn hbusy)
  · have hrested : s.heardFrame.answering.Quiet := hquiet.of_same rfl rfl rfl rfl
    obtain ⟨p, hpart⟩ : ∃ p, (s.summaryParts s.shift.number s.shift.lost s.shift.acc)[0]? = some p := ⟨_, rfl⟩
    obtain ⟨held, htx, hoffered⟩ := State.tryOffer_summary (s := s.heardFrame.answering) rfl hpart
    have hend := seatFrame_next (f := fun v => v.takeShiftCall number) hr h0 hs
      ((State.takeShiftCall_answered (s := s.heardFrame) hn h).trans s.heardFrame.answerCall_eq)
    obtain ⟨held', tx, late, hshift⟩ := State.settleEvent_shift (v := s.heardFrame.answering.offer .summary) hrested.2
    refine ⟨_, held, hend, ?_, ?_, ?_, ?_, ?_, fun p' hp' _ => ?_⟩
    iterate 4
      rw [hshift]
      rfl
    · rw [State.settleEvent_offer hrested, (State.signUpdate_blocks _).2.2.2.1, htx]
      rfl
    · cases hpart.symm.trans hp'
      unfold State.Offered
      rw [State.settleEvent_offer hrested, (State.signUpdate_blocks _).2.1]
      exact hoffered

end Sys2Proof.Machine
end

section
/-! PROOFS. Station 0 opens a shift, and calls and forces a close (O52). -/
namespace Sys2Proof.Machine
open Sys2Proof

section
variable (s : State)

theorem exec_shiftOpenKeyed (driver : Nat) : exec (.shiftOpenKeyed driver) s
    = sequenceEvent (isFunctionSeq 1) (fun u => u.takeOpenKeyed driver) s := rfl

theorem exec_closeKey : exec .closeKey s = sequenceEvent alone State.takeClose s := rfl

theorem exec_forcedClose : exec .forcedClose s = sequenceEvent (isFunctionSeq 8) State.takeForcedClose s := rfl

end

/-! ### The open of a shift (R150, R97, R98) -/

section
variable {s : State} {driver : Nat}

theorem State.takeOpenKeyed_open (hon : s.shift.state ≠ .offShift) : s.takeOpenKeyed driver = s.say .shiftIsOpen := if_pos hon

theorem State.takeOpenKeyed_invalid (hoff : s.shift.state = .offShift) (hd : driver = 0 ∨ 9999 < driver) :
    s.takeOpenKeyed driver = s.say .entryInvalid :=
  (if_neg (not_not_intro hoff)).trans (if_pos (hd.imp_left fun h => by omega))

theorem State.takeOpenKeyed_opens (hoff : s.shift.state = .offShift) (h1 : 1 ≤ driver) (hd : driver ≤ 9999) :
    s.takeOpenKeyed driver = s.openShift driver :=
  (if_neg (not_not_intro hoff)).trans (if_neg (by omega))

/-- The shift that station 0 opens, before the sign's reports (R150). -/
def State.opened (s : State) (driver : Nat) : State := { s with
  shift := { s.shift with number := succShiftNo s.shift.number, driver := some driver, openTime := some s.clock.seconds
                          acc := .zero, lost := false, coldMark := false, state := .onShift }
  hire := { s.hire with nextNo := 1 } }

/-- The totals of a shift as it opens: what the sign reports still stands (R97, R98). -/
def State.openTotals (s : State) : Accum := { Accum.zero with
  lampFault := (s.sign.lamps.map Lamps.anyFailed).getD false, signSilent := s.sign.signSilent }

/-- An addition to the accumulators made under a condition, in a shift (R154). -/
theorem State.accountIf_eq (hon : s.shift.state ≠ .offShift) (b : Bool) (f : Accum → Accum) :
    (if b then s.account f else s) = { s with shift := { s.shift with acc := if b then f s.shift.acc else s.shift.acc } } := by
  cases b with
  | true => exact if_neg hon
  | false => rfl

theorem State.reportStanding_opened {u : State} (hon : u.shift.state ≠ .offShift) (hzero : u.shift.acc = .zero) :
    u.reportStanding = { u with shift := { u.shift with acc := u.openTotals } } := by
  unfold State.reportStanding State.reportLampFault State.reportSignSilent
  dsimp only
  rw [State.accountIf_eq hon, State.accountIf_eq (by exact hon), hzero]
  unfold State.openTotals
  dsimp only
  cases (u.sign.lamps.map Lamps.anyFailed).getD false <;> cases u.sign.signSilent <;> rfl

/-- What an open leaves, with its SHIFT_OPEN held to be offered (R150). -/
theorem State.openShift_form (s : State) (driver : Nat) : ∃ held os,
    s.openShift driver
        = { s.opened driver with shift := { (s.opened driver).shift with acc := s.openTotals, held := held }, offers := os }
      ∧ (s.silent = false → .opened (succShiftNo s.shift.number) driver false ∈ held) := by
  obtain ⟨held, os, hform⟩ := (s.opened driver).sendShift_form (.opened (succShiftNo s.shift.number) driver false)
  refine ⟨held, os, ?_, fun hawake => ?_⟩
  · have hopens : s.openShift driver
        = ((s.opened driver).sendShift (.opened (succShiftNo s.shift.number) driver false)).reportStanding := rfl
    rw [hopens, hform, State.reportStanding_opened (by exact ShiftState.noConfusion) rfl]
    rfl
  · have hheld := State.sendShift_held (u := s.opened driver) (f := .opened (succShiftNo s.shift.number) driver false) hawake
    rw [hform] at hheld
    exact hheld

end

/-! ### CLOSE (R158) -/

section
variable {s : State}

/-- The causes that refuse the CLOSE key, in the order R158 lists them (log entry 55). -/
def State.closeCauses (s : State) : List (Bool × CloseRefusal) :=
  [ (decide (s.shift.state ≠ .onShift), .noShift),
    (decide (s.hire.slot ≠ .free ∨ s.pay.session ≠ .none), .slotBusy), (s.silent, .linkSilent),
    (decide (.vehicleReport ∈ s.print.jobs ∨ .lastReport ∈ s.print.jobs ∨ s.close.reportHeld = true), .reportPending) ]

/-- What the first true check of a list gives. -/
theorem firstTrue_cons {α : Type} (b : Bool) (x : α) (cs : List (Bool × α)) :
    (((b, x) :: cs).find? fun c => c.1).map Prod.snd = if b = true then some x else (cs.find? fun c => c.1).map Prod.snd := by
  cases b <;> rfl

theorem State.closeRefusal_eq (s : State) : s.closeRefusal = (s.closeCauses.find? fun c => c.1).map Prod.snd := by
  have hbusy : (!s.atRest) = decide (s.hire.slot ≠ .free ∨ s.pay.session ≠ .none) := by
    rw [Bool.eq_iff_iff, Bool.not_eq_true', ← Bool.not_eq_true, s.atRest_iff, decide_eq_true_iff, not_and_or]
  unfold State.closeRefusal State.closeCauses
  simp only [firstTrue_cons, hbusy, decide_eq_true_eq, List.contains_iff_mem, List.find?_nil, Option.map_none]

theorem State.closeRefusal_none (hon : s.shift.state = .onShift) (hfree : s.hire.slot = .free) (hnone : s.pay.session = .none)
    (hawake : s.silent = false) (hreport : .vehicleReport ∉ s.print.jobs) (hlast : .lastReport ∉ s.print.jobs)
    (hheld : s.close.reportHeld = false) : s.closeRefusal = none := by
  rw [s.closeRefusal_eq, Option.map_eq_none_iff, List.find?_eq_none]
  simp [State.closeCauses, hon, hfree, hnone, hawake, hreport, hlast, hheld]

/-- The row of `a` in a close that CLOSE begins: expected for station 0 and for the seats seen ON_SHIFT (R158). -/
theorem State.expectedRows_get (s : State) (a : Addr) :
    s.expectedRows.get a = (s.close.rows.get a).fresh (a == 0 || s.seatOnShift a) := by
  match a with
  | 0 => rfl
  | 1 => rfl
  | 2 => rfl
  | 3 => rfl

theorem Close.forcedRows_seat (c : Close) {a : Addr} (ha : a ≠ 0) : c.forcedRows.get a = (c.rows.get a).again := by
  match a with
  | 0 => exact absurd rfl ha
  | 1 => rfl
  | 2 => rfl
  | 3 => rfl

theorem State.mayForce_iff (s : State) : s.mayForce = true ↔ s.close.state = .abandoned ∧ s.close.number = s.shift.number
    ∧ s.shift.state = .onShift ∧ (s.hire.slot = .free ∧ s.pay.session = .none) ∧ s.silent = false := by
  simp only [State.mayForce, Bool.and_eq_true, beq_iff_eq, s.atRest_iff, Bool.not_eq_true', and_assoc]

/-- The close that station 0 begins to collect, before its seats are called (R158, R166). -/
def State.collecting (s : State) (rows : Quad CloseRow) (forced : Bool) : State := { s.endKeys with
  close := { s.close with
    state := .collecting, number := s.shift.number, driver := s.shift.driver, forced := forced, rows := rows
    rowZero := if forced then s.close.rowZero else none, collect := none }
  shift := { s.shift with state := .closing } }

section
variable (hr : s.supply.running = true) (h0 : s.addr = 0) (hlow : s.supply.state ≠ .low) (hkeys : s.console.keys = .idle)
include hr h0 hlow hkeys

/-- A key whose operation begins to collect a close: its seats are called (R158, R166). -/
theorem close_called {own : KeySeq → Bool} {f : State → State} {rows : Quad CloseRow} {forced : Bool} (hq : s.Quiet)
    (hf : f s.endKeys = s.endKeys.startCollect rows forced) (hawake : s.silent = false) :
    ∃ t, sequenceEvent own f s = .next t ∧ t.shift.state = .closing ∧ t.shift.acc = s.shift.acc
      ∧ t.close = { s.close with
          state := .collecting, number := s.shift.number, driver := s.shift.driver, forced := forced, rows := rows
          rowZero := if forced then s.close.rowZero else none, collect := none }
      ∧ t.Offered (.call s.shift.number ∈ t.shift.held) 5 (encShiftFrame (.call s.shift.number)) := by
  have hstart : s.endKeys.startCollect rows forced = (s.collecting rows forced).sendShift (.call s.shift.number) := rfl
  obtain ⟨held, os, hform⟩ := (s.collecting rows forced).sendShift_form (.call s.shift.number)
  have hheld := State.sendShift_held (u := s.collecting rows forced) (f := .call s.shift.number) hawake
  have hlate : ((s.collecting rows forced).sendShift (.call s.shift.number)).NoLateClose := by
    rw [hform]
    exact hq.2
  obtain ⟨held', tx, late, hshift⟩ := State.settleEvent_shift hlate
  refine ⟨_, sequenceEvent_next hr h0 hlow hkeys (hf.trans hstart), ?_, ?_, ?_, State.settleEvent_offersShift hheld⟩
  · rw [hshift, hform]
    rfl
  · rw [hshift, hform]
    rfl
  · rw [(State.settleEvent_kept _).close, hform]
    rfl

/-- FUNCTION 1 with a good driver number, while OFF_SHIFT (R150). -/
theorem shiftOpenKeyed_opens (hq : s.Quiet) (hoff : s.shift.state = .offShift) {driver : Nat} (h1 : 1 ≤ driver)
    (hd : driver ≤ 9999) : ∃ t, exec (.shiftOpenKeyed driver) s = .next t
      ∧ (∃ held tx late, t.shift
          = { (s.opened driver).shift with acc := s.openTotals, held := held, tx := tx, lateTx := late })
      ∧ t.hire.nextNo = 1 ∧ t.hire.slot = s.hire.slot ∧ t.console.keys = .idle
      ∧ (s.silent = false → t.Offered (.opened (succShiftNo s.shift.number) driver false ∈ t.shift.held) 5
          (encShiftFrame (.opened (succShiftNo s.shift.number) driver false))) := by
  obtain ⟨held, os, hform, hheld⟩ := s.endKeys.openShift_form driver
  have hlate : (s.endKeys.openShift driver).NoLateClose := by
    rw [hform]
    exact hq.2
  obtain ⟨held', tx, late, hshift⟩ := State.settleEvent_shift hlate
  have hkept := State.settleEvent_kept (s.endKeys.openShift driver)
  rw [exec_shiftOpenKeyed]
  refine ⟨_, sequenceEvent_next hr h0 hlow hkeys (State.takeOpenKeyed_opens (s := s.endKeys) hoff h1 hd),
    ⟨held', tx, late, ?_⟩, ?_, ?_, ?_, fun hawake => State.settleEvent_offersShift ?_⟩
  · rw [hshift, hform]
    rfl
  · rw [State.settleEvent_nextNo hlate, hform]
    rfl
  · rw [hkept.slot, hform]
    rfl
  · rw [hkept.keys, hform]
    rfl
  · rw [hform]
    exact hheld hawake

end

end

/-- Settles O52. -/
theorem stationZeroOpensAndCallsTheClose : Obligations.StationZeroOpensAndCallsTheClose := by
  intro s hr h0 hq hkeys
  refine ⟨?_, fun hlow driver c hc => ?_⟩
  · rintro hlow say rfl
    have hsays {own : KeySeq → Bool} {f : State → State} {m : Message} (hf : f s.endKeys = s.endKeys.say m) :
        sequenceEvent own f s = .next (s.endKeys.say m).signUpdate := sequenceEvent_idle hr h0 hlow hkeys hf hq
    refine ⟨fun driver => ⟨fun hon => ?_, fun hoff hd => ?_, ?_⟩, fun cause hcause => ?_, ?_, ?_, fun hno => ?_⟩
    · exact hsays (f := fun u => u.takeOpenKeyed driver) (State.takeOpenKeyed_open (s := s.endKeys) hon)
    · exact hsays (f := fun u => u.takeOpenKeyed driver) (State.takeOpenKeyed_invalid (s := s.endKeys) hoff hd)
    · rintro hoff h1 hd n rfl
      obtain ⟨t, ht, ⟨held, tx, late, hshift⟩, hno, hslot, hidle, hoffered⟩ :=
        shiftOpenKeyed_opens hr h0 hlow hkeys hq hoff h1 hd
      refine ⟨t, ht, ?_, ?_, ?_, ?_, ?_, ?_, ?_, hno, hslot, hidle, hoffered⟩
      iterate 7
        rw [hshift]
        rfl
    · refine hsays (f := State.takeClose) ?_
      have hrefused : s.endKeys.closeRefusal = some cause := by
        rw [State.closeRefusal_eq]
        exact congrArg (Option.map Prod.snd) hcause
      unfold State.takeClose
      rw [hrefused]
    · intro hon hfree hnone hawake hreport hlast hheld
      have htakes : s.endKeys.takeClose = s.endKeys.startCollect s.endKeys.expectedRows false := by
        unfold State.takeClose
        rw [State.closeRefusal_none (s := s.endKeys) hon hfree hnone hawake hreport hlast hheld]
      obtain ⟨t, ht, hst, hacc, hclose, hoffered⟩ := close_called (own := alone) hr h0 hlow hkeys hq htakes hawake
      refine ⟨t, ht, hst, hacc, ?_⟩
      rw [hclose]
      refine ⟨rfl, rfl, rfl, rfl, rfl, ?_, hoffered⟩
      rintro a called rfl
      exact s.endKeys.expectedRows_get a
    · intro hab hn hon hfree hnone hawake
      have htakes : s.endKeys.takeForcedClose = s.endKeys.startCollect s.close.forcedRows true :=
        if_pos (s.endKeys.mayForce_iff.2 ⟨hab, hn, hon, ⟨hfree, hnone⟩, hawake⟩)
      obtain ⟨t, ht, hst, hacc, hclose, hoffered⟩ := close_called (own := isFunctionSeq 8) hr h0 hlow hkeys hq htakes hawake
      refine ⟨t, ht, hst, hacc, ?_⟩
      rw [hclose]
      exact ⟨rfl, rfl, rfl, rfl, rfl, fun a ha => s.close.forcedRows_seat ha, hoffered⟩
    · refine hsays (f := State.takeForcedClose) (if_neg fun hmay => ?_)
      obtain ⟨hab, hn, hon, ⟨hfree, hnone⟩, hawake⟩ := s.endKeys.mayForce_iff.1 hmay
      obtain h | h | h | h | h | h := hno
      · exact h hab
      · exact h hn
      · exact h hon
      · exact h hfree
      · exact h hnone
      · exact Bool.false_ne_true (hawake.symm.trans h)
  · obtain rfl | rfl | rfl := hc
    · exact (exec_shiftOpenKeyed s driver).trans (sequenceEvent_low hr hq hlow)
    · exact (exec_closeKey s).trans (sequenceEvent_low hr hq hlow)
    · exact (exec_forcedClose s).trans (sequenceEvent_low hr hq hlow)

end Sys2Proof.Machine
end

section
/-! PROOFS. The close table: parts, refusals and the collect time (O53). -/
namespace Sys2Proof.Machine
open Sys2Proof

section
variable (s : State) (a : Addr) (p : SummaryPart)

theorem exec_shiftSummary : exec (.shiftSummary a p) s
    = frameEvent a (fun u => u.atConsole fun u => u.takeSummary a p) s := rfl

theorem exec_lateSummaryPart : exec (.lateSummaryPart a p) s
    = frameEvent a (fun u => u.atConsole fun u => u.takeLatePart a p) s := rfl

theorem exec_shiftRefuse (reason : RefuseReason) (n : Nat) : exec (.shiftRefuse a reason n) s
    = frameEvent a (fun u => u.atConsole fun u => u.takeRefuse a reason) s := rfl

theorem exec_collectTimeExpiry : exec .collectTimeExpiry s = event State.collectEnds s := rfl

end

/-! ### Frames that station 0 alone takes (R149) -/

section
variable {s u e : State} {a : Addr} {f : State → State} (hr : s.supply.running = true) (hs : s.HearsFrom a)
include hr hs

/-- A frame that is for the other kind of station is only heard. -/
theorem seatFrame_ignored (h0 : s.addr ≠ 0) (hq : s.Quiet) : frameEvent a (fun v => v.atConsole f) s = .next s.onlyHeard :=
  frameEvent_quiet hr hs (State.atConsole_seat (s := s.heardFrame) f h0) (hq.of_same rfl rfl rfl rfl)

variable (h0 : s.addr = 0)
include h0

theorem consoleFrame_next (hf : f s.heardFrame = u) : frameEvent a (fun v => v.atConsole f) s = .next u.settleEvent := by
  rw [frameEvent_next hr hs, State.atConsole_console (s := s.heardFrame) f h0, hf]

theorem consoleFrame_ignored (hq : s.Quiet) (hf : f s.heardFrame = s.heardFrame) :
    frameEvent a (fun v => v.atConsole f) s = .next s.onlyHeard := by
  have hquiet : s.heardFrame.Quiet := hq.of_same rfl rfl rfl rfl
  rw [consoleFrame_next hr hs h0 hf, State.settleEvent_quiet hquiet]
  rfl

/-- A frame that station 0 takes and that leaves `e`, but for what every good frame does (R80). -/
theorem consoleFrame_kept (hf : f s.heardFrame = e.heardFrame) :
    ∃ t, frameEvent a (fun v => v.atConsole f) s = .next t ∧ e.Kept t :=
  ⟨_, consoleFrame_next hr hs h0 hf, e.heardFrame_kept.trans (State.settleEvent_kept _)⟩

end

/-! ### A part of a summary (R162) -/

section
variable {s : State} {a : Addr} {p : SummaryPart} {r : CloseRow}

theorem allParts_iff (q : Quad (Option SummaryPart)) : allParts q = true ↔ ∀ i, (q.get i).isSome = true :=
  Quad.all_toList q Option.isSome

theorem CloseRow.settled_iff (r : CloseRow) (forced : Bool) :
    r.settled forced = true ↔ (r.expected = true → r.st = .complete ∨ forced = true ∧ r.st = .absent) := by
  unfold CloseRow.settled
  simp only [Bool.or_eq_true, Bool.and_eq_true, Bool.not_eq_true', beq_iff_eq]
  cases r.expected with
  | true => simp
  | false => simp

theorem CloseRow.takes_expected (hexp : r.expected = true) (hst : r.st = .waiting ∨ r.st = .incomplete) : r.takes = true := by
  unfold CloseRow.takes
  obtain hst | hst := hst <;> rw [hexp, hst] <;> rfl

theorem CloseRow.takes_not (h : r.expected = false ∨ r.st = .complete ∨ r.st = .absent) : r.takes = false := by
  unfold CloseRow.takes
  obtain hexp | hst | hst := h
  · rw [hexp]
    rfl
  · rw [hst]
    exact Bool.and_false _
  · rw [hst]
    exact Bool.and_false _

/-- A stored part completes a WAITING row that has all four with it (R162). -/
theorem CloseRow.store_eq (r : CloseRow) (p : SummaryPart) : r.store p = { r with
    parts := r.parts.set (partPlace p) (some p)
    st := if (∀ i, ((r.parts.set (partPlace p) (some p)).get i).isSome = true) ∧ r.st = .waiting then .complete
      else r.st } := by
  unfold CloseRow.store
  dsimp only
  rw [if_congr (and_congr_left' (allParts_iff _)) rfl rfl]

theorem State.takeSummary_stored (hcol : s.close.state = .collecting) (htakes : (s.close.rows.get a).takes = true)
    (hno : ∀ n, partNumber p = some n → n = s.close.number) : s.takeSummary a p
      = (s.onClose fun c => { c with rows := s.close.rows.set a ((s.close.rows.get a).store p) }).completionTest := by
  have hnumber : (partNumber p).getD s.close.number = s.close.number := by
    cases hp : partNumber p with
    | none => rfl
    | some n => exact hno n hp
  exact if_pos ⟨hcol, htakes, hnumber⟩

theorem State.takeSummary_ignored (h : s.close.state ≠ .collecting ∨ (s.close.rows.get a).takes = false
    ∨ ∃ n, partNumber p = some n ∧ n ≠ s.close.number) : s.takeSummary a p = s := by
  refine if_neg fun ⟨hcol, htakes, hnumber⟩ => ?_
  obtain h | h | ⟨n, hp, hn⟩ := h
  · exact h hcol
  · exact Bool.false_ne_true (h.symm.trans htakes)
  · rw [hp] at hnumber
    exact hn hnumber

/-- Every expected row answers for completion (R162). -/
def Close.AllSettled (c : Close) : Prop :=
  ∀ a, (c.rows.get a).expected = true → (c.rows.get a).st = .complete ∨ (c.forced = true ∧ (c.rows.get a).st = .absent)

theorem Close.allSettled_iff (c : Close) : (c.rows.toList.all fun r => r.settled c.forced) = true ↔ c.AllSettled :=
  (Quad.all_toList _ _).trans (forall_congr' fun _ => CloseRow.settled_iff _ _)

theorem State.completionTest_done (hcol : s.close.state = .collecting) (h : s.close.AllSettled) :
    s.completionTest = s.closeDone := if_pos ⟨hcol, s.close.allSettled_iff.2 h⟩

theorem State.completionTest_waits (h : ¬ s.close.AllSettled) : s.completionTest = s :=
  if_neg fun hall => h (s.close.allSettled_iff.1 hall.2)

end

/-! ### A refusal, and the collect time (R164, R166) -/

section
variable {s : State} {a : Addr} {reason : RefuseReason}

/-- Station 0 back ON_SHIFT with its close abandoned, before SHIFT_ABANDON is offered (R164). -/
def State.abandoned (s : State) : State := { s with
  close := { s.close with state := .abandoned, collect := none }
  shift := { s.shift with state := .onShift, closing := none, tx := none } }

theorem State.abandonClose_eq (s : State) : s.abandonClose = s.abandoned.sendShift (.abandon s.close.number) := rfl

/-- The close ends abandoned in its event (R164). -/
theorem State.abandonClose_ends (hlate : s.NoLateClose) : s.ClosedInAbandon s.abandonClose.settleEvent s.close.rows := by
  obtain ⟨held, os, hform⟩ := s.abandoned.sendShift_form (.abandon s.close.number)
  have hlate' : (s.abandoned.sendShift (.abandon s.close.number)).NoLateClose := by
    rw [hform]
    exact hlate
  obtain ⟨held', tx, late, hshift⟩ := State.settleEvent_shift hlate'
  have hkept := State.settleEvent_kept (s.abandoned.sendShift (.abandon s.close.number))
  rw [State.abandonClose_eq]
  refine ⟨?_, ?_, ?_, ?_, ?_, ?_, fun hawake => State.settleEvent_offersShift (State.sendShift_held hawake)⟩
  · rw [hkept.close, hform]
    rfl
  iterate 4
    rw [hshift, hform]
    rfl
  · rw [hkept.jobs, hform]
    rfl

/-- The close table with this state in the row of `a`. -/
def Close.rowsWith (c : Close) (a : Addr) (st : RowState) : Quad CloseRow := c.rows.set a { c.rows.get a with st := st }

section
variable (hcol : s.close.state = .collecting) (hexp : (s.close.rows.get a).expected = true)
  (hst : (s.close.rows.get a).st = .waiting)
include hcol hexp hst

theorem State.takeRefuse_forced (hforced : s.close.forced = true) : s.takeRefuse a reason
    = s.onClose fun c => { c with rows := c.rowsWith a .absent } :=
  (if_pos ⟨hcol, hexp, hst⟩).trans (if_pos hforced)

theorem State.takeRefuse_unforced (hforced : s.close.forced = false) : s.takeRefuse a reason
    = (s.onClose fun c => { c with rows := c.rowsWith a (.refused reason) }).abandonClose :=
  (if_pos ⟨hcol, hexp, hst⟩).trans (if_neg (by rw [hforced]; exact Bool.false_ne_true))

end

theorem State.takeRefuse_ignored (h : s.close.state ≠ .collecting ∨ (s.close.rows.get a).expected = false
    ∨ (s.close.rows.get a).st ≠ .waiting) : s.takeRefuse a reason = s := by
  refine if_neg fun ⟨hcol, hexp, hst⟩ => ?_
  obtain h | h | h := h
  · exact h hcol
  · exact Bool.false_ne_true (h.symm.trans hexp)
  · exact h hst

section
variable (hrun : s.close.collect ≠ none) (hcol : s.close.state = .collecting)
include hrun hcol

theorem State.collectEnds_forced (hforced : s.close.forced = true) : s.collectEnds
    = (s.onClose fun c => { c with rows := c.rows.map CloseRow.miss }).closeDone :=
  (if_pos ⟨Option.isSome_iff_ne_none.2 hrun, hcol⟩).trans (if_pos hforced)

theorem State.collectEnds_unforced (hforced : s.close.forced = false) : s.collectEnds
    = (s.onClose fun c => { c with rows := c.rows.map CloseRow.fail }).abandonClose :=
  (if_pos ⟨Option.isSome_iff_ne_none.2 hrun, hcol⟩).trans (if_neg (by rw [hforced]; exact Bool.false_ne_true))

end

theorem State.collectEnds_ignored (h : s.close.collect = none ∨ s.close.state ≠ .collecting) : s.collectEnds = s := by
  refine if_neg fun ⟨hrun, hcol⟩ => ?_
  obtain h | h := h
  · exact Option.isSome_iff_ne_none.1 hrun h
  · exact h hcol

end

end Sys2Proof.Machine
end

section
/-! PROOFS. Late summaries at station 0, and the statement about what it collects (O53). -/
namespace Sys2Proof.Machine
open Sys2Proof

/-! ### A part of a late summary (R167) -/

section
variable {p : SummaryPart} {l : LateSummary} {n : Nat}

/-- A late summary as its part 0 starts it. -/
def LateSummary.begun (n : Nat) (p : SummaryPart) : LateSummary :=
  { number := n, parts := ⟨some p, none, none, none⟩, complete := false, reported := false }

/-- A late summary with a further part. -/
def LateSummary.joined (l : LateSummary) (p : SummaryPart) : LateSummary :=
  { l with parts := l.parts.set (partPlace p) (some p) }

theorem lateStore_complete (hl : l.complete = true) : lateStore (some l) p = some l := if_pos hl

theorem lateStore_begins {late : Option LateSummary} (hp : partNumber p = some n)
    (h : late = none ∨ ∃ l, late = some l ∧ l.complete = false ∧ l.number ≠ n) :
    lateStore late p = some (.begun n p) := by
  unfold lateStore
  obtain rfl | ⟨l, rfl, hopen, hn⟩ := h
  · dsimp only
    rw [hp]
    rfl
  · dsimp only
    rw [hopen, hp]
    exact if_neg (Ne.symm hn)

theorem lateStore_nothing (hp : partNumber p = none) : lateStore none p = none := by
  unfold lateStore
  dsimp only
  rw [hp]
  rfl

theorem lateStore_joins (hopen : l.complete = false) (hp : partNumber p = none ∨ partNumber p = some l.number) :
    lateStore (some l) p = some (l.joined p) := by
  refine (if_neg (Bool.eq_false_iff.1 hopen)).trans ?_
  cases p with
  | part0 n =>
    have hn : n = l.number := hp.elim (fun h => nomatch h) fun h => Option.some.inj h
    exact if_pos hn
  | _ => rfl

end

section
variable {s : State} {a : Addr} {p : SummaryPart} {l : LateSummary}

/-- The close table with this late summary in the row of `a` (R167). -/
def Close.rowsLate (c : Close) (a : Addr) (late : Option LateSummary) : Quad CloseRow :=
  c.rows.set a { c.rows.get a with late := late }

theorem State.takeLatePart_nothing (h : lateStore (s.close.rows.get a).late p = none) : s.takeLatePart a p = s := by
  unfold State.takeLatePart
  dsimp only
  rw [h]

theorem State.takeLatePart_kept (h : lateStore (s.close.rows.get a).late p = some l)
    (hopen : l.complete = true ∨ ∃ i, l.parts.get i = none) :
    s.takeLatePart a p = s.onClose fun c => { c with rows := c.rowsLate a (some l) } := by
  unfold State.takeLatePart
  dsimp only
  rw [h]
  refine if_neg fun ⟨hno, hall⟩ => ?_
  obtain hc | ⟨i, hi⟩ := hopen
  · rw [hc] at hno
    cases hno
  · have hsome := (allParts_iff _).1 hall i
    rw [hi] at hsome
    cases hsome

theorem State.takeLatePart_completes (h : lateStore (s.close.rows.get a).late p = some l) (hopen : l.complete = false)
    (hall : ∀ i, l.parts.get i ≠ none) : s.takeLatePart a p = (s.onClose fun c => { c with rows := c.rowsLate a (some { l with
        complete := true, reported := s.close.reported a l.number }) }).offerSlip a := by
  unfold State.takeLatePart
  dsimp only
  rw [h]
  refine if_pos ⟨?_, (allParts_iff _).2 fun i => Option.isSome_iff_ne_none.2 (hall i)⟩
  rw [hopen]
  rfl

theorem Close.reported_eq (c : Close) (a : Addr) (n : Nat) : c.reported a n
    = decide (c.state = .done ∧ c.number = n ∧ (c.rows.get a).st = .complete) := by
  unfold Close.reported
  rw [Bool.eq_iff_iff, decide_eq_true_iff]
  simp only [Bool.and_eq_true, beq_iff_eq, and_assoc]

theorem State.offerSlip_room (h : s.print.jobs.length < 4) : s.offerSlip a = { s with
    close := { s.close with slipsHeld := s.close.slipsHeld.erase a }
    print := { s.print with jobs := s.print.jobs ++ [.lateSlip a] } } :=
  if_neg fun hfull => absurd ((Print.full_iff _).1 hfull) (Nat.not_le.2 h)

theorem State.offerSlip_full (h : 4 ≤ s.print.jobs.length) : ∃ slips, s.offerSlip a
    = { s with close := { s.close with slipsHeld := slips } } ∧ a ∈ slips := by
  refine ⟨_, if_pos ((Print.full_iff _).2 h), ?_⟩
  split
  · next hmem => exact List.contains_iff_mem.1 hmem
  · exact List.mem_append_right _ List.mem_cons_self

/-- Writing back the row that stands changes nothing. -/
theorem Quad.set_get_self {α : Type} (q : Quad α) (a : Addr) : q.set a (q.get a) = q := by
  match a with
  | 0 => rfl
  | 1 => rfl
  | 2 => rfl
  | 3 => rfl

end

/-! ### The statement -/

section
variable {s : State} {a : Addr} {p : SummaryPart} (hr : s.supply.running = true) (h0 : s.addr = 0) (hs : s.HearsFrom a)
include hr h0 hs

/-- A part of a summary that its row takes (R162). -/
theorem shiftSummary_stored (hq : s.Quiet) {rows : Quad CloseRow} (hcol : s.close.state = .collecting)
    (hexp : (s.close.rows.get a).expected = true)
    (hst : (s.close.rows.get a).st = .waiting ∨ (s.close.rows.get a).st = .incomplete)
    (hno : ∀ n, partNumber p = some n → n = s.close.number)
    (hrows : rows = s.close.rows.set a ((s.close.rows.get a).store p)) :
    (¬ ({ s.close with rows := rows } : Close).AllSettled → ∃ t, exec (.shiftSummary a p) s = .next t
        ∧ ({ s with close := { s.close with rows := rows } } : State).Kept t)
      ∧ (({ s.close with rows := rows } : Close).AllSettled → ∃ t, exec (.shiftSummary a p) s = .next t
        ∧ s.ClosedInDone t rows) := by
  subst hrows
  have hstored := State.takeSummary_stored (s := s.heardFrame) (p := p) hcol (CloseRow.takes_expected hexp hst) hno
  refine ⟨fun hwait => ?_, fun hall => ?_⟩
  · exact consoleFrame_kept (f := fun u => u.takeSummary a p) hr hs h0 (hstored.trans (State.completionTest_waits hwait))
  · refine ⟨_, consoleFrame_next (f := fun u => u.takeSummary a p) hr hs h0
      (hstored.trans (State.completionTest_done hcol hall)), ?_⟩
    exact State.closeDone_ends (s := s.heardFrame.onClose fun c =>
      { c with rows := s.close.rows.set a ((s.close.rows.get a).store p) }) hq.2

/-- A late part after which its summary stands without a slip (R167). -/
theorem lateSummaryPart_kept {l : LateSummary} (h : lateStore (s.close.rows.get a).late p = some l)
    (hopen : l.complete = true ∨ ∃ i, l.parts.get i = none) : ∃ t, exec (.lateSummaryPart a p) s = .next t
      ∧ ({ s with close := { s.close with rows := s.close.rowsLate a (some l) } } : State).Kept t :=
  consoleFrame_kept (f := fun u => u.takeLatePart a p) hr hs h0 (State.takeLatePart_kept (s := s.heardFrame) h hopen)

/-- A late part that completes its summary: a slip is made a job, or held while four jobs wait (R167, R180). -/
theorem lateSummaryPart_completes {l : LateSummary} {rows : Quad CloseRow}
    (h : lateStore (s.close.rows.get a).late p = some l) (hopen : l.complete = false) (hall : ∀ i, l.parts.get i ≠ none)
    (hrows : rows = s.close.rowsLate a (some { l with complete := true, reported := s.close.reported a l.number })) :
    (s.print.jobs.length < 4 → ∃ t, exec (.lateSummaryPart a p) s = .next t
        ∧ ({ s with close := { s.close with rows := rows, slipsHeld := s.close.slipsHeld.erase a }
                    print := { s.print with jobs := s.print.jobs ++ [.lateSlip a] } } : State).Kept t)
      ∧ (4 ≤ s.print.jobs.length → ∃ t, exec (.lateSummaryPart a p) s = .next t ∧ t.close.rows = rows
        ∧ a ∈ t.close.slipsHeld ∧ t.print.jobs = s.print.jobs) := by
  subst hrows
  have htaken := State.takeLatePart_completes (s := s.heardFrame) h hopen hall
  refine ⟨fun hroom => ?_, fun hfull => ?_⟩
  · exact consoleFrame_kept (f := fun u => u.takeLatePart a p) hr hs h0 (htaken.trans (State.offerSlip_room hroom))
  · obtain ⟨slips, hslip, hmem⟩ := State.offerSlip_full (a := a) (s := s.heardFrame.onClose fun c => { c with
      rows := c.rowsLate a (some { l with complete := true, reported := s.close.reported a l.number }) }) hfull
    refine ⟨_, consoleFrame_next (f := fun u => u.takeLatePart a p) hr hs h0 (htaken.trans hslip), ?_⟩
    rw [(State.settleEvent_kept _).close, (State.settleEvent_kept _).jobs]
    exact ⟨rfl, hmem, rfl⟩

end

/-- Settles O53. -/
theorem closeTableAndLateSummariesAreCollected : Obligations.CloseTableAndLateSummariesAreCollected := by
  refine ⟨fun s hr hq => ⟨fun h0 a p reason n c hs hc => ?_, fun h0 => ?_⟩, ?_⟩
  · obtain rfl | rfl | rfl := hc
    · exact (exec_shiftSummary s a p).trans (seatFrame_ignored hr hs h0 hq)
    · exact (exec_lateSummaryPart s a p).trans (seatFrame_ignored hr hs h0 hq)
    · exact (exec_shiftRefuse s a reason n).trans (seatFrame_ignored hr hs h0 hq)
  · refine ⟨?_, fun a p hs hno => ?_, fun a reason n hs hcol hexp hst => ⟨fun hforced => ?_, fun hforced => ?_⟩,
      fun a reason n hs hno => ?_,
      fun hrun hcol => ⟨fun hforced => ⟨_, event_next hr, ?_⟩, fun hforced => ⟨_, event_next hr, ?_⟩⟩, fun hno => ?_⟩
    · rintro a p r r' rows hs rfl hcol hexp hst hno hr' hrows
      rw [← CloseRow.store_eq] at hr'
      exact shiftSummary_stored hr h0 hs hq hcol hexp hst hno (hr' ▸ hrows)
    · rw [exec_shiftSummary]
      refine consoleFrame_ignored hr hs h0 hq (State.takeSummary_ignored (s := s.heardFrame) ?_)
      obtain h | h | h | h | h := hno
      · exact Or.inl h
      · exact Or.inr (Or.inl (CloseRow.takes_not (Or.inl h)))
      · exact Or.inr (Or.inl (CloseRow.takes_not (Or.inr (Or.inl h))))
      · exact Or.inr (Or.inl (CloseRow.takes_not (Or.inr (Or.inr h))))
      · exact Or.inr (Or.inr h)
    · rw [exec_shiftRefuse]
      exact consoleFrame_kept hr hs h0 (State.takeRefuse_forced (s := s.heardFrame) hcol hexp hst hforced)
    · rw [exec_shiftRefuse]
      refine ⟨_, consoleFrame_next hr hs h0 (State.takeRefuse_unforced (s := s.heardFrame) hcol hexp hst hforced), ?_⟩
      exact State.abandonClose_ends (s := s.heardFrame.onClose fun c => { c with rows := c.rowsWith a (.refused reason) }) hq.2
    · rw [exec_shiftRefuse]
      exact consoleFrame_ignored hr hs h0 hq (State.takeRefuse_ignored (s := s.heardFrame) hno)
    · rw [State.collectEnds_unforced hrun hcol hforced]
      exact State.abandonClose_ends (s := s.onClose fun c => { c with rows := c.rows.map CloseRow.fail }) hq.2
    · rw [State.collectEnds_forced hrun hcol hforced]
      exact State.closeDone_ends (s := s.onClose fun c => { c with rows := c.rows.map CloseRow.miss }) hq.2
    · rw [exec_collectTimeExpiry]
      exact event_quiet hr (State.collectEnds_ignored hno) hq
  · rintro a p s hr h0 hs row rfl
    refine ⟨fun n hlate hp => ?_, fun hlate hp => ?_, ?_, fun l hlate hl => ?_⟩
    · exact lateSummaryPart_kept hr h0 hs (lateStore_begins hp hlate) (Or.inr ⟨1, rfl⟩)
    · rw [exec_lateSummaryPart]
      refine consoleFrame_kept hr hs h0 (State.takeLatePart_nothing (s := s.heardFrame) ?_)
      rw [← lateStore_nothing hp]
      exact congrArg (fun late => lateStore late p) hlate
    · rintro l parts hlate hopen hp rfl
      have hstore : lateStore (s.close.rows.get a).late p = some (l.joined p) := by rw [hlate, lateStore_joins hopen hp]
      refine ⟨fun hgap => lateSummaryPart_kept hr h0 hs hstore (Or.inr hgap), fun hall rows hrows => ?_⟩
      rw [← Close.reported_eq] at hrows
      exact lateSummaryPart_completes hr h0 hs hstore hopen hall hrows
    · have hstore : lateStore (s.close.rows.get a).late p = some l := by rw [hlate, lateStore_complete hl]
      have hsame : s.close.rowsLate a (some l) = s.close.rows := by
        unfold Close.rowsLate
        rw [← hlate]
        exact s.close.rows.set_get_self a
      have hkept := lateSummaryPart_kept hr h0 hs hstore (Or.inl hl)
      rw [hsame] at hkept
      exact hkept

end Sys2Proof.Machine
end

section
/-! PROOFS. The transfer of a record, at both of its ends (O58). -/
namespace Sys2Proof.Machine
open Sys2Proof

section
variable (s : State)

theorem exec_recordQuery (a target : Addr) (no first : Nat) : exec (.recordQuery a no target first) s
    = frameEvent a (fun u => u.fromConsole a fun u =>
      if target = u.addr ∧ !u.silent then u.serveRecord no first else u) s := rfl

theorem exec_recordPart (a : Addr) (k m no : Nat) (data : List Byte) : exec (.recordPart a k m no data) s
    = frameEvent a (fun u => u.atConsole fun u => u.takeRecordPart a k m no data) s := rfl

theorem exec_partLimitExpiry : exec .partLimitExpiry s = event State.partLimit s := rfl

end

/-! ### The parts of a record (R199) -/

theorem chunks_length_le {α : Type} (n fuel : Nat) (xs : List α) : (chunks n fuel xs).length ≤ fuel := by
  induction fuel generalizing xs with
  | zero => exact Nat.le_refl 0
  | succ fuel ih =>
    unfold chunks
    split
    · exact Nat.zero_le _
    · exact Nat.succ_le_succ (ih _)

theorem chunks_length_pos {α : Type} (n fuel : Nat) {xs : List α} (h : xs ≠ []) : 0 < (chunks n (fuel + 1) xs).length := by
  rw [chunks, if_neg (by simpa using h)]
  exact Nat.succ_pos _

theorem length_of_mem_chunks {α : Type} {n : Nat} (hn : 0 < n) (fuel : Nat) {xs p : List α} (h : p ∈ chunks n fuel xs) :
    1 ≤ p.length ∧ p.length ≤ n := by
  induction fuel generalizing xs with
  | zero => cases h
  | succ fuel ih =>
    unfold chunks at h
    split at h
    · cases h
    · next hxs =>
      obtain rfl | h := List.mem_cons.1 h
      · have hpos : 0 < xs.length := List.length_pos_iff.2 (by simpa using hxs)
        rw [List.length_take]
        omega
      · exact ih h

/-- The status byte stands in every record form. -/
theorem HireRecord.form_ne_nil (r : HireRecord) : r.form ≠ [] := by
  unfold HireRecord.form
  simp [List.take_eq_nil_iff]

/-! ### The answering seat (R186) -/

section
variable {s : State}

/-- The transmission of a record's parts, begun at the queried first one; without a record it holds no part. -/
def State.serving (s : State) (no first : Nat) : Serve :=
  match s.logRecord no with
  | some r => { hireNo := r.no, parts := r.parts, k := if first < r.parts.length then first else 0
                held := false, gen := s.print.gen }
  | none => { hireNo := no, parts := [], k := 0, held := false, gen := s.print.gen }

theorem State.serveRecord_eq (no first : Nat) : s.serveRecord no first
    = (s.onPrint fun p => { p with serve := some (s.serving no first), gen := p.gen + 1 }).offer .recordPart := rfl

theorem State.serving_record {no : Nat} {r : HireRecord} (h : s.logRecord no = some r) (first : Nat) :
    s.serving no first = { hireNo := r.no, parts := r.parts, k := if first < r.parts.length then first else 0
                           held := false, gen := s.print.gen } := by
  unfold State.serving
  rw [h]

theorem State.serving_none {no : Nat} (h : s.logRecord no = none) (first : Nat) :
    s.serving no first = { hireNo := no, parts := [], k := 0, held := false, gen := s.print.gen } := by
  unfold State.serving
  rw [h]

/-- The end of an event in which a part is offered, also the one with m = 0 that tells of no record: the transmission stands, and its
part is queued or held. -/
theorem State.settleEvent_servedPart (hq : s.Quiet) {sv : Serve} (hsv : s.print.serve = some sv) :
    ∃ held, (s.offer .recordPart).settleEvent.print.serve = some (sv.holding held)
      ∧ (s.offer .recordPart).settleEvent.Offered (held = true) 7
        (encRecordPart sv.k sv.parts.length sv.hireNo (sv.parts.getD sv.k [])) := by
  have hoff : s.offered .recordPart
      = some (encRecordPart sv.k sv.parts.length sv.hireNo (sv.parts.getD sv.k []), .recordPart sv.gen sv.k) :=
    congrArg (Option.map _) hsv
  unfold State.Offered
  rw [State.settleEvent_offer hq, (State.signUpdate_blocks _).2.2.2.2.2.1, (State.signUpdate_blocks _).2.1]
  obtain ⟨l, ht, hl⟩ | ht := State.tryOffer_new hoff rfl <;> rw [ht]
  · exact ⟨false, congrArg (Option.map (Serve.holding false)) hsv, Or.inr hl⟩
  · exact ⟨true, congrArg (Option.map (Serve.holding true)) hsv, Or.inl rfl⟩

/-- A query for this seat is answered: the transmission stands, and its part is queued or held. -/
theorem recordQuery_served (hr : s.supply.running = true) (h0 : s.addr ≠ 0) (hs : s.HearsFrom 0) (hq : s.Quiet)
    (hawake : s.silent = false) (no first : Nat) {sv : Serve} (hsv : s.serving no first = sv) :
    ∃ t held, exec (.recordQuery 0 no s.addr first) s = .next t ∧ t.print.serve = some (sv.holding held)
      ∧ t.Offered (held = true) 7 (encRecordPart sv.k sv.parts.length sv.hireNo (sv.parts.getD sv.k [])) := by
  have htaken : (if s.addr = s.heardFrame.addr ∧ !s.heardFrame.silent then s.heardFrame.serveRecord no first else s.heardFrame)
      = s.heardFrame.serveRecord no first := if_pos ⟨rfl, by rw [show s.heardFrame.silent = false from hawake]; rfl⟩
  obtain ⟨held, hheld, hoffered⟩ := State.settleEvent_servedPart (sv := sv)
    (s := s.heardFrame.onPrint fun p => { p with serve := some (s.heardFrame.serving no first), gen := p.gen + 1 })
    (hq.of_same rfl rfl rfl rfl) (congrArg some hsv)
  refine ⟨_, held, ?_, hheld, hoffered⟩
  rw [exec_recordQuery]
  exact seatFrame_next hr h0 hs (htaken.trans (State.serveRecord_eq no first))

/-- A query that is not for this station is only heard. -/
theorem recordQuery_ignored {a target : Addr} (hr : s.supply.running = true) (hs : s.HearsFrom a) (hq : s.Quiet)
    (h : a ≠ 0 ∨ s.addr = 0 ∨ target ≠ s.addr ∨ s.silent = true) (no first : Nat) :
    exec (.recordQuery a no target first) s = .next s.onlyHeard := by
  rw [exec_recordQuery]
  refine (frameEvent_ignored hr hs ?_).2 hq
  by_cases hseat : a = 0 ∧ s.addr ≠ 0
  · obtain ⟨rfl, h0⟩ := hseat
    rw [State.fromConsole_seat (s := s.heardFrame) _ h0]
    refine if_neg fun ⟨htarget, hawake⟩ => ?_
    obtain h | h | h | h := h
    · exact h rfl
    · exact h0 h
    · exact h htarget
    · rw [show s.heardFrame.silent = true from h] at hawake
      cases hawake
  · refine if_neg fun ⟨ha, hc⟩ => hseat ⟨ha, fun h0 => ?_⟩
    rw [s.heardFrame.isConsole_iff.2 h0] at hc
    cases hc

end

/-! ### The query of station 0 (R185) -/

def Transfer.holding (held : Bool) (tr : Transfer) : Transfer := { tr with queryHeld := held }

/-- The transfer with a query from the lowest missing part, under way as this transmission. -/
def Transfer.asking (tr : Transfer) (gen : Nat) : Transfer :=
  { tr with requery := tr.requery + 1, first := tr.missing, suspended := some tr.missing, queryHeld := false, gen := gen }

/-- The transfer that has ended. -/
def Transfer.ended (tr : Transfer) (st : TransferState) : Transfer := { tr with st := st, limit := none, queryHeld := false }

section
variable {s : State} {tr : Transfer}

/-- The end of an event in which station 0 asks: the transfer stands, and its query is queued or held. -/
theorem State.settleEvent_recordQuery (hq : s.Quiet) (htr : s.print.transfer = some tr) :
    ∃ held, (s.offer .recordQuery).settleEvent.print = { s.print with transfer := some (tr.holding held) }
      ∧ (s.offer .recordQuery).settleEvent.Offered (held = true) 7 (encRecordQuery tr.hireNo tr.target tr.first) := by
  have hoff : s.offered .recordQuery = some (encRecordQuery tr.hireNo tr.target tr.first, .recordQuery tr.gen) :=
    congrArg (Option.map _) htr
  have hheld : ∀ held, s.print.transfer.map (Transfer.holding held) = some (tr.holding held) := fun held =>
    congrArg (Option.map _) htr
  unfold State.Offered
  rw [State.settleEvent_offer hq, (State.signUpdate_blocks _).2.2.2.2.2.1, (State.signUpdate_blocks _).2.1]
  obtain ⟨l, ht, hl⟩ | ht := State.tryOffer_new hoff rfl <;> rw [ht]
  · exact ⟨false, congrArg (fun x => { s.print with transfer := x }) (hheld false), Or.inr hl⟩
  · exact ⟨true, congrArg (fun x => { s.print with transfer := x }) (hheld true), Or.inl rfl⟩

theorem State.Quiet.settleEvent_print (hq : s.Quiet) : s.settleEvent.print = s.print := by
  rw [State.settleEvent_quiet hq, (State.signUpdate_blocks s).2.2.2.2.2.1]

theorem State.endTransfer_open (htr : s.print.transfer = some tr) (st : TransferState) :
    s.endTransfer st = s.onPrint fun p => { p with transfer := some (tr.ended st) } := by
  have hended : s.print.transfer.map (fun t => t.ended st) = some (tr.ended st) := congrArg (Option.map _) htr
  exact congrArg (fun x => s.onPrint fun p => { p with transfer := x }) hended

theorem State.requery_asks (h : tr.requery < 2) : s.requery tr
    = (s.onPrint fun p => { p with transfer := some (tr.asking s.print.gen), gen := p.gen + 1 }).offer .recordQuery :=
  if_pos h

theorem State.requery_gives_up (h : 2 ≤ tr.requery) : s.requery tr = s.endTransfer .unavailable := if_neg (Nat.not_lt.2 h)

/-- After a re-query the transfer asks from its lowest missing part, and the query is queued or held. -/
theorem State.settleEvent_asking (hq : s.Quiet) (h : tr.requery < 2) : ∃ held,
    (s.requery tr).settleEvent.print.transfer = some ((tr.asking s.print.gen).holding held)
      ∧ (s.requery tr).settleEvent.Offered (held = true) 7 (encRecordQuery tr.hireNo tr.target tr.missing) := by
  obtain ⟨held, hprint, hoffered⟩ := State.settleEvent_recordQuery (tr := tr.asking s.print.gen)
    (s := s.onPrint fun p => { p with transfer := some (tr.asking s.print.gen), gen := p.gen + 1 }) (hq.onPrint _) rfl
  rw [State.requery_asks h]
  exact ⟨held, congrArg Print.transfer hprint, hoffered⟩

end

/-! ### A part that the open transfer takes (R185) -/

section
variable {s : State} {tr : Transfer} {k m no : Nat} {data : List Byte}

theorem Transfer.full_iff {m : Nat} : tr.full m = true ↔ ∀ p ∈ tr.parts.take m, p ≠ none := by
  simp [Transfer.full, Option.isSome_iff_ne_none]

theorem State.takePart_none : s.takePart tr k 0 no data = s.endTransfer .unavailable := if_pos rfl

theorem State.takePart_outside (h1 : 1 ≤ m) (h : m ≤ k ∨ 6 < m) : s.takePart tr k m no data = s := by
  unfold State.takePart
  rw [if_neg (by omega), if_pos h]

theorem State.takePart_otherCount (hk : k < m) (hm : m ≤ 6) {m' : Nat} (hcount : tr.m = some m') (hother : m' ≠ m) :
    s.takePart tr k m no data = s.endTransfer .unavailable := by
  unfold State.takePart
  rw [if_neg (by omega), if_neg (by omega), if_pos (by simp [hcount, hother])]

section
variable (hk : k < m) (hm : m ≤ 6) (hcount : tr.m = none ∨ tr.m = some m) {tr' : Transfer} (hstore : tr.store k m no data = tr')
include hk hm hcount hstore

/-- A part with a count that fits is stored, and the transfer is complete, asks again at a gap, or goes on. -/
theorem State.takePart_stored : s.takePart tr k m no data =
    if tr'.full m then (s.onPrint fun p => { p with transfer := some tr' }).endTransfer .complete
    else if tr'.suspended.isNone ∧ tr'.missing < k then (s.onPrint fun p => { p with transfer := some tr' }).requery tr'
    else s.onPrint fun p => { p with transfer := some tr' } := by
  subst hstore
  unfold State.takePart
  rw [if_neg (by omega), if_neg (by omega), if_neg]
  rintro ⟨hsome, hother⟩
  obtain hnone | hsame := hcount
  · rw [hnone] at hsome
    cases hsome
  · exact hother hsame

theorem State.takePart_completes (hall : ∀ p ∈ tr'.parts.take m, p ≠ none) : s.takePart tr k m no data
    = s.onPrint fun p => { p with transfer := some (tr'.ended .complete) } := by
  rw [State.takePart_stored hk hm hcount hstore, if_pos (Transfer.full_iff.2 hall), State.endTransfer_open rfl]
  rfl

theorem State.takePart_goes_on (hgap : ∃ p ∈ tr'.parts.take m, p = none) (h : tr'.suspended ≠ none ∨ k ≤ tr'.missing) :
    s.takePart tr k m no data = s.onPrint fun p => { p with transfer := some tr' } := by
  obtain ⟨p, hp, hnone⟩ := hgap
  rw [State.takePart_stored hk hm hcount hstore, if_neg fun hfull => Transfer.full_iff.1 hfull p hp hnone, if_neg]
  rintro ⟨hready, hlow⟩
  exact h.elim (fun hs => hs (Option.isNone_iff_eq_none.1 hready)) (Nat.not_le.2 hlow)

theorem State.takePart_asks_again (hgap : ∃ p ∈ tr'.parts.take m, p = none) (hready : tr'.suspended = none)
    (hlow : tr'.missing < k) :
    s.takePart tr k m no data = (s.onPrint fun p => { p with transfer := some tr' }).requery tr' := by
  obtain ⟨p, hp, hnone⟩ := hgap
  rw [State.takePart_stored hk hm hcount hstore, if_neg fun hfull => Transfer.full_iff.1 hfull p hp hnone,
    if_pos ⟨Option.isNone_iff_eq_none.2 hready, hlow⟩]

end

theorem State.takeRecordPart_opened (htr : s.print.transfer = some tr) (hst : tr.st = .opened)
    (hno : tr.hireNo = no ∨ (tr.hireNo = 0 ∧ tr.m = none)) :
    s.takeRecordPart tr.target k m no data = s.takePart tr k m no data := by
  unfold State.takeRecordPart
  rw [htr]
  dsimp only
  rw [if_pos ⟨rfl, hno.imp_right fun ⟨h0, hm⟩ => ⟨h0, Option.isNone_iff_eq_none.2 hm⟩⟩, hst]

section
variable (hr : s.supply.running = true) (h0 : s.addr = 0) (hq : s.Quiet) (htr : s.print.transfer = some tr)
  (hst : tr.st = .opened) (hs : s.HearsFrom tr.target) (hno : tr.hireNo = no ∨ (tr.hireNo = 0 ∧ tr.m = none))
include hr h0 htr hst hs hno

theorem recordPart_next {u : State} (hu : s.heardFrame.takePart tr k m no data = u) :
    exec (.recordPart tr.target k m no data) s = .next u.settleEvent := by
  rw [exec_recordPart]
  exact consoleFrame_next hr hs h0 ((State.takeRecordPart_opened (s := s.heardFrame) htr hst hno).trans hu)

include hq

/-- A part that leads to no new query: the print unit is what the transfer makes of it. -/
theorem recordPart_print {pr : Print} (hpart : s.heardFrame.takePart tr k m no data = s.heardFrame.onPrint fun _ => pr) :
    ∃ t, exec (.recordPart tr.target k m no data) s = .next t ∧ t.print = pr :=
  ⟨_, recordPart_next hr h0 htr hst hs hno hpart, State.Quiet.settleEvent_print (hq.of_same rfl rfl rfl rfl)⟩

/-- A part that makes a gap known: the query goes out from the lowest missing part (R185). -/
theorem recordPart_asks {tr' : Transfer} (hfew : tr'.requery < 2)
    (hpart : s.heardFrame.takePart tr k m no data = (s.heardFrame.onPrint fun p => { p with transfer := some tr' }).requery tr') :
    ∃ t held, exec (.recordPart tr.target k m no data) s = .next t
      ∧ t.print.transfer = some ((tr'.asking s.print.gen).holding held)
      ∧ t.Offered (held = true) 7 (encRecordQuery tr'.hireNo tr'.target tr'.missing) := by
  obtain ⟨held, htransfer, hoffered⟩ := State.settleEvent_asking (tr := tr')
    (s := s.heardFrame.onPrint fun p => { p with transfer := some tr' }) (hq.of_same rfl rfl rfl rfl) hfew
  exact ⟨_, held, recordPart_next hr h0 htr hst hs hno hpart, htransfer, hoffered⟩

end

/-! ### The part limit (R185) -/

theorem State.partLimit_runs (htr : s.print.transfer = some tr) (hst : tr.st = .opened) (hlimit : tr.limit ≠ none) :
    s.partLimit = s.requery { tr with limit := none } := by
  unfold State.partLimit
  rw [htr]
  exact if_pos ⟨hst, Option.isSome_iff_ne_none.2 hlimit⟩

theorem State.partLimit_off (htr : s.print.transfer = some tr) (hlimit : tr.limit = none) : s.partLimit = s := by
  unfold State.partLimit
  rw [htr]
  exact if_neg fun ⟨_, h⟩ => by rw [hlimit] at h; cases h

end

/-! ### The statement -/

/-- Settles O58. -/
theorem recordTransferAsksAndAnswers : Obligations.RecordTransferAsksAndAnswers := by
  refine ⟨fun r => ⟨chunks_length_pos 9 5 r.form_ne_nil, chunks_length_le 9 6 r.form, fun p hp =>
    length_of_mem_chunks (by decide) 6 hp⟩, fun sender target no first s hr hs hq => ⟨?_, fun h =>
      recordQuery_ignored hr hs hq h no first⟩, ?_⟩
  · rintro rfl h0 rfl hawake found rfl
    refine ⟨fun r k p hfound hk hp => ?_, fun hnone => ?_⟩
    · have hserving := State.serving_record hfound first
      rw [← hk] at hserving
      obtain ⟨t, held, hexec, hserve, hoffered⟩ := recordQuery_served hr h0 hs hq hawake no first hserving
      dsimp only [Serve.holding] at hserve hoffered
      refine ⟨t, held, hexec, hserve, ?_⟩
      rwa [List.getD_eq_getElem?_getD, hp] at hoffered
    · exact recordQuery_served hr h0 hs hq hawake no first (State.serving_none hnone first)
  · rintro s hr h0 hq tr htr hst ended rfl lowest rfl
    refine ⟨?_, fun hlimit hfew => ?_, fun hlimit hmany => ?_, fun hlimit => ?_⟩
    · intro k m no data hs hno stored hstored
      have hstore : tr.store k m no data = stored := hstored.symm
      obtain ⟨hsame_requery, hsame_no, hsame_target⟩ :
          stored.requery = tr.requery ∧ stored.hireNo = no ∧ stored.target = tr.target := by
        rw [hstored]
        exact ⟨rfl, rfl, rfl⟩
      have hends := State.endTransfer_open (s := s.heardFrame) htr .unavailable
      refine ⟨fun hm => ?_, fun h1 hout => ?_, fun h1 hk hm ⟨m', hcount, hother⟩ => ?_, fun hk hm hcount =>
        ⟨fun hall => ?_, fun hgap hwait => ?_, fun hgap hready hlow hfew => ?_, fun hgap hready hlow hmany => ?_⟩⟩
      · subst hm
        exact recordPart_print hr h0 hq htr hst hs hno (State.takePart_none.trans hends)
      · exact recordPart_print hr h0 hq htr hst hs hno (State.takePart_outside h1 hout)
      · exact recordPart_print hr h0 hq htr hst hs hno ((State.takePart_otherCount hk hm hcount hother).trans hends)
      · exact recordPart_print hr h0 hq htr hst hs hno (State.takePart_completes hk hm hcount hstore hall)
      · exact recordPart_print hr h0 hq htr hst hs hno (State.takePart_goes_on hk hm hcount hstore hgap hwait)
      · obtain ⟨t, held, hexec, htransfer, hoffered⟩ := recordPart_asks hr h0 hq htr hst hs hno (hsame_requery ▸ hfew)
          (State.takePart_asks_again hk hm hcount hstore hgap hready hlow)
        refine ⟨t, held, hexec, ?_, fun _ => ?_⟩
        · rw [htransfer, ← hsame_requery]
          rfl
        · rw [hsame_no, hsame_target] at hoffered
          exact hoffered
      · refine recordPart_print hr h0 hq htr hst hs hno
          ((State.takePart_asks_again hk hm hcount hstore hgap hready hlow).trans ?_)
        rw [State.requery_gives_up (hsame_requery ▸ hmany), State.endTransfer_open rfl]
        rfl
    · obtain ⟨held, htransfer, hoffered⟩ := State.settleEvent_asking (tr := { tr with limit := none }) hq hfew
      rw [← State.partLimit_runs htr hst hlimit] at htransfer hoffered
      exact ⟨_, held, event_next hr, htransfer, fun _ => hoffered⟩
    · rw [exec_partLimitExpiry]
      refine event_quiet hr ?_ (hq.of_same rfl rfl rfl rfl)
      rw [State.partLimit_runs htr hst hlimit, State.requery_gives_up (tr := { tr with limit := none }) hmany,
        State.endTransfer_open htr]
      rfl
    · rw [exec_partLimitExpiry]
      exact event_quiet hr (State.partLimit_off htr hlimit) hq

end Sys2Proof.Machine
end

section
/-! PROOFS. The keys of station 0, and the sequences they complete (O54). -/
namespace Sys2Proof.Machine
open Sys2Proof

section
variable (s : State)

theorem exec_keyPress (k : Key) : exec (.keyPress k) s = keyEvent (fun u => u.pressKey k) s := rfl

theorem exec_clear : exec .clear s = keyEvent State.takeClear s := rfl

theorem exec_select (d : Fin 10) : exec (.select d) s = sequenceEvent (fun k => k == .select) (fun u => u.selectDigit d) s := rfl

theorem exec_keySequenceTimeout : exec .keySequenceTimeout s = event (fun u =>
    if u.console.keyTimer.isSome then u.onConsole fun c => { c with keys := .idle, keyTimer := none } else u) s := rfl

theorem exec_commandSequence (cmd : Cmd) : exec (.commandSequence cmd) s
    = sequenceEvent (cmdSeq cmd) (fun u => if cmdKeyed cmd then u.formSelected cmd else u) s := rfl

theorem exec_lampTest : exec .lampTest s = sequenceEvent (isFunctionSeq 3) State.takeLampTest s := rfl

end

/-! ### What a key does in each state of the keys (Table 10-1) -/

/-- The console with a sequence open, its 10 s running (R171). -/
def Console.collecting (c : Console) (k : KeySeq) : Console := { c with keys := k, keyTimer := some 100000, message := none }

section
variable {s : State} {k : Key}

theorem State.collect_eq (seq : KeySeq) : s.collect seq = { s with console := s.console.collecting seq } := rfl

theorem State.ignoreKey_eq : s.ignoreKey = s.collect s.console.keys := rfl

theorem State.pressKey_seq (hk : k ≠ .clear) : s.pressKey k = s.seqKey k := if_neg hk

theorem State.seqKey_idle (h : s.console.keys = .idle) : s.seqKey k = s.idleKey k := by
  unfold State.seqKey
  rw [h]

theorem State.seqKey_select (h : s.console.keys = .select) (hk : ∀ d, k ≠ .digit d) : s.seqKey k = s.ignoreKey := by
  unfold State.seqKey
  rw [h]
  dsimp only
  split
  · exact absurd rfl (hk _)
  · rfl

theorem State.seqKey_hire {kind : Kind} {party : Option Nat} (h : s.console.keys = .hire kind party) :
    s.seqKey k = s.hireKey kind party k := by
  unfold State.seqKey
  rw [h]

theorem State.seqKey_extra {code : Option Nat} {ds : List Nat} (h : s.console.keys = .extra code ds) :
    s.seqKey k = s.extraKey code ds k := by
  unfold State.seqKey
  rw [h]

theorem State.seqKey_pay (h : s.console.keys = .pay) : s.seqKey k = s.payKey k := by
  unfold State.seqKey
  rw [h]

theorem State.payKey_other (hc : k ≠ .cancel) : s.payKey k = s.ignoreKey := by
  unfold State.payKey
  split
  · exact absurd rfl hc
  · rfl

theorem State.seqKey_cash {ds : List Nat} (h : s.console.keys = .cash ds) : s.seqKey k = s.cashKey ds k := by
  unfold State.seqKey
  rw [h]

theorem State.seqKey_account {ds : List Nat} (h : s.console.keys = .account ds) : s.seqKey k = s.accountKey ds k := by
  unfold State.seqKey
  rw [h]

theorem State.seqKey_print {ds : List Nat} (h : s.console.keys = .print ds) : s.seqKey k = s.printKey ds k := by
  unfold State.seqKey
  rw [h]

theorem State.seqKey_function {n : Option Nat} {ds : List Nat} (h : s.console.keys = .function n ds) :
    s.seqKey k = s.functionKey n ds k := by
  unfold State.seqKey
  rw [h]

end

/-! ### Digits -/

section
variable {d : Nat} {code : Option Nat} {ds : List Nat}

theorem extraDigit_code (h1 : 1 ≤ d) (h8 : d ≤ 8) : extraDigit none [] d = (some d, []) := by
  simp [extraDigit, h1, h8]

theorem extraDigit_noCode (h : d = 0 ∨ d = 9) : extraDigit none [] d = (none, [d]) := by
  obtain rfl | rfl := h <;> rfl

/-- Once a code or an amount digit stands, every digit is one of the amount (log entry 49). -/
theorem extraDigit_amount (h : code ≠ none ∨ ds ≠ []) :
    extraDigit code ds d = if ds.length < 6 then (code, ds ++ [d]) else (code, ds) := by
  have hfirst : ¬ (code.isNone && ds.isEmpty && decide (1 ≤ d) && decide (d ≤ 8)) = true := by
    intro hall
    simp only [Bool.and_eq_true, Option.isNone_iff_eq_none, List.isEmpty_iff] at hall
    exact h.elim (fun hc => hc hall.1.1.1) fun hds => hds hall.1.1.2
  unfold extraDigit
  rw [if_neg hfirst]

theorem isFunction_iff : isFunction d = true ↔ d ∈ [1, 2, 3, 4, 5, 8, 9] := List.contains_iff_mem

/-- The open sequence after a digit: with the digit collected, or as it was where the digit is ignored (R171). -/
def KeySeq.withDigit (q : KeySeq) (d : Nat) : KeySeq :=
  match q with
  | .hire kind none => .hire kind (some d)
  | .extra code ds => .extra (extraDigit code ds d).1 (extraDigit code ds d).2
  | .cash ds => if ds.length < 6 then .cash (ds ++ [d]) else .cash ds
  | .account ds => if ds.length < 8 then .account (ds ++ [d]) else .account ds
  | .print ds => if ds.length < 4 then .print (ds ++ [d]) else .print ds
  | .function none ds => if isFunction d then .function (some d) [] else .function none ds
  | .function (some f) ds => if ds.length < functionDigits f then .function (some f) (ds ++ [d]) else .function (some f) ds
  | q => q

/-- A digit in an open sequence but SELECT collects what stands after it. -/
theorem State.seqKey_digit {s : State} (hidle : s.console.keys ≠ .idle) (hselect : s.console.keys ≠ .select) (d : Fin 10) :
    s.seqKey (.digit d) = s.collect (s.console.keys.withDigit d.val) := by
  have hcollect : ∀ (p : Prop) [Decidable p] (seq seq' : KeySeq),
      (if p then s.collect seq else s.collect seq') = s.collect (if p then seq else seq') := fun p _ _ _ => (apply_ite s.collect p _ _).symm
  cases hkeys : s.console.keys with
  | idle => exact absurd hkeys hidle
  | select => exact absurd hkeys hselect
  | pay => rw [State.seqKey_pay hkeys, State.payKey_other Key.noConfusion, State.ignoreKey_eq, hkeys]; rfl
  | extra code ds => exact State.seqKey_extra hkeys
  | hire kind party =>
    rw [State.seqKey_hire hkeys]
    cases party with
    | none => rfl
    | some p => exact congrArg s.collect hkeys
  | cash ds =>
    rw [State.seqKey_cash hkeys, State.cashKey, State.ignoreKey_eq, hkeys, hcollect]
    rfl
  | account ds =>
    rw [State.seqKey_account hkeys, State.accountKey, State.ignoreKey_eq, hkeys, hcollect]
    rfl
  | print ds =>
    rw [State.seqKey_print hkeys, State.printKey, State.ignoreKey_eq, hkeys, hcollect]
    rfl
  | function n ds =>
    have hself : s.ignoreKey = s.collect (.function n ds) := congrArg s.collect hkeys
    rw [State.seqKey_function hkeys]
    unfold State.functionKey
    rw [hself]
    cases n with
    | none => exact hcollect (isFunction d.val = true) _ _
    | some f => exact hcollect (ds.length < functionDigits f) _ _

theorem KeySeq.withDigit_amount (h : code ≠ none ∨ ds ≠ []) (hlen : ds.length < 6) :
    (KeySeq.extra code ds).withDigit d = .extra code (ds ++ [d]) := by
  rw [KeySeq.withDigit, extraDigit_amount h, if_pos hlen]

theorem KeySeq.withDigit_amount_full (hlen : 6 ≤ ds.length) : (KeySeq.extra code ds).withDigit d = .extra code ds := by
  have hne : ds ≠ [] := by
    rintro rfl
    cases hlen
  rw [KeySeq.withDigit, extraDigit_amount (Or.inr hne), if_neg (Nat.not_lt.2 hlen)]

theorem KeySeq.withDigit_function (h : d ∈ [1, 2, 3, 4, 5, 8, 9]) :
    (KeySeq.function none ds).withDigit d = .function (some d) [] := if_pos (isFunction_iff.2 h)

theorem KeySeq.withDigit_noFunction (h : d ∉ [1, 2, 3, 4, 5, 8, 9]) :
    (KeySeq.function none ds).withDigit d = .function none ds := if_neg fun hf => h (isFunction_iff.1 hf)

theorem KeySeq.withDigit_functionDigit {f : Nat}
    (h : (f = 1 ∧ ds.length < 4) ∨ (f = 2 ∧ ds.length < 12) ∨ (f = 9 ∧ ds.length < 4)) :
    (KeySeq.function (some f) ds).withDigit d = .function (some f) (ds ++ [d]) := by
  obtain ⟨rfl, hlen⟩ | ⟨rfl, hlen⟩ | ⟨rfl, hlen⟩ := h <;> exact if_pos hlen

theorem KeySeq.withDigit_function_full {f : Nat}
    (h : f ∈ [3, 4, 5, 8] ∨ ((f = 1 ∨ f = 9) ∧ 4 ≤ ds.length) ∨ (f = 2 ∧ 12 ≤ ds.length)) :
    (KeySeq.function (some f) ds).withDigit d = .function (some f) ds := by
  have hfull : functionDigits f ≤ ds.length := by
    obtain hf | ⟨rfl | rfl, hlen⟩ | ⟨rfl, hlen⟩ := h
    · obtain rfl | rfl | rfl | rfl : f = 3 ∨ f = 4 ∨ f = 5 ∨ f = 8 := by simpa using hf
      all_goals exact Nat.zero_le _
    all_goals exact hlen
  exact if_neg (Nat.not_lt.2 hfull)

/-- The digits of a clock setting are its fields in order (R60). -/
theorem State.enterFunction_clock {s : State} {y mo dd h mi : List Nat} (hy : y.length = 4) (hmo : mo.length = 2)
    (hd : dd.length = 2) (hh : h.length = 2) (hmi : mi.length = 2) :
    s.enterFunction 2 (y ++ mo ++ dd ++ h ++ mi) = s.endKeys.takeClockSetting (digitsValue y) (digitsValue mo) (digitsValue dd)
      (digitsValue h) (digitsValue mi) := by
  have hlen : ¬ (y ++ mo ++ dd ++ h ++ mi).length < 12 := by simp [hy, hmo, hd, hh, hmi]
  refine (if_neg hlen).trans ?_
  simp [List.drop_append, List.drop_of_length_le, List.take_of_length_le, hy, hmo, hd, hh, hmi]

end

/-! ### Keys that a sequence does not allow -/

section
variable {s : State} {k : Key}

variable (hd : ∀ d, k ≠ .digit d) (he : k ≠ .enter)
include hd he

/-- The sequences that digits and ENTER go on with take no other key. -/
theorem State.digitSequences_other : (∀ kind party, s.hireKey kind party k = s.ignoreKey)
    ∧ (∀ code ds, s.extraKey code ds k = s.ignoreKey) ∧ (∀ ds, s.cashKey ds k = s.ignoreKey)
    ∧ (∀ ds, s.accountKey ds k = s.ignoreKey) ∧ (∀ ds, s.printKey ds k = s.ignoreKey)
    ∧ (∀ n ds, s.functionKey n ds k = s.ignoreKey) := by
  cases k with
  | digit d => exact absurd rfl (hd d)
  | enter => exact absurd rfl he
  | _ => exact ⟨fun _ _ => rfl, fun _ _ => rfl, fun _ => rfl, fun _ => rfl, fun _ => rfl, fun _ _ => rfl⟩

/-- A key that is neither a digit nor ENTER is ignored in every open sequence, but for CANCEL after PAY (R171). -/
theorem State.seqKey_other (hopen : s.console.keys ≠ .idle) (hpay : s.console.keys = .pay → k ≠ .cancel) :
    s.seqKey k = s.ignoreKey := by
  obtain ⟨hire, extra, cash, account, print, function⟩ := State.digitSequences_other (s := s) hd he
  cases hkeys : s.console.keys with
  | idle => exact absurd hkeys hopen
  | select => exact State.seqKey_select hkeys hd
  | hire kind party => exact (State.seqKey_hire hkeys).trans (hire kind party)
  | extra code ds => exact (State.seqKey_extra hkeys).trans (extra code ds)
  | pay => exact (State.seqKey_pay hkeys).trans (State.payKey_other (hpay hkeys))
  | cash ds => exact (State.seqKey_cash hkeys).trans (cash ds)
  | account ds => exact (State.seqKey_account hkeys).trans (account ds)
  | print ds => exact (State.seqKey_print hkeys).trans (print ds)
  | function n ds => exact (State.seqKey_function hkeys).trans (function n ds)

end

/-! ### How a key, and a completed sequence, is taken (R171, R179) -/

theorem keyEvent_low {f : State → State} {s : State} (hr : s.supply.running = true) (hq : s.Quiet) (hlow : s.supply.state = .low) :
    keyEvent f s = .next s.signUpdate := by
  refine event_quiet hr (if_neg ?_) hq
  rw [State.keysTaken, hlow]
  simp

section
variable {s : State} (h0 : s.addr = 0) (hlow : s.supply.state ≠ .low)
include h0 hlow

theorem keyEvent_taken (f : State → State) : keyEvent f s = event f s := by
  have htaken : s.keysTaken = true := by
    rw [State.keysTaken, s.isConsole_iff.2 h0]
    exact bne_iff_ne.2 hlow
  exact event_congr (if_pos htaken)

/-- A sequence is taken from the idle state, and from its own open sequence (log entry 17). -/
theorem sequenceEvent_taken {own : KeySeq → Bool} (hown : s.console.keys = .idle ∨ own s.console.keys = true)
    (f : State → State) : sequenceEvent own f s = event (fun u => f u.endKeys) s :=
  (keyEvent_taken h0 hlow _).trans (event_congr (if_pos hown))

/-- A key that completes a sequence is the row of that sequence. -/
theorem keyPress_completes {k : Key} {c : Instr} {own : KeySeq → Bool} {f : State → State} (hc : exec c s = sequenceEvent own f s)
    (hown : s.console.keys = .idle ∨ own s.console.keys = true) (hk : k ≠ .clear) (hf : s.seqKey k = f s.endKeys) :
    exec (.keyPress k) s = exec c s := by
  rw [exec_keyPress, keyEvent_taken h0 hlow, hc, sequenceEvent_taken h0 hlow hown]
  exact event_congr ((State.pressKey_seq hk).trans hf)

variable (hr : s.supply.running = true) (hq : s.Quiet)
include hr hq

theorem keyPress_quiet {k : Key} {c : Console} (hk : k ≠ .clear) (hf : s.seqKey k = { s with console := c }) :
    exec (.keyPress k) s = .next (State.signUpdate { s with console := c }) := by
  rw [exec_keyPress, keyEvent_taken h0 hlow]
  exact event_quiet hr ((State.pressKey_seq hk).trans hf) (hq.of_same rfl rfl rfl rfl)

/-- A key that opens a sequence or extends it. -/
theorem keyPress_collects {k : Key} {seq : KeySeq} (hk : k ≠ .clear) (hf : s.seqKey k = s.collect seq) :
    exec (.keyPress k) s = .next (State.signUpdate { s with console := s.console.collecting seq }) :=
  keyPress_quiet h0 hlow hr hq hk hf

theorem keyPress_digit {d : Fin 10} {q seq : KeySeq} (hkeys : s.console.keys = q) (hidle : q ≠ .idle) (hselect : q ≠ .select)
    (hd : q.withDigit d.val = seq) :
    exec (.keyPress (.digit d)) s = .next (State.signUpdate { s with console := s.console.collecting seq }) := by
  subst hkeys hd
  exact keyPress_collects h0 hlow hr hq Key.noConfusion (State.seqKey_digit hidle hselect d)

theorem clear_abandons {c : Instr} (hc : c = .clear ∨ c = .keyPress .clear) :
    exec c s = .next (State.signUpdate { s with console := s.console.ended }) := by
  obtain rfl | rfl := hc
  · rw [exec_clear, keyEvent_taken h0 hlow]
    exact event_quiet hr rfl (hq.of_same rfl rfl rfl rfl)
  · rw [exec_keyPress, keyEvent_taken h0 hlow]
    exact event_quiet hr (if_pos rfl) (hq.of_same rfl rfl rfl rfl)

theorem select_quiet {d : Fin 10} {c : Console} (hkeys : s.console.keys = .idle ∨ s.console.keys = .select)
    (hf : s.endKeys.selectDigit d = { s with console := c }) :
    exec (.select d) s = .next (State.signUpdate { s with console := c }) := by
  rw [exec_select, sequenceEvent_taken (own := fun k => k == .select) h0 hlow (hkeys.imp_right beq_iff_eq.2)]
  exact event_quiet hr hf (hq.of_same rfl rfl rfl rfl)

end

theorem State.selectDigit_seat {s : State} {d : Fin 10} {a : Addr} (h : d.val = a.val) :
    s.selectDigit d = s.endKeys.selectStation a := by
  unfold State.selectDigit
  rw [h, addrOf_val]

theorem State.selectDigit_other {s : State} {d : Fin 10} (h : 4 ≤ d.val) : s.selectDigit d = s.collect .select := by
  unfold State.selectDigit addrOf
  rw [dif_neg (Nat.not_lt.2 h)]

theorem keySequenceTimeout_ends {s : State} (hr : s.supply.running = true) (hq : s.Quiet) :
    (s.console.keyTimer ≠ none → exec .keySequenceTimeout s
        = .next (State.signUpdate { s with console := { s.console with keys := .idle, keyTimer := none } }))
      ∧ (s.console.keyTimer = none → exec .keySequenceTimeout s = .next s.signUpdate) := by
  rw [exec_keySequenceTimeout]
  refine ⟨fun h => event_quiet hr (if_pos (Option.isSome_iff_ne_none.2 h)) (hq.of_same rfl rfl rfl rfl),
    fun h => event_quiet hr (if_neg ?_) hq⟩
  rw [h]
  exact Bool.false_ne_true

/-! ### The statement -/

/-- Settles O54. -/
theorem keySequencesCollectAndComplete : Obligations.KeySequencesCollectAndComplete := by
  rintro s hr h0 hq next rfl open' rfl
  dsimp only
  obtain ⟨htimed, huntimed⟩ := keySequenceTimeout_ends hr hq
  refine ⟨htimed, huntimed, fun hlow k d => ?_,
    fun hlow => ⟨fun c hc => clear_abandons h0 hlow hr hq hc, fun hkeys d => ⟨fun a ha => ?_, fun hd => ?_⟩,
      fun hkeys => ⟨fun k seq hk => ?_, fun k c hk => ?_⟩, fun d seq hd => ?_, fun c hc => ?_, fun hkeys => ?_, fun ds hkeys => ?_,
      fun k hk => ?_, fun hkeys k hk => ?_, fun hkeys => ?_, fun ds hkeys hlen => ?_⟩⟩
  · rw [exec_keyPress, exec_clear, exec_select]
    exact ⟨keyEvent_low hr hq hlow, keyEvent_low hr hq hlow, sequenceEvent_low hr hq hlow⟩
  · exact select_quiet h0 hlow hr hq hkeys (State.selectDigit_seat ha)
  · exact select_quiet h0 hlow hr hq hkeys (State.selectDigit_other hd)
  -- A key that opens a sequence.
  · obtain ⟨hne, hopens⟩ : k ≠ .clear ∧ s.idleKey k = s.openSeq seq := by
      obtain ⟨rfl, rfl⟩ | ⟨rfl, rfl⟩ | ⟨rfl, rfl⟩ | ⟨rfl, rfl⟩ | ⟨rfl, rfl⟩ | ⟨rfl, rfl⟩ | ⟨rfl, rfl⟩ | ⟨rfl, rfl⟩ | ⟨rfl, rfl⟩ := hk
      all_goals exact ⟨Key.noConfusion, rfl⟩
    exact keyPress_quiet h0 hlow hr hq hne ((State.seqKey_idle hkeys).trans hopens)
  -- A key that is a sequence alone.
  · obtain ⟨own, f, hne, hexec, htakes⟩ : ∃ own f, k ≠ .clear ∧ exec c s = sequenceEvent own f s ∧ s.idleKey k = f s.endKeys := by
      obtain ⟨rfl, rfl⟩ | ⟨rfl, rfl⟩ | ⟨rfl, rfl⟩ | ⟨rfl, rfl⟩ | ⟨rfl, rfl⟩ | ⟨rfl, rfl⟩ | ⟨rfl, rfl⟩ | ⟨rfl, rfl⟩ := hk
      all_goals exact ⟨_, _, Key.noConfusion, rfl, rfl⟩
    exact keyPress_completes h0 hlow hexec (Or.inl hkeys) hne ((State.seqKey_idle hkeys).trans htakes)
  -- A digit that is collected.
  · obtain ⟨q, hkeys, hidle, hselect, hseq⟩ :
        ∃ q, s.console.keys = q ∧ q ≠ .idle ∧ q ≠ .select ∧ q.withDigit d.val = seq := by
      obtain ⟨kind, h, rfl⟩ | ⟨h, h1, h8, rfl⟩ | ⟨h, hno, rfl⟩ | ⟨ds, h, hne, hlen, rfl⟩ | ⟨c, ds, h, hlen, rfl⟩ | ⟨ds, h, hlen, rfl⟩
        | ⟨ds, h, hlen, rfl⟩ | ⟨ds, h, hlen, rfl⟩ | ⟨ds, h, hf, rfl⟩ | ⟨f, ds, h, hf, rfl⟩ := hd
      all_goals refine ⟨_, h, KeySeq.noConfusion, KeySeq.noConfusion, ?_⟩
      · rfl
      · rw [KeySeq.withDigit, extraDigit_code h1 h8]
      · rw [KeySeq.withDigit, extraDigit_noCode hno]
      · exact KeySeq.withDigit_amount (Or.inr hne) hlen
      · exact KeySeq.withDigit_amount (Or.inl (Option.some_ne_none c)) hlen
      · exact if_pos hlen
      · exact if_pos hlen
      · exact if_pos hlen
      · exact KeySeq.withDigit_function hf
      · exact KeySeq.withDigit_functionDigit hf
    exact keyPress_digit h0 hlow hr hq hkeys hidle hselect hseq
  -- ENTER, which completes a sequence.
  · obtain ⟨own, f, hexec, hown, htakes⟩ :
        ∃ own f, exec c s = sequenceEvent own f s ∧ own s.console.keys = true ∧ s.seqKey .enter = f s.endKeys := by
      obtain ⟨kind, p, h, rfl⟩ | ⟨h, rfl⟩ | ⟨code, ds, h, rfl⟩ | ⟨ds, h, hne, rfl⟩ | ⟨ds, h, hne, rfl⟩ | ⟨ds, h, rfl⟩
        | ⟨ds, h, hne, rfl⟩ | ⟨y, mo, d, hour, mi, h, hy, hmo, hd, hhour, hmi, rfl⟩ | ⟨ds, h, rfl⟩ | ⟨ds, h, rfl⟩ | ⟨ds, h, rfl⟩
        | ⟨ds, h, rfl⟩ | ⟨d0, d1, d2, d3, h, rfl⟩ := hc
      · exact ⟨_, _, exec_commandSequence s _, by rw [h]; exact beq_self_eq_true kind, State.seqKey_hire h⟩
      · exact ⟨_, _, exec_commandSequence s _, by rw [h]; rfl, State.seqKey_extra h⟩
      · exact ⟨_, _, exec_commandSequence s _, by rw [h]; rfl, State.seqKey_extra h⟩
      · exact ⟨_, _, exec_commandSequence s _, by rw [h]; rfl, (State.seqKey_cash h).trans (if_neg (by simpa using hne))⟩
      · exact ⟨_, _, exec_commandSequence s _, by rw [h]; rfl, (State.seqKey_account h).trans (if_neg (by simpa using hne))⟩
      · exact ⟨_, _, exec_print s _, by rw [h]; rfl, State.seqKey_print h⟩
      · exact ⟨_, _, exec_shiftOpenKeyed s _, by rw [h]; rfl, (State.seqKey_function h).trans (if_neg (by simpa using hne))⟩
      · exact ⟨_, _, exec_clockSetting s _ _ _ _ _, by rw [h]; rfl,
          (State.seqKey_function h).trans (State.enterFunction_clock hy hmo hd hhour hmi)⟩
      · exact ⟨_, _, exec_lampTest s, by rw [h]; rfl, State.seqKey_function h⟩
      · exact ⟨_, _, exec_servicePage s, by rw [h]; rfl, State.seqKey_function h⟩
      · exact ⟨_, _, exec_lastReport s, by rw [h]; rfl, State.seqKey_function h⟩
      · exact ⟨_, _, exec_forcedClose s, by rw [h]; rfl, State.seqKey_function h⟩
      · exact ⟨_, _, exec_distressClear d0 d1 d2 d3 s, by rw [h]; rfl, State.seqKey_function h⟩
    exact keyPress_completes h0 hlow hexec (Or.inr hown) Key.noConfusion htakes
  · exact keyPress_completes h0 hlow (exec_commandSequence s _) (Or.inr (by rw [hkeys]; rfl)) Key.noConfusion
      (State.seqKey_pay hkeys)
  · exact keyPress_collects h0 hlow hr hq Key.noConfusion ((State.seqKey_function hkeys).trans (congrArg s.collect hkeys))
  -- What is ignored: another key, ENTER where it ends nothing, a digit too many.
  · obtain ⟨hopen, hclear, henter, hdigit, hpay⟩ | ⟨hkeys | hkeys, rfl⟩ | ⟨d, rfl, hfull⟩ := hk
    · exact keyPress_collects h0 hlow hr hq hclear (State.seqKey_other hdigit henter hopen hpay)
    · exact keyPress_collects h0 hlow hr hq Key.noConfusion (State.seqKey_select hkeys fun _ => Key.noConfusion)
    · exact keyPress_collects h0 hlow hr hq Key.noConfusion ((State.seqKey_pay hkeys).trans (State.payKey_other Key.noConfusion))
    · obtain ⟨q, hkeys, hidle, hselect, hsame⟩ :
          ∃ q, s.console.keys = q ∧ q ≠ .idle ∧ q ≠ .select ∧ q.withDigit d.val = q := by
        obtain h | ⟨kind, p, h⟩ | ⟨c, ds, h, hlen⟩ | ⟨ds, h, hlen⟩ | ⟨ds, h, hlen⟩ | ⟨ds, h, hlen⟩ | ⟨ds, h, hf⟩
          | ⟨f, ds, h, hf⟩ := hfull
        all_goals refine ⟨_, h, KeySeq.noConfusion, KeySeq.noConfusion, ?_⟩
        · rfl
        · rfl
        · exact KeySeq.withDigit_amount_full hlen
        · exact if_neg (Nat.not_lt.2 hlen)
        · exact if_neg (Nat.not_lt.2 hlen)
        · exact if_neg (Nat.not_lt.2 hlen)
        · exact KeySeq.withDigit_noFunction hf
        · exact KeySeq.withDigit_function_full hf
      rw [hkeys]
      exact keyPress_digit h0 hlow hr hq hkeys hidle hselect hsame
  · have hne : k ≠ .clear ∧ s.idleKey k = s.onConsole fun c => { c with message := none } := by
      obtain rfl | ⟨d, rfl⟩ := hk <;> exact ⟨Key.noConfusion, rfl⟩
    exact keyPress_quiet h0 hlow hr hq hne.1 ((State.seqKey_idle hkeys).trans hne.2)
  -- ENTER with too few digits, or with an amount and no code.
  · have hinvalid : s.seqKey .enter = s.invalid := by
      obtain ⟨kind, h⟩ | ⟨ds, h, hne⟩ | h | h | h | ⟨ds, h, hlen⟩ := hkeys
      · exact State.seqKey_hire h
      · exact (State.seqKey_extra h).trans (if_neg (by simpa using hne))
      · exact State.seqKey_cash h
      · exact State.seqKey_account h
      · exact State.seqKey_function h
      · exact (State.seqKey_function h).trans (if_pos hlen)
    exact keyPress_quiet h0 hlow hr hq Key.noConfusion hinvalid
  · exact keyPress_quiet h0 hlow hr hq Key.noConfusion ((State.seqKey_function hkeys).trans (if_pos hlen))

end Sys2Proof.Machine
end

section
/-! PROOFS. Commands that pend at station 0: formed, answered, unanswered and deferred (O55). -/
namespace Sys2Proof.Machine
open Sys2Proof

section
variable (s : State)

theorem exec_replyReceived (a target : Addr) (seq : Nat) (r : Reply) : exec (.replyReceived a target seq r) s
    = frameEvent a (fun u => u.atConsole fun u => if target = 0 then u.consoleReply a seq r else u) s := rfl

theorem exec_replyLimitExpiry (a : Addr) : exec (.replyLimitExpiry a) s
    = event (fun u => if ((u.console.cmds.get a).bind (·.limit)).isSome then u.noAnswer a else u) s := rfl

theorem exec_deferredCommandOffer (a : Addr) : exec (.deferredCommandOffer a) s = event (fun u => u.offerDeferred a) s := rfl

end

/-- Writing a row's own value changes nothing. -/
theorem Quad.set_eq_self {α : Type} {q : Quad α} {a : Addr} {x : α} (h : q.get a = x) : q.set a x = q := by
  subst h
  exact Quad.set_get_self q a

/-! ### A command for the selected station (R173) -/

theorem cmdKeyed_of {cmd : Cmd} (hconnect : cmd ≠ .connect) (hdisconnect : cmd ≠ .disconnect) (hlisten : cmd ≠ .listen)
    (hlistenEnd : cmd ≠ .listenEnd) : cmdKeyed cmd = true := by
  cases cmd with
  | connect => exact absurd rfl hconnect
  | disconnect => exact absurd rfl hdisconnect
  | listen => exact absurd rfl hlisten
  | listenEnd => exact absurd rfl hlistenEnd
  | _ => rfl

section
variable {s : State} {a : Addr} {cmd : Cmd} (hsel : s.console.selected = a)
include hsel

theorem State.formSelected_busy (hbusy : s.console.ready a = false) : s.formSelected cmd = s.say (.wait a) := by
  subst hsel
  exact if_neg (Bool.eq_false_iff.1 hbusy)

theorem State.formSelected_ready (hready : s.console.ready a = true) : s.formSelected cmd = s.formCommand a cmd := by
  subst hsel
  exact if_pos hready

end

section
variable {w : State} {a : Addr} {cmd : Cmd} (hq : w.Quiet)
include hq

/-- A COMMAND formed and refused: its entry goes and LINK BUSY is shown. -/
theorem State.settleEvent_command_refused {p : PendCmd} (hp : w.console.cmds.get a = some p) (hcmd : p.cmd ≠ .connect)
    (hl : w.link.offer w.now 2 (encCommand a p.seq p.cmd) (.command a p.seq) = none) :
    (w.offer (.command a)).settleEvent = (State.signUpdate { w with
      console := { w.console with cmds := w.console.cmds.set a none, message := some (.linkBusy a) } }) := by
  rw [State.settleEvent_offer hq, State.tryOffer_command_refused hp hl hcmd]

/-- A COMMAND for a seat with nothing pending, and the end of its event. -/
theorem State.settleEvent_forming (hnone : w.console.cmds.get a = none) :
    (∀ l, w.link.offer w.now 2 (encCommand a w.console.nextSeq cmd) (.command a w.console.nextSeq) = some l →
      ((w.onConsole fun c => c.forming w.now a cmd).offer (.command a)).settleEvent
        = State.signUpdate { w with link := l, console := w.console.forming w.now a cmd })
    ∧ (cmd ≠ .connect →
      w.link.offer w.now 2 (encCommand a w.console.nextSeq cmd) (.command a w.console.nextSeq) = none →
      ((w.onConsole fun c => c.forming w.now a cmd).offer (.command a)).settleEvent = State.signUpdate { w with
        console := { w.console with nextSeq := (w.console.nextSeq + 1) % 16, message := some (.linkBusy a) } }) := by
  have hquiet : (w.onConsole fun c => c.forming w.now a cmd).Quiet := hq.of_same rfl rfl rfl rfl
  have hpend := Quad.get_set_same w.console.cmds a
    (some { cmd := cmd, seq := w.console.nextSeq, formed := w.now, claiming := false, handed := false, limit := none })
  refine ⟨fun l hl => State.settleEvent_command_taken hquiet hpend hl, fun hcmd hl => ?_⟩
  have hgone : (w.console.forming w.now a cmd).cmds.set a none = w.console.cmds :=
    (Quad.set_set _ _ _ _).trans (Quad.set_eq_self hnone)
  refine (State.settleEvent_command_refused hquiet hpend hcmd hl).trans ?_
  rw [show (w.onConsole fun c => c.forming w.now a cmd).console.cmds.set a none = w.console.cmds from hgone]
  rfl

end

section
variable {s : State} {a : Addr} {cmd : Cmd} (hr : s.supply.running = true) (h0 : s.addr = 0) (hq : s.Quiet)
  (hlow : s.supply.state ≠ .low) (hkeys : s.console.keys = .idle) (hsel : s.console.selected = a) (hcmd : cmdKeyed cmd = true)
include hr h0 hlow hkeys hcmd

theorem commandSequence_next {u : State} (hf : s.endKeys.formSelected cmd = u) :
    exec (.commandSequence cmd) s = .next u.settleEvent := by
  rw [exec_commandSequence]
  exact sequenceEvent_next hr h0 hlow hkeys ((if_pos hcmd).trans hf)

include hsel

theorem commandSequence_seat (ha : a ≠ 0) (hready : s.console.ready a = true) : exec (.commandSequence cmd) s
    = .next ((s.endKeys.onConsole fun c => c.forming s.now a cmd).offer (.command a)).settleEvent :=
  commandSequence_next hr h0 hlow hkeys hcmd
    ((State.formSelected_ready (s := s.endKeys) hsel hready).trans (State.formCommand_seat ha cmd))

include hq

theorem commandSequence_waits (hbusy : s.console.ready a = false) : exec (.commandSequence cmd) s
    = .next (State.signUpdate { s with console := { s.console.ended with message := some (.wait a) } }) := by
  rw [commandSequence_next hr h0 hlow hkeys hcmd (State.formSelected_busy (s := s.endKeys) hsel hbusy)]
  exact congrArg _ (State.settleEvent_quiet (hq.of_same rfl rfl rfl rfl))

theorem commandSequence_own (ha : a = 0) (hready : s.console.ready a = true) : exec (.commandSequence cmd) s
    = .next (State.signUpdate { s with console := s.console.ended.forming s.now 0 cmd }) := by
  subst ha
  rw [commandSequence_next hr h0 hlow hkeys hcmd (State.formSelected_ready (s := s.endKeys) hsel hready)]
  exact congrArg _ (State.settleEvent_quiet (hq.of_same rfl rfl rfl rfl))

end

/-- A pending command of station 0's own blocks that has not been taken is due (R5, log entry 15). -/
theorem State.localInstr_due {s : State} (hr : s.supply.running = true) {p : PendCmd} (h : s.console.cmds.get 0 = some p)
    (hp : p.handed = false) : Cmd.localInstr p.cmd p.seq ∈ s.dueEvents := by
  have hcond : Cmd.localInstr p.cmd p.seq ∈ s.dueConditions := by
    simp [State.dueConditions, h, hp]
  unfold State.dueEvents
  rw [if_pos hr]
  exact List.mem_append_right _ (List.mem_append_right _ hcond)

/-! ### The reply, and its limit (R174, R115) -/

/-- The console with the command of `a` gone, and its end shown. -/
def Console.closing (c : Console) (a : Addr) (shown : Shown) : Console :=
  { c with cmds := c.cmds.set a none, lastReply := c.lastReply.set a (some shown) }

/-- Station 0 once the CONNECT of `a` is gone, its talk parted and the DISCONNECT due. -/
def State.unanswered (s : State) (a : Addr) : State :=
  ({ s with console := s.console.closing a .noAnswer } : State).detachTalk.dueCommand a .disconnect

section
variable {s : State} {a : Addr} {seq : Nat} {r : Reply}

theorem State.consoleReply_paired {p : PendCmd} (h : s.console.cmds.get a = some p) (hp : p.seq = seq) :
    s.consoleReply a seq r = { s with
      console := s.console.closing a (.reply r)
      intercom := if p.cmd = .connect ∧ r ≠ .done ∧ s.intercom.talk.partner = some a
        then { s.intercom with talk := .none, talkTimer := none } else s.intercom } := by
  unfold State.consoleReply
  rw [h]
  dsimp only
  rw [if_pos hp]
  by_cases hrefused : p.cmd = .connect ∧ r ≠ .done
  · rw [if_pos hrefused, State.leaveTalk_eq]
    refine congrArg (fun i => ({ s with console := s.console.closing a (.reply r), intercom := i } : State)) ?_
    exact if_congr (by simp [hrefused.1, hrefused.2]) rfl rfl
  · rw [if_neg hrefused, if_neg fun hall => hrefused ⟨hall.1, hall.2.1⟩]
    rfl

theorem State.consoleReply_unpaired (h : s.console.cmds.get a = none ∨ ∃ p, s.console.cmds.get a = some p ∧ p.seq ≠ seq) :
    s.consoleReply a seq r = s := by
  unfold State.consoleReply
  obtain h | ⟨p, h, hp⟩ := h <;> rw [h]
  exact if_neg hp

theorem State.noAnswer_alone {p : PendCmd} (h : s.console.cmds.get a = some p)
    (halone : p.cmd ≠ .connect ∨ s.intercom.talk.partner ≠ some a) :
    s.noAnswer a = { s with console := s.console.closing a .noAnswer } := by
  unfold State.noAnswer
  rw [h]
  dsimp only
  split
  · next hconnect => exact if_neg (halone.resolve_left (not_not_intro hconnect))
  · rfl

/-- An unanswered CONNECT ends its talk, and a DISCONNECT falls due (R115). -/
theorem State.noAnswer_connect {p : PendCmd} (h : s.console.cmds.get a = some p) (hconnect : p.cmd = .connect)
    (hpartner : s.intercom.talk.partner = some a) : s.noAnswer a = s.unanswered a := by
  unfold State.noAnswer
  rw [h]
  dsimp only
  rw [if_pos hconnect]
  exact (if_pos hpartner).trans (State.endTalk_told (s := { s with console := s.console.closing a .noAnswer }) hpartner)

theorem replyLimit_next (hr : s.supply.running = true) {p : PendCmd} (h : s.console.cmds.get a = some p) (hlimit : p.limit ≠ none)
    {u : State} (hu : s.noAnswer a = u) : exec (.replyLimitExpiry a) s = .next u.settleEvent := by
  rw [exec_replyLimitExpiry, event_next hr, if_pos, hu]
  rw [h]
  exact Option.isSome_iff_ne_none.2 hlimit

theorem replyLimit_off (hr : s.supply.running = true) (hq : s.Quiet) {p : PendCmd} (h : s.console.cmds.get a = some p)
    (hlimit : p.limit = none) : exec (.replyLimitExpiry a) s = .next s.signUpdate := by
  rw [exec_replyLimitExpiry]
  refine event_quiet hr (if_neg ?_) hq
  rw [h, Option.bind_some, hlimit]
  exact Bool.false_ne_true

theorem Console.closing_ready {c : Console} {shown : Shown} (h : c.deferred.get a = []) : (c.closing a shown).ready a = true :=
  Console.ready_of (Quad.get_set_same c.cmds a none) h

theorem Console.closing_busy {c : Console} {shown : Shown} (h : c.deferred.get a ≠ []) : (c.closing a shown).ready a = false :=
  Console.not_ready_iff.2 (Or.inr h)

end

section
variable {s : State} {a : Addr} {cmd : Cmd}

/-- A command that falls due for a seat with nothing pending is commanded (R173). -/
theorem State.dueCommand_commanded (hq : s.Quiet) (ha : a ≠ 0) (hready : s.console.ready a = true) :
    s.Commanded (s.dueCommand a cmd).settleEvent a cmd s.console.nextSeq := by
  rw [State.dueCommand_ready cmd ha hready]
  have hoffers : ((s.onConsole fun c => c.forming s.now a cmd).offer (.command a)).offers = [.command a] := by
    show s.offers ++ _ = _
    rw [hq.1]
    rfl
  obtain ⟨hanswer, hroom, hfull⟩ := State.settleEvent_command
    (s := (s.onConsole fun c => c.forming s.now a cmd).offer (.command a)) (a := a) hq.2 (by rw [hoffers]; simp)
    (Quad.get_set_same s.console.cmds a _)
  rw [hoffers] at hroom
  rintro queued refused rfl rfl
  exact ⟨hanswer, fun hsilent hlen => hroom hsilent (Nat.le_trans (Nat.succ_le_succ hlen) (by decide)), hfull⟩

end

/-! ### An unanswered CONNECT (R115) -/

section
variable {s : State} {a : Addr} (hq : s.Quiet)

include hq

theorem unanswered_talk_ends_seat (ha : a ≠ 0) (hempty : s.console.deferred.get a = []) :
    (s.unanswered a).settleEvent.intercom = s.intercom.detached
      ∧ (s.unanswered a).settleEvent.console.lastReply = s.console.lastReply.set a (some .noAnswer)
      ∧ (s.unanswered a).settleEvent.console.nextSeq = (s.console.nextSeq + 1) % 16
      ∧ s.Commanded (s.unanswered a).settleEvent a .disconnect s.console.nextSeq := by
  have hready : (s.console.closing a .noAnswer).ready a = true := Console.closing_ready hempty
  have hquiet : ({ s with console := s.console.closing a .noAnswer } : State).Quiet := hq.of_same rfl rfl rfl rfl
  have hdue : s.unanswered a = _ := State.dueCommand_ready
    (s := ({ s with console := s.console.closing a .noAnswer } : State).detachTalk) .disconnect ha hready
  refine ⟨(talk_ends_seat hquiet ha hready _ rfl).1, ?_, ?_, ?_⟩
  · rw [State.settleEvent_lastReply, hdue]
    rfl
  · rw [(State.settleEvent_kept _).nextSeq, hdue]
    rfl
  · exact State.dueCommand_commanded (s := ({ s with console := s.console.closing a .noAnswer } : State).detachTalk)
      (hquiet.of_same rfl rfl rfl rfl) ha hready

theorem unanswered_talk_ends_own (h0 : s.addr = 0) (hempty : s.console.deferred.get 0 = []) :
    (s.unanswered 0).settleEvent = State.signUpdate { s with
      intercom := if s.intercom.endState = .idle ∨ s.intercom.endState = .calling then s.intercom.detached
        else s.intercom.detached.idled
      console := { s.console with
        cmds := s.console.cmds.set 0 none, nextSeq := (s.console.nextSeq + 1) % 16
        lastReply := s.console.lastReply.set 0 (some (.reply .done)) } } := by
  have hanswered : (s.console.closing 0 .noAnswer).answering = { s.console with
      cmds := s.console.cmds.set 0 none, nextSeq := (s.console.nextSeq + 1) % 16
      lastReply := s.console.lastReply.set 0 (some (.reply .done)) } := by
    unfold Console.closing Console.answering
    dsimp only
    rw [Quad.set_set, Quad.set_set]
  rw [← hanswered]
  exact talk_ends_own (w := { s with console := s.console.closing 0 .noAnswer }) (hq.of_same rfl rfl rfl rfl) h0
    (Console.closing_ready hempty)

theorem unanswered_talk_ends_busy (hsome : s.console.deferred.get a ≠ []) :
    (s.unanswered a).settleEvent = State.signUpdate { s with
      intercom := s.intercom.detached
      console := if (s.console.deferred.get a).length < 2
        then { s.console.closing a .noAnswer with
          deferred := s.console.deferred.set a (s.console.deferred.get a ++ [.disconnect]) }
        else s.console.closing a .noAnswer } := by
  obtain ⟨hroom, hfull⟩ := talk_ends_busy (w := { s with console := s.console.closing a .noAnswer })
    (hq.of_same rfl rfl rfl rfl) (Console.closing_busy hsome)
  by_cases hlen : (s.console.deferred.get a).length < 2
  · rw [if_pos hlen]
    exact hroom hlen
  · rw [if_neg hlen]
    exact hfull (Nat.not_lt.1 hlen)

end

/-! ### Deferred commands (R176) -/

/-- The intercom after LISTEN has been offered to `a` (R117). -/
def Intercom.announcedTo (i : Intercom) (cmd : Cmd) (a : Addr) : Intercom :=
  if cmd = .listen then { i with announced := i.announced ++ [a] } else i

/-- LISTEN at the own end holds its speaker under a prompt. -/
def Intercom.commandHolds (i : Intercom) (cmd : Cmd) : Bool :=
  match cmd with
  | .listen => i.listenHolds
  | _ => false

/-- Station 0's talk with its own end is HELD where the speaker is (R112, R120). -/
def Intercom.ownHeld (i : Intercom) (holds : Bool) : Intercom :=
  if holds = true ∧ i.talk = .talk 0 then { i with talk := .held 0 } else i

/-- Station 0 with the oldest deferred command of `a` taken from the list, to be formed. -/
def State.readied (s : State) (a : Addr) (cmd : Cmd) (rest : List Cmd) : State :=
  { s with
    intercom := s.intercom.announcedTo cmd a
    console := { s.console with deferred := s.console.deferred.set a rest } }

section
variable {s : State} {a : Addr} {cmd : Cmd} {rest : List Cmd}

theorem State.moved_own (h0 : s.addr = 0) (i : Intercom) (holds : Bool) :
    s.moved i holds = { s with intercom := i.ownHeld holds } := by
  unfold State.moved Intercom.ownHeld
  cases holds with
  | false => rfl
  | true =>
    have hconsole : ({ s with intercom := i } : State).isConsole = true := s.isConsole_iff.2 h0
    unfold State.saySpeakerHeld
    rw [if_pos rfl, if_pos hconsole, State.talkHeld_eq]
    simp

/-- What a command does at station 0's own end, its own talk HELD with the speaker. -/
theorem State.endCommand_console (h0 : s.addr = 0) (cmd : Cmd) : s.endCommand cmd
    = { s with intercom := (s.intercom.commanded cmd).ownHeld (s.intercom.commandHolds cmd) } := by
  cases cmd with
  | disconnect => exact s.disconnectEnd_eq.trans (State.moved_own h0 _ _)
  | listen => exact s.listenEnd_eq.trans (State.moved_own h0 _ _)
  | listenEnd => exact s.listenEndEnd_eq.trans (State.moved_own h0 _ _)
  | _ => rfl

/-- The own end takes a command in the event that forms it, its talk open or not (log entry 16). -/
theorem State.giveCommand_console (h0 : s.addr = 0) (cmd : Cmd) : s.giveCommand 0 cmd = { s with
    intercom := (s.intercom.commanded cmd).ownHeld (s.intercom.commandHolds cmd), console := s.console.answering } := by
  have hpend := Quad.get_set_same s.console.cmds 0
    (some { cmd := cmd, seq := s.console.nextSeq, formed := s.now, claiming := false, handed := false, limit := none })
  unfold State.giveCommand
  rw [if_pos rfl, State.endCommand_console (s := s.formCommand 0 cmd) h0]
  refine (State.consoleReply_taken (s := { s.formCommand 0 cmd with
    intercom := (s.intercom.commanded cmd).ownHeld (s.intercom.commandHolds cmd) }) hpend (Or.inl rfl)).trans ?_
  rw [State.formCommand_own]
  unfold State.onConsole Console.forming Console.answering
  dsimp only
  rw [Quad.set_set]

theorem State.offerDeferred_none (h : s.console.cmds.get a ≠ none ∨ s.console.deferred.get a = []) : s.offerDeferred a = s := by
  unfold State.offerDeferred
  split
  · next hnone hsome =>
    obtain h | h := h
    · exact absurd hnone h
    · rw [h] at hsome
      cases hsome
  · rfl

section
variable (hnone : s.console.cmds.get a = none) (hdef : s.console.deferred.get a = cmd :: rest)
include hnone hdef

/-- The oldest deferred command is formed, and a LISTEN counts as offered (R117, R176). -/
theorem State.offerDeferred_some {u : State}
    (hu : (s.onConsole fun c => { c with deferred := c.deferred.set a rest }).giveCommand a cmd = u) :
    s.offerDeferred a = u.onIntercom fun i => i.announcedTo cmd a := by
  subst hu
  unfold State.offerDeferred State.onIntercom Intercom.announcedTo
  rw [hnone, hdef]
  dsimp only
  split <;> rfl

theorem State.offerDeferred_seat (ha : a ≠ 0) : s.offerDeferred a
    = ((s.readied a cmd rest).onConsole fun c => c.forming s.now a cmd).offer (.command a) :=
  State.offerDeferred_some hnone hdef (State.giveCommand_seat cmd ha)

end

theorem State.offerDeferred_own (h0 : s.addr = 0) (hnone : s.console.cmds.get 0 = none)
    (hdef : s.console.deferred.get 0 = cmd :: rest) : s.offerDeferred 0 = { s with
      intercom := ((s.intercom.commanded cmd).ownHeld (s.intercom.commandHolds cmd)).announcedTo cmd 0
      console := { s.console with deferred := s.console.deferred.set 0 rest }.answering } :=
  State.offerDeferred_some hnone hdef (State.giveCommand_console
    (s := s.onConsole fun c => { c with deferred := c.deferred.set 0 rest }) h0 cmd)

end

theorem Intercom.listenEnding_eq (i : Intercom) :
    i.listenEnding = if i.endState = .listen ∨ i.endState = .held .listen then i.idled else i := by
  unfold Intercom.listenEnding
  cases i.endState with
  | held w => cases w <;> rfl
  | _ => rfl

section
variable {i : Intercom}

theorem Intercom.ownHeld_false : i.ownHeld false = i := if_neg fun h => Bool.false_ne_true h.1

theorem Intercom.listenHolds_enters (h : i.endState = .idle ∨ i.endState = .calling ∨ i.endState = .connected) :
    i.listenHolds = i.prompt := by
  unfold Intercom.listenHolds
  obtain h | h | h := h <;> rw [h]

theorem Intercom.listenHolds_not (h : i.endState = .listen ∨ ∃ w, i.endState = .held w) : i.listenHolds = false := by
  unfold Intercom.listenHolds
  obtain h | ⟨w, h⟩ := h <;> rw [h]

/-- LISTEN at an end whose speaker it does not take: the end listens, and the LISTEN counts as offered. -/
theorem Intercom.listened_silently (h : i.endState = .listen ∨ ∃ w, i.endState = .held w) :
    ((i.commanded .listen).ownHeld (i.commandHolds .listen)).announcedTo .listen 0
      = { i.listening with announced := i.announced ++ [0] } := by
  rw [show i.commandHolds .listen = false from Intercom.listenHolds_not h, Intercom.ownHeld_false, ← i.listening_announced]
  exact if_pos rfl

/-- LISTEN at an end that enters LISTEN: HELD with station 0's own talk under a prompt. -/
theorem Intercom.listened_entering (h : i.endState = .idle ∨ i.endState = .calling ∨ i.endState = .connected) :
    ((i.commanded .listen).ownHeld (i.commandHolds .listen)).announcedTo .listen 0 = { i with
      endState := if i.prompt then .held .listen else .listen, callTimer := none, endTimer := some 1200000
      announced := i.announced ++ [0], talk := if i.prompt = true ∧ i.talk = .talk 0 then .held 0 else i.talk } := by
  rw [show i.commandHolds .listen = i.prompt from Intercom.listenHolds_enters h,
    show i.commanded .listen = i.entering .listen from Intercom.listening_enters h]
  unfold Intercom.announcedTo Intercom.ownHeld Intercom.entering Intercom.entered
  rw [if_pos rfl]
  dsimp only
  split <;> rfl

end

/-! ### The statement -/

/-- Settles O55. -/
theorem commandsPendUntilAnsweredAndDefer : Obligations.CommandsPendUntilAnsweredAndDefer := by
  rintro s hr h0 hq entry rfl
  refine ⟨fun cmd a c0 hlow hkeys hsel hconnect hdisconnect hlisten hlistenEnd hc0 => ⟨fun hbusy => ?_, fun hnone hempty =>
      ⟨fun ha => ?_, fun l ha hl => ?_, fun ha hl => ?_⟩⟩, fun p hp hhanded => State.localInstr_due hr hp hhanded,
    fun a target seq r hs l hl => ⟨fun p hp hseq htarget i hi => ?_, fun hother => ?_⟩,
    fun a p hp c hc => ⟨fun hlimit halone => ?_, fun hlimit hconnect hpartner apart hapart => ⟨fun ha hempty => ?_,
      fun ha hempty => ?_, fun hsome => ?_⟩, fun hlimit => replyLimit_off hr hq hp hlimit⟩,
    fun a cmd rest i c0 ha hnone hdef hconnect hi hc0 => ⟨fun l hl => ?_, fun hl => ?_⟩,
    fun cmd rest i idle hnone hdef hidle hi => ?_, fun a hnothing => ?_⟩
  · subst hc0
    exact commandSequence_waits hr h0 hq hlow hkeys hsel (cmdKeyed_of hconnect hdisconnect hlisten hlistenEnd)
      (Console.not_ready_iff.2 hbusy)
  · subst hc0
    exact commandSequence_own hr h0 hq hlow hkeys hsel (cmdKeyed_of hconnect hdisconnect hlisten hlistenEnd) ha
      (Console.ready_of hnone hempty)
  · subst hc0
    rw [commandSequence_seat hr h0 hlow hkeys hsel (cmdKeyed_of hconnect hdisconnect hlisten hlistenEnd) ha
      (Console.ready_of hnone hempty)]
    exact congrArg _ ((State.settleEvent_forming (w := s.endKeys) (hq.of_same rfl rfl rfl rfl) hnone).1 l hl)
  · subst hc0
    rw [commandSequence_seat hr h0 hlow hkeys hsel (cmdKeyed_of hconnect hdisconnect hlisten hlistenEnd) ha
      (Console.ready_of hnone hempty)]
    exact congrArg _ ((State.settleEvent_forming (w := s.endKeys) (hq.of_same rfl rfl rfl rfl) hnone).2 hconnect hl)
  · subst hl hi
    rw [exec_replyReceived]
    exact frameEvent_quiet hr hs ((State.atConsole_console (s := s.heardFrame) _ h0).trans ((if_pos htarget).trans
      (State.consoleReply_paired (s := s.heardFrame) hp hseq))) (hq.of_same rfl rfl rfl rfl)
  · subst hl
    rw [exec_replyReceived]
    refine (frameEvent_ignored hr hs ((State.atConsole_console (s := s.heardFrame) _ h0).trans ?_)).2 hq
    split
    · next htarget => exact State.consoleReply_unpaired (s := s.heardFrame) (hother.resolve_left (not_not_intro htarget))
    · rfl
  · subst hc
    rw [replyLimit_next hr hp hlimit (State.noAnswer_alone hp halone)]
    exact congrArg _ (State.settleEvent_quiet (hq.of_same rfl rfl rfl rfl))
  · subst hc hapart
    exact ⟨_, replyLimit_next hr hp hlimit (State.noAnswer_connect hp hconnect hpartner),
      unanswered_talk_ends_seat hq ha hempty⟩
  · subst hc hapart ha
    rw [replyLimit_next hr hp hlimit (State.noAnswer_connect hp hconnect hpartner)]
    exact congrArg _ (unanswered_talk_ends_own hq h0 hempty)
  · subst hc hapart
    rw [replyLimit_next hr hp hlimit (State.noAnswer_connect hp hconnect hpartner)]
    exact congrArg _ (unanswered_talk_ends_busy hq hsome)
  · subst hi hc0
    rw [exec_deferredCommandOffer, event_next hr, State.offerDeferred_seat hnone hdef ha]
    exact congrArg _ ((State.settleEvent_forming (w := s.readied a cmd rest) (hq.of_same rfl rfl rfl rfl) hnone).1 l hl)
  · subst hi hc0
    rw [exec_deferredCommandOffer, event_next hr, State.offerDeferred_seat hnone hdef ha]
    exact congrArg _ ((State.settleEvent_forming (w := s.readied a cmd rest) (hq.of_same rfl rfl rfl rfl) hnone).2 hconnect hl)
  · have hintercom : ((s.intercom.commanded cmd).ownHeld (s.intercom.commandHolds cmd)).announcedTo cmd 0 = i := by
      subst hidle
      obtain ⟨rfl, rfl⟩ | ⟨rfl, rfl⟩ | ⟨rfl, he, rfl⟩ | ⟨rfl, he, rfl⟩ | ⟨rfl, he, rfl⟩ := hi
      · exact Intercom.ownHeld_false.trans s.intercom.disconnecting_eq
      · exact Intercom.ownHeld_false.trans s.intercom.listenEnding_eq
      · rw [Intercom.listened_silently (Or.inr ⟨_, he⟩), Intercom.listening_held he]
      · rw [Intercom.listened_silently (he.imp_right fun h => ⟨_, h⟩), Intercom.listening_same he]
      · rw [Intercom.listened_entering he]
    subst hintercom
    rw [exec_deferredCommandOffer]
    exact event_quiet hr (State.offerDeferred_own h0 hnone hdef) (hq.of_same rfl rfl rfl rfl)
  · rw [exec_deferredCommandOffer]
    exact event_quiet hr (State.offerDeferred_none hnothing) hq

end Sys2Proof.Machine
end

section
/-! PROOFS. What a line, a slip and a receipt hold (O57). -/
namespace Sys2Proof.Machine
open Sys2Proof

/-! ### Lines and their entries (R181) -/

theorem itemEntries_length_le (n : Nat) (x : PrintLabel × List Nat) : (itemEntries n x).length ≤ n := by
  unfold itemEntries
  rw [List.length_map]
  exact List.length_take_le n _

/-- A character or an emphasis ends no line. -/
theorem itemEntries_ends (n : Nat) (x : PrintLabel × List Nat) : ∀ e ∈ itemEntries n x, e.ends = false := by
  intro e he
  obtain ⟨t, -, rfl⟩ := List.mem_map.1 he
  rcases t with c | _ | _ <;> rfl

theorem lineEntries_length_le (x : PrintLabel × List Nat) (last : Bool) : (lineEntries x last).length ≤ 48 := by
  unfold lineEntries
  rw [List.length_append]
  exact Nat.succ_le_succ (itemEntries_length_le 47 x)

theorem Print.hasRoom_iff {p : Print} : p.hasRoom = true ↔ p.queue.length + 128 ≤ 512 := by
  unfold Print.hasRoom
  rw [decide_eq_true_iff]
  unfold lineRoom printSize
  omega

/-! ### The lines of a receipt (R184) -/

theorem lineFor_eq (l : PrintLabel) (x : Option Nat) : lineFor l x = x.toList.map fun n => (l, [n]) := by cases x <;> rfl

theorem HireRecord.lineFor_saving (r : HireRecord) : lineFor .saving r.saving
    = if r.capped then [] else [(.saving, [r.undiscounted - (r.distCharge + r.timeCharge)])] := by
  unfold HireRecord.saving
  split <;> rfl

/-- The lines of a receipt of station 0's own log, for a hire that was closed. -/
theorem HireRecord.receipt_lines {r : HireRecord} {d n due : Nat} {o : HireOutcome} (hd : r.paidDistance = some d)
    (hn : r.hiredSeconds = some n) (hdue : r.due = some due) (ho : r.outcome = some o) :
    r.receipt.lines = [(.paidDistance, [d]), (.hiredTime, [n]), (.flagFall, [r.flagFall]), (.distanceCharge, [r.distCharge]),
        (.timeCharge, [r.timeCharge])] ++ r.rounding.toList.map (fun x => (.rounding, [x])) ++ r.topUp.toList.map (fun x => (.topUp, [x]))
      ++ r.extras.map (fun e => (.extra, [e.1, e.2])) ++ [(.due, [due])] ++ r.tip.toList.map (fun x => (.tip, [x]))
      ++ r.tenders.map Tender.line ++ [(.outcome, [o.code])] ++ r.unpaid.toList.map (fun x => (.unpaid, [x]))
      ++ (if r.capped then [] else [(.saving, [r.undiscounted - (r.distCharge + r.timeCharge)])])
      ++ (if r.conflict then [(.flagConflict, [])] else []) ++ (if r.powerGap then [(.flagPowerGap, [r.gapSeconds])] else [])
      ++ (if r.pulseFault then [(.flagPulseFault, [])] else []) ++ (if r.capped then [(.flagCapped, [])] else []) := by
  unfold Receipt.lines HireRecord.receipt
  dsimp only
  rw [hd, hn, hdue, ho, HireRecord.lineFor_saving, lineFor_eq .rounding, lineFor_eq .topUp, lineFor_eq .tip, lineFor_eq .unpaid]
  exact List.append_nil _

/-! ### The lines of a slip (R167, R184) -/

/-- The lines of the parts that stand, each in its place, are those of the places one by one. -/
theorem partLines_places {l : PrintLabel} {a : Addr} {g : Option SummaryPart × Nat → List (PrintLabel × List Nat)}
    (hnone : ∀ i, g (none, i) = []) (hsome : ∀ p i, g (some p, i) = [(l, [a.val, i] ++ partValues p)]) :
    ∀ {xs : List (Option SummaryPart × Nat)}, (∀ x ∈ xs, ∀ p, x.1 = some p → p.index = x.2) →
      partLines l a ((xs.map Prod.fst).filterMap id) = xs.flatMap g
  | [], _ => rfl
  | (none, i) :: xs, h => by
    rw [List.flatMap_cons, hnone, List.nil_append, ← partLines_places hnone hsome fun x hx => h x (List.mem_cons_of_mem _ hx)]
    rfl
  | (some p, i) :: xs, h => by
    have hplace : p.index = i := h _ List.mem_cons_self p rfl
    rw [List.flatMap_cons, hsome, ← partLines_places hnone hsome fun x hx => h x (List.mem_cons_of_mem _ hx), ← hplace]
    rfl

theorem State.slipLines_late {s : State} {a : Addr} {l : LateSummary} (hlate : (s.close.rows.get a).late = some l)
    (hplace : ∀ i p, l.parts.get i = some p → p.index = i.val)
    {g : Option SummaryPart × Nat → List (PrintLabel × List Nat)} (hnone : ∀ i, g (none, i) = [])
    (hsome : ∀ p i, g (some p, i) = [(.slipFields, [a.val, i] ++ partValues p)]) :
    s.slipLines a = [(.slipHeading, [a.val, l.number])]
      ++ [(l.parts.s0, 0), (l.parts.s1, 1), (l.parts.s2, 2), (l.parts.s3, 3)].flatMap g
      ++ (if l.reported then [(.slipAlreadyReported, [])] else []) := by
  have hplaces : ∀ x ∈ [(l.parts.s0, 0), (l.parts.s1, 1), (l.parts.s2, 2), (l.parts.s3, 3)],
      ∀ p, x.1 = some p → p.index = x.2 := by
    intro x hx p hp
    simp only [List.mem_cons, List.not_mem_nil, or_false] at hx
    obtain rfl | rfl | rfl | rfl := hx
    · exact hplace 0 p hp
    · exact hplace 1 p hp
    · exact hplace 2 p hp
    · exact hplace 3 p hp
  rw [← partLines_places hnone hsome hplaces]
  unfold State.slipLines
  rw [hlate]
  rfl

/-! ### What a receipt has to print (R184, R185) -/

section
variable {s : State} {a : Addr} {b : Builder}

theorem State.receiptContent_own : s.receiptContent 0 b = match b.record with
    | some r => .ready r.receipt
    | none => .unavailable := rfl

section
variable (ha : a ≠ 0) {tr : Transfer} (htr : s.print.transfer = some tr)
include ha htr

theorem State.receiptContent_complete (hst : tr.st = .complete) :
    s.receiptContent a b = .ready ((readForm tr.bytes).receipt tr.hireNo) := by
  unfold State.receiptContent
  rw [if_neg ha, htr]
  dsimp only
  rw [hst]

theorem State.receiptContent_ended (hst : tr.st = .unavailable) : s.receiptContent a b = .unavailable := by
  unfold State.receiptContent
  rw [if_neg ha, htr]
  dsimp only
  rw [hst]

theorem State.receiptContent_waiting (hst : tr.st = .opened) : s.receiptContent a b = .waiting := by
  unfold State.receiptContent
  rw [if_neg ha, htr]
  dsimp only
  rw [hst]

end

/-- A record that is there, with its heading's times in seconds or, for a seat, to the minute (R199). -/
theorem State.receiptContent_ready {rc : Receipt} (h : (a = 0 ∧ ∃ r, b.record = some r ∧ rc = r.receipt)
      ∨ (a ≠ 0 ∧ ∃ tr, s.print.transfer = some tr ∧ tr.st = .complete ∧ rc = (readForm tr.bytes).receipt tr.hireNo)) :
    s.receiptContent a b = .ready rc
      ∧ rc.head = (if a = 0 then .headingRest else .headingRestMinutes, rc.heading) := by
  obtain ⟨rfl, r, hrec, rfl⟩ | ⟨ha, tr, htr, hst, rfl⟩ := h
  · rw [State.receiptContent_own, hrec]
    exact ⟨rfl, rfl⟩
  · rw [State.receiptContent_complete ha htr hst, if_neg ha]
    exact ⟨rfl, rfl⟩

theorem State.receiptContent_unavailable (h : (a = 0 ∧ b.record = none)
      ∨ (a ≠ 0 ∧ ∃ tr, s.print.transfer = some tr ∧ tr.st = .unavailable)) : s.receiptContent a b = .unavailable := by
  obtain ⟨rfl, hrec⟩ | ⟨ha, tr, htr, hst⟩ := h
  · rw [State.receiptContent_own, hrec]
  · exact State.receiptContent_ended ha htr hst

end

end Sys2Proof.Machine
end

section
/-! PROOFS. The print jobs, their builder and the printer (O57). -/
namespace Sys2Proof.Machine
open Sys2Proof

section
variable (s : State)

theorem exec_printJobActive : exec .printJobActive s = event (fun u => u.atConsole State.activateJob) s := rfl

theorem exec_printBuild : exec .printBuild s = event (fun u => u.atConsole State.build) s := rfl

theorem exec_printLineFlush : exec .printLineFlush s = event (fun u =>
    if u.print.flush.isSome then u.onPrint fun p => { p with flush := none, released := true } else u) s := rfl

theorem exec_printerReady : exec .printerReady s = event (fun u => u.atConsole State.printerTakes) s := rfl

theorem exec_paperOut : exec .paperOut s = event (fun t => t) (s.onPrint fun p => { p with paperOut := true }) := rfl

theorem exec_paperReturn : exec .paperReturn s
    = event (fun t => t.onPrint fun p => { p with given := 0 }) (s.onPrint fun p => { p with paperOut := false }) := rfl

end

/-! ### A job becomes active (R180, R185) -/

/-- The builder of a job that becomes active. -/
def Builder.fresh (r : Option HireRecord) : Builder := { record := r, line := 0, headOpen := false, finished := false }

/-- The transfer opened for a receipt of a seat (R185). -/
def Transfer.opening (a : Addr) (no : Nat) (silent : Bool) (gen : Nat) : Transfer :=
  { target := a, hireNo := no, m := none, parts := [none, none, none, none, none, none], requery := 0, suspended := none, first := 0
    queryHeld := false, limit := none, st := if silent then .unavailable else .opened, gen := gen }

section
variable {s : State} {job : Job} {rest : List Job}

theorem State.activateJob_none (h : s.print.jobs = [] ∨ s.print.builder ≠ none) : s.activateJob = s := by
  unfold State.activateJob
  split
  · next hjob hnone =>
    obtain h | h := h
    · rw [h] at hjob
      cases hjob
    · exact absurd hnone h
  · rfl

section
variable (hnone : s.print.builder = none)
include hnone

theorem State.activateJob_own {no : Nat} (hjobs : s.print.jobs = .receipt 0 no :: rest) :
    s.activateJob = s.onPrint fun p => { p with builder := some (.fresh (s.logRecord no)) } := by
  unfold State.activateJob
  rw [hjobs, hnone]
  rfl

theorem State.activateJob_listed (hjobs : s.print.jobs = job :: rest)
    (hjob : job = .vehicleReport ∨ job = .lastReport ∨ ∃ a, job = .lateSlip a) :
    s.activateJob = s.onPrint fun p => { p with builder := some (.fresh none) } := by
  unfold State.activateJob
  rw [hjobs, hnone]
  obtain rfl | rfl | ⟨a, rfl⟩ := hjob <;> rfl

theorem State.activateJob_seat {a : Addr} {no : Nat} (ha : a ≠ 0) (hjobs : s.print.jobs = .receipt a no :: rest) :
    s.activateJob = (s.onPrint fun p => { p with builder := some (.fresh none) }).openTransfer a no := by
  unfold State.activateJob
  rw [hjobs, hnone]
  exact if_neg ha

end

/-- An opened transfer after its event: its query is queued or held, and a LINK_SILENT station has no transfer. -/
theorem State.settleEvent_openTransfer (hq : s.Quiet) (a : Addr) (no : Nat) : ∃ held,
    (s.openTransfer a no).settleEvent.print.builder = s.print.builder
      ∧ (s.openTransfer a no).settleEvent.print.transfer = some ((Transfer.opening a no s.silent s.print.gen).holding held)
      ∧ (s.silent = false → (s.openTransfer a no).settleEvent.Offered (held = true) 7 (encRecordQuery no a 0)) := by
  have hquiet : (s.onPrint fun p =>
      { p with transfer := some (.opening a no s.silent s.print.gen), gen := p.gen + 1 }).Quiet := hq.onPrint _
  cases hsilent : s.silent with
  | true =>
    have hopens : s.openTransfer a no = s.onPrint fun p =>
        { p with transfer := some (.opening a no s.silent s.print.gen), gen := p.gen + 1 } := if_pos hsilent
    rw [hopens, hquiet.settleEvent_print, hsilent]
    exact ⟨false, rfl, rfl, fun hawake => absurd hawake.symm Bool.false_ne_true⟩
  | false =>
    have hopens : s.openTransfer a no = (s.onPrint fun p =>
        { p with transfer := some (.opening a no s.silent s.print.gen), gen := p.gen + 1 }).offer .recordQuery :=
      if_neg (Bool.eq_false_iff.1 hsilent)
    obtain ⟨held, hprint, hoffered⟩ := State.settleEvent_recordQuery (tr := .opening a no s.silent s.print.gen) hquiet rfl
    rw [hopens, hprint, ← hsilent]
    exact ⟨held, rfl, rfl, fun _ => hoffered⟩

end

/-! ### The builder (R181, R183, R184) -/

section
variable {s : State} {b : Builder} {lines : List (PrintLabel × List Nat)} {x : PrintLabel × List Nat}

/-- The builder after a line of its list: the last line ends with CUT and finishes it. -/
def Builder.wrote (b : Builder) (last : Bool) : Builder := { b with line := b.line + 1, finished := last }

theorem State.buildLine_eq {i : Nat} (hx : lines[i]? = some x) : s.buildLine b i lines
    = s.writeLine (lineEntries x (decide (lines.length ≤ i + 1))) (b.wrote (decide (lines.length ≤ i + 1))) := by
  unfold State.buildLine
  rw [hx]
  rfl

theorem State.buildListed_full (hfull : 512 < s.print.queue.length + 128) : s.buildListed b lines = s :=
  if_neg fun hroom => absurd (Print.hasRoom_iff.1 hroom) (Nat.not_le.2 hfull)

theorem State.buildListed_line (hroom : s.print.queue.length + 128 ≤ 512) (hx : lines[b.line]? = some x) : s.buildListed b lines
    = s.writeLine (lineEntries x (decide (lines.length ≤ b.line + 1))) (b.wrote (decide (lines.length ≤ b.line + 1))) :=
  (if_pos (Print.hasRoom_iff.2 hroom)).trans (State.buildLine_eq hx)

theorem State.releaseLate_eq (hb : s.print.builder = some b) (a : Addr) : s.releaseLate a = { s with
    close := if b.finished = true then { s.close with rows := s.close.rows.set a { s.close.rows.get a with late := none } }
      else s.close } := by
  unfold State.releaseLate State.onClose
  rw [hb]
  dsimp only [Option.map_some, Option.getD_some]
  split <;> rfl

section
variable {job : Job} {rest : List Job} (hjobs : s.print.jobs = job :: rest) (hb : s.print.builder = some b)
include hjobs hb

theorem State.build_rests (h : b.finished = true ∨ s.supply.state = .low) : s.build = s := by
  unfold State.build
  rw [hjobs, hb]
  exact if_pos h

variable (hfin : b.finished = false) (hlow : s.supply.state ≠ .low)
include hfin hlow

theorem State.build_report (hjob : job = .vehicleReport ∨ job = .lastReport) : s.build = s.buildListed b s.reportOrNone := by
  unfold State.build
  rw [hjobs, hb]
  obtain rfl | rfl := hjob <;> exact if_neg (not_or.2 ⟨Bool.eq_false_iff.1 hfin, hlow⟩)

theorem State.build_slip {a : Addr} (hjob : job = .lateSlip a) :
    s.build = (s.buildListed b (s.slipLines a)).releaseLate a := by
  unfold State.build
  rw [hjobs, hb, hjob]
  exact if_neg (not_or.2 ⟨Bool.eq_false_iff.1 hfin, hlow⟩)

theorem State.build_receipt {a : Addr} {no : Nat} (hjob : job = .receipt a no) : s.build = s.buildReceipt a no b := by
  unfold State.build
  rw [hjobs, hb, hjob]
  exact if_neg (not_or.2 ⟨Bool.eq_false_iff.1 hfin, hlow⟩)

end

/-! ### The pieces of a receipt (R184) -/

section
variable {a : Addr} {no : Nat} {rc : Receipt}

section
variable (hopen : b.headOpen = true)
include hopen

theorem State.buildReceipt_heading (hc : s.receiptContent a b = .ready rc) : s.buildReceipt a no b
    = s.writeLine (itemEntries 24 rc.head ++ [.control .feed]) { b with headOpen := false, line := 1 } := by
  unfold State.buildReceipt
  rw [if_pos hopen, hc]

theorem State.buildReceipt_noHeading (hc : s.receiptContent a b = .unavailable) : s.buildReceipt a no b
    = s.writeLine [.control .feed] { b with headOpen := false, line := 1 } := by
  unfold State.buildReceipt
  rw [if_pos hopen, hc]

theorem State.buildReceipt_waits (hc : s.receiptContent a b = .waiting) : s.buildReceipt a no b = s := by
  unfold State.buildReceipt
  rw [if_pos hopen, hc]

end

variable (hended : b.headOpen = false)
include hended

theorem State.buildReceipt_full (hfull : 512 < s.print.queue.length + 128) : s.buildReceipt a no b = s := by
  unfold State.buildReceipt
  rw [if_neg (Bool.eq_false_iff.1 hended), if_neg fun hroom => absurd (Print.hasRoom_iff.1 hroom) (Nat.not_le.2 hfull)]

variable (hroom : s.print.queue.length + 128 ≤ 512)
include hroom

theorem State.buildReceipt_begins (hline : b.line = 0) : s.buildReceipt a no b
    = s.writeLine (itemEntries 23 (.headingStart, [a.val, no])) { b with headOpen := true } := by
  unfold State.buildReceipt
  rw [if_neg (Bool.eq_false_iff.1 hended), if_pos (Print.hasRoom_iff.2 hroom), if_pos hline]

theorem State.buildReceipt_line (hline : 1 ≤ b.line) (hc : s.receiptContent a b = .ready rc) (hx : rc.lines[b.line - 1]? = some x) :
    s.buildReceipt a no b
      = s.writeLine (lineEntries x (decide (rc.lines.length ≤ b.line))) (b.wrote (decide (rc.lines.length ≤ b.line))) := by
  unfold State.buildReceipt
  rw [if_neg (Bool.eq_false_iff.1 hended), if_pos (Print.hasRoom_iff.2 hroom), if_neg (Nat.ne_of_gt hline), hc]
  dsimp only
  rw [State.buildLine_eq hx, Nat.sub_add_cancel hline]

theorem State.buildReceipt_unavailable (hline : b.line = 1) (hc : s.receiptContent a b = .unavailable) : s.buildReceipt a no b
    = s.writeLine (lineEntries (.recordUnavailable, []) true) { b with line := 2, finished := true } := by
  unfold State.buildReceipt
  rw [if_neg (Bool.eq_false_iff.1 hended), if_pos (Print.hasRoom_iff.2 hroom), if_neg (by omega), hc]
  dsimp only
  rw [State.buildLine_eq (x := (.recordUnavailable, [])) (by rw [hline]; rfl), Builder.wrote, hline]
  rfl

end

end

/-! ### The printer line (R180, R182, R183) -/

section
variable {p : Print} {e : PrintEntry}

theorem Print.take_inside (he : e.ends = false) : p.take e = { p with given := p.given + 1 } := if_neg (Bool.eq_false_iff.1 he)

theorem Print.take_line (he : e.ends = true)
    (hmore : p.queue.drop (p.given + 1) ≠ [] ∨ (p.builder.map (·.finished)).getD false = false) :
    p.take e = { p with queue := p.queue.drop (p.given + 1), given := 0 } := by
  refine (if_pos he).trans (if_neg fun ⟨hempty, hfin⟩ => ?_)
  obtain hmore | hmore := hmore
  · exact hmore (List.isEmpty_iff.1 hempty)
  · exact Bool.false_ne_true (hmore.symm.trans hfin)

theorem Print.take_last (he : e.ends = true) (hlast : p.queue.drop (p.given + 1) = [])
    (hfin : (p.builder.map (·.finished)).getD false = true) :
    p.take e = { p with queue := [], given := 0, jobs := p.jobs.drop 1, builder := none, transfer := none } := by
  refine (if_pos he).trans ?_
  rw [hlast]
  exact if_pos ⟨rfl, hfin⟩

variable {s : State}

theorem State.printerTakes_entry (hpaper : s.print.paperOut = false) (hlow : s.supply.state ≠ .low)
    (he : s.print.queue[s.print.given]? = some e)
    (hready : s.print.released = true ∨ ∃ x ∈ s.print.queue.drop s.print.given, x.ends = true) :
    s.printerTakes = { s with lines := { s.lines with printer := some e }, print := s.print.take e } := by
  have hnext : s.print.nextEntry = some e := (if_pos (hready.imp_right List.any_eq_true.2)).trans he
  unfold State.printerTakes
  rw [if_neg (not_or.2 ⟨Bool.eq_false_iff.1 hpaper, hlow⟩), hnext]
  rfl

theorem State.printerTakes_nothing (h : s.print.paperOut = true ∨ s.supply.state = .low ∨ s.print.queue.length ≤ s.print.given) :
    s.printerTakes = s := by
  by_cases hheld : s.print.paperOut = true ∨ s.supply.state = .low
  · exact if_pos hheld
  · have hend : s.print.queue.length ≤ s.print.given := (or_assoc.2 h).resolve_left hheld
    have hnext : s.print.nextEntry = none := by
      unfold Print.nextEntry
      rw [List.getElem?_eq_none hend]
      exact ite_self none
    unfold State.printerTakes
    rw [if_neg hheld, hnext]

end

/-! ### The commands -/

section
variable {s : State} (hr : s.supply.running = true) (h0 : s.addr = 0)
include hr h0

theorem consoleEvent_quiet {f : State → State} {u : State} (hf : f s = u) (hquiet : u.Quiet) :
    event (fun v => v.atConsole f) s = .next u.signUpdate :=
  event_quiet hr ((State.atConsole_console f h0).trans hf) hquiet

variable (hq : s.Quiet)
include hq

theorem printBuild_writes {es : List PrintEntry} {b : Builder} (hf : s.build = s.writeLine es b) :
    exec .printBuild s = .next (State.signUpdate { s with print := { s.print.write es with builder := some b } }) :=
  (exec_printBuild s).trans (consoleEvent_quiet hr h0 hf (hq.of_same rfl rfl rfl rfl))

theorem printBuild_waits (hf : s.build = s) : exec .printBuild s = .next s.signUpdate :=
  (exec_printBuild s).trans (consoleEvent_quiet hr h0 hf hq)

end

end Sys2Proof.Machine
end

section
/-! PROOFS. The commands of the print unit (O57). -/
namespace Sys2Proof.Machine
open Sys2Proof

/-- A whole line: at most 48 entries, of which FEED or CUT is the last and the only one that ends it (R181). -/
theorem lineEntries_shape (x : PrintLabel × List Nat) (last : Bool) : (lineEntries x last).length ≤ 48
    ∧ (lineEntries x last).getLast? = some (.control (if last then .cut else .feed))
    ∧ ∀ e ∈ (lineEntries x last).dropLast, e.ends = false := by
  refine ⟨lineEntries_length_le x last, List.getLast?_concat, fun e he => ?_⟩
  unfold lineEntries at he
  rw [List.dropLast_concat] at he
  exact itemEntries_ends _ x e he

section
variable {s : State} (hr : s.supply.running = true) (h0 : s.addr = 0) (hq : s.Quiet)
include hr h0 hq

/-! ### PRINT_JOB_ACTIVE (R180, R185) -/

section
variable {job : Job} {rest : List Job} (hnone : s.print.builder = none)
include hnone

theorem printJobActive_own {no : Nat} (hjobs : s.print.jobs = .receipt 0 no :: rest) : exec .printJobActive s
    = .next (State.signUpdate { s with print := { s.print with builder := some (.fresh (s.logRecord no)) } }) :=
  (exec_printJobActive s).trans (consoleEvent_quiet hr h0 (State.activateJob_own hnone hjobs) (hq.of_same rfl rfl rfl rfl))

theorem printJobActive_listed (hjobs : s.print.jobs = job :: rest)
    (hjob : job = .vehicleReport ∨ job = .lastReport ∨ ∃ a, job = .lateSlip a) : exec .printJobActive s
      = .next (State.signUpdate { s with print := { s.print with builder := some (.fresh none) } }) :=
  (exec_printJobActive s).trans (consoleEvent_quiet hr h0 (State.activateJob_listed hnone hjobs hjob) (hq.of_same rfl rfl rfl rfl))

theorem printJobActive_seat {a : Addr} {no : Nat} (ha : a ≠ 0) (hjobs : s.print.jobs = .receipt a no :: rest) :
    ∃ t held, exec .printJobActive s = .next t ∧ t.print.builder = some (.fresh none)
      ∧ t.print.transfer = some ((Transfer.opening a no s.silent s.print.gen).holding held)
      ∧ (s.silent = false → t.Offered (held = true) 7 (encRecordQuery no a 0)) := by
  obtain ⟨held, hbuilder, htransfer, hoffered⟩ :=
    State.settleEvent_openTransfer (hq.onPrint fun p => { p with builder := some (.fresh none) }) a no
  refine ⟨_, held, ?_, hbuilder, htransfer, hoffered⟩
  rw [exec_printJobActive, event_next hr, State.atConsole_console _ h0, State.activateJob_seat hnone ha hjobs]

end

theorem printJobActive_waits (h : s.print.jobs = [] ∨ s.print.builder ≠ none) : exec .printJobActive s = .next s.signUpdate :=
  (exec_printJobActive s).trans (consoleEvent_quiet hr h0 (State.activateJob_none h) hq)

/-! ### PRINT_BUILD of a report or a slip (R167, R181, R184) -/

section
variable {job : Job} {rest : List Job} {b : Builder} (hjobs : s.print.jobs = job :: rest) (hb : s.print.builder = some b)
include hjobs hb

theorem printBuild_rests (h : b.finished = true ∨ s.supply.state = .low) : exec .printBuild s = .next s.signUpdate :=
  printBuild_waits hr h0 hq (State.build_rests hjobs hb h)

variable (hfin : b.finished = false) (hlow : s.supply.state ≠ .low)
include hfin hlow

theorem printBuild_report (hjob : job = .vehicleReport ∨ job = .lastReport) :
    (512 < s.print.queue.length + 128 → exec .printBuild s = .next s.signUpdate)
    ∧ (∀ x, s.print.queue.length + 128 ≤ 512 → s.reportOrNone[b.line]? = some x →
      exec .printBuild s = .next (State.signUpdate { s with
        print := { s.print.write (lineEntries x (decide (s.reportOrNone.length ≤ b.line + 1))) with
          builder := some (b.wrote (decide (s.reportOrNone.length ≤ b.line + 1))) } })) := by
  have hbuild := State.build_report hjobs hb hfin hlow hjob
  exact ⟨fun hfull => printBuild_waits hr h0 hq (hbuild.trans (State.buildListed_full hfull)),
    fun x hroom hx => printBuild_writes hr h0 hq (hbuild.trans (State.buildListed_line hroom hx))⟩

theorem printBuild_slip {a : Addr} (hjob : job = .lateSlip a) :
    (512 < s.print.queue.length + 128 → exec .printBuild s = .next s.signUpdate)
    ∧ (∀ x, s.print.queue.length + 128 ≤ 512 → (s.slipLines a)[b.line]? = some x →
      ∀ last, last = decide ((s.slipLines a).length ≤ b.line + 1) →
      exec .printBuild s = .next (State.signUpdate { s with
        print := { s.print.write (lineEntries x last) with builder := some (b.wrote last) }
        close := if last = true then { s.close with rows := s.close.rows.set a { s.close.rows.get a with late := none } }
          else s.close })) := by
  have hbuild := State.build_slip hjobs hb hfin hlow hjob
  refine ⟨fun hfull => printBuild_waits hr h0 hq ?_, fun x hroom hx last hlast => ?_⟩
  · rw [hbuild, State.buildListed_full hfull, State.releaseLate_eq hb, if_neg (Bool.eq_false_iff.1 hfin)]
  · rw [State.buildListed_line hroom hx, ← hlast, State.releaseLate_eq rfl] at hbuild
    exact (exec_printBuild s).trans (consoleEvent_quiet hr h0 hbuild (hq.of_same rfl rfl rfl rfl))

/-! ### PRINT_BUILD of a receipt (R184, R185) -/

section
variable {a : Addr} {no : Nat} (hjob : job = .receipt a no)
include hjob

theorem printBuild_record {rc : Receipt} (hc : s.receiptContent a b = .ready rc) :
    (b.headOpen = true → exec .printBuild s = .next (State.signUpdate { s with
      print := { s.print.write (itemEntries 24 rc.head ++ [.control .feed]) with
        builder := some { b with headOpen := false, line := 1 } } }))
    ∧ (b.headOpen = false → 1 ≤ b.line → 512 < s.print.queue.length + 128 → exec .printBuild s = .next s.signUpdate)
    ∧ (∀ x, b.headOpen = false → 1 ≤ b.line → s.print.queue.length + 128 ≤ 512 → rc.lines[b.line - 1]? = some x →
      exec .printBuild s = .next (State.signUpdate { s with
        print := { s.print.write (lineEntries x (decide (rc.lines.length ≤ b.line))) with
          builder := some (b.wrote (decide (rc.lines.length ≤ b.line))) } })) := by
  have hbuild := State.build_receipt hjobs hb hfin hlow hjob
  exact ⟨fun hopen => printBuild_writes hr h0 hq (hbuild.trans (State.buildReceipt_heading hopen hc)),
    fun hended _ hfull => printBuild_waits hr h0 hq (hbuild.trans (State.buildReceipt_full hended hfull)),
    fun x hended hline hroom hx =>
      printBuild_writes hr h0 hq (hbuild.trans (State.buildReceipt_line hended hroom hline hc hx))⟩

theorem printBuild_unavailable (hc : s.receiptContent a b = .unavailable) (hended : b.headOpen = false) (hline : b.line = 1)
    (hroom : s.print.queue.length + 128 ≤ 512) : exec .printBuild s = .next (State.signUpdate { s with
      print := { s.print.write (lineEntries (.recordUnavailable, []) true) with
        builder := some { b with line := 2, finished := true } } }) :=
  printBuild_writes hr h0 hq
    ((State.build_receipt hjobs hb hfin hlow hjob).trans (State.buildReceipt_unavailable hended hroom hline hc))

theorem printBuild_begins (hended : b.headOpen = false) (hline : b.line = 0) (hroom : s.print.queue.length + 128 ≤ 512) :
    exec .printBuild s = .next (State.signUpdate { s with
      print := { s.print.write (itemEntries 23 (.headingStart, [a.val, no])) with builder := some { b with headOpen := true } } }) :=
  printBuild_writes hr h0 hq
    ((State.build_receipt hjobs hb hfin hlow hjob).trans (State.buildReceipt_begins hended hroom hline))

theorem printBuild_awaitsRecord (hc : s.receiptContent a b = .waiting) (hopen : b.headOpen = true) :
    exec .printBuild s = .next s.signUpdate :=
  printBuild_waits hr h0 hq ((State.build_receipt hjobs hb hfin hlow hjob).trans (State.buildReceipt_waits hopen hc))

theorem printBuild_noHeading (hc : s.receiptContent a b = .unavailable) (hopen : b.headOpen = true) :
    exec .printBuild s = .next (State.signUpdate { s with
      print := { s.print.write [.control .feed] with builder := some { b with headOpen := false, line := 1 } } }) :=
  printBuild_writes hr h0 hq
    ((State.build_receipt hjobs hb hfin hlow hjob).trans (State.buildReceipt_noHeading hopen hc))

end

end

/-! ### PRINTER_READY (R180, R182, R183) -/

theorem printerReady_takes {e : PrintEntry} (hpaper : s.print.paperOut = false) (hlow : s.supply.state ≠ .low)
    (he : s.print.queue[s.print.given]? = some e)
    (hready : s.print.released = true ∨ ∃ x ∈ s.print.queue.drop s.print.given, x.ends = true) : exec .printerReady s
      = .next (State.signUpdate { s with lines := { s.lines with printer := some e }, print := s.print.take e }) :=
  (exec_printerReady s).trans
    (consoleEvent_quiet hr h0 (State.printerTakes_entry hpaper hlow he hready) (hq.of_same rfl rfl rfl rfl))

theorem printerReady_nothing (h : s.print.paperOut = true ∨ s.supply.state = .low ∨ s.print.queue.length ≤ s.print.given) :
    exec .printerReady s = .next s.signUpdate :=
  (exec_printerReady s).trans (consoleEvent_quiet hr h0 (State.printerTakes_nothing h) hq)

end

/-! ### PRINT_LINE_FLUSH, PAPER_OUT and PAPER_RETURN (R182, R183) -/

section
variable {s : State} (hr : s.supply.running = true) (hq : s.Quiet)
include hr hq

theorem printLineFlush_due (h : s.print.flush ≠ none) :
    exec .printLineFlush s = .next (State.signUpdate { s with print := { s.print with flush := none, released := true } }) :=
  (exec_printLineFlush s).trans (event_quiet hr (if_pos (Option.isSome_iff_ne_none.2 h)) (hq.of_same rfl rfl rfl rfl))

theorem printLineFlush_none (h : s.print.flush = none) : exec .printLineFlush s = .next s.signUpdate :=
  (exec_printLineFlush s).trans (event_quiet hr (if_neg fun hs => Option.isSome_iff_ne_none.1 hs h) hq)

theorem paperOut_next : exec .paperOut s = .next (State.signUpdate { s with print := { s.print with paperOut := true } }) :=
  (exec_paperOut s).trans (event_quiet hr rfl (hq.of_same rfl rfl rfl rfl))

theorem paperReturn_next :
    exec .paperReturn s = .next (State.signUpdate { s with print := { s.print with paperOut := false, given := 0 } }) :=
  (exec_paperReturn s).trans (event_quiet hr rfl (hq.of_same rfl rfl rfl rfl))

end

/-- Settles O57. -/
theorem printUnitBuildsAndPrints : Obligations.PrintUnitBuildsAndPrints := by
  unfold Obligations.PrintUnitBuildsAndPrints
  refine ⟨fun r d n due o hd hn hdue ho => ?lines, lineEntries_shape, ?commands⟩
  case lines => exact HireRecord.receipt_lines hd hn hdue ho
  rintro s hr h0 hq next rfl fresh rfl
  refine ⟨fun hnone => ⟨?own, ?listed, ?seat, ?none⟩, fun job rest b hjobs hb => ⟨?active, ?rests, fun hfin hlow => ?build⟩,
    printLineFlush_due hr hq, printLineFlush_none hr hq, ?takes, printerReady_nothing hr h0 hq, paperOut_next hr hq,
    paperReturn_next hr hq⟩
  case own => exact fun no rest hjobs => printJobActive_own hr h0 hq hnone hjobs
  case listed => exact fun job rest hjobs hjob => printJobActive_listed hr h0 hq hnone hjobs hjob
  case seat => exact fun a no rest ha hjobs => printJobActive_seat hr h0 hq hnone ha hjobs
  case none => exact fun hjobs => printJobActive_waits hr h0 hq (.inl hjobs)
  case active => exact printJobActive_waits hr h0 hq (.inr (hb ▸ Option.some_ne_none b))
  case rests => exact printBuild_rests hr h0 hq hjobs hb
  case build =>
    refine ⟨?report, ?slip, ?receipt, ?begins, ?waits, ?noHeading⟩
    case report =>
      rintro lines hjob rfl
      exact printBuild_report hr h0 hq hjobs hb hfin hlow hjob
    case slip =>
      intro a l lines hjob hlate hlines hplace
      rw [hlines, ← State.slipLines_late hlate hplace (fun _ => rfl) (fun _ _ => rfl)]
      exact printBuild_slip hr h0 hq hjobs hb hfin hlow hjob
    case receipt =>
      refine fun a no hjob => ⟨fun rc hrecord => ?_, fun hno => ?_⟩
      · obtain ⟨hready, hhead⟩ := State.receiptContent_ready hrecord
        rw [← hhead]
        exact printBuild_record hr h0 hq hjobs hb hfin hlow hjob hready
      · exact printBuild_unavailable hr h0 hq hjobs hb hfin hlow hjob (State.receiptContent_unavailable hno)
    case begins => exact fun a no hjob => printBuild_begins hr h0 hq hjobs hb hfin hlow hjob
    case waits =>
      exact fun a no tr hjob ha htr hst => printBuild_awaitsRecord hr h0 hq hjobs hb hfin hlow hjob
        (State.receiptContent_waiting ha htr hst)
    case noHeading =>
      exact fun a no tr hjob ha htr hst => printBuild_noHeading hr h0 hq hjobs hb hfin hlow hjob
        (State.receiptContent_ended ha htr hst)
  case takes =>
    rintro e hpaper hlow he hready rest rfl
    have hnext := printerReady_takes hr h0 hq hpaper hlow he hready
    refine ⟨fun hinside => ?_, fun hends hmore => ?_, fun hends hlast hfin => ?_⟩
    · rw [hnext, Print.take_inside hinside]
    · rw [hnext, Print.take_line hends hmore]
    · rw [hnext, Print.take_last hends hlast hfin]

end Sys2Proof.Machine
end

section
/-! PROOFS. The supply monitor: what it counts, and what its counts and the stops do (O59). -/
namespace Sys2Proof.Machine
open Sys2Proof

/-! ### The filter counts (R187, R193) -/

theorem counting_eq (t : Timer) (holds : Bool) (n : Nat) :
    counting t holds n = if holds = true then some (t.getD n) else none := by
  unfold counting
  cases t <;> rfl

/-- A count that stands is not begun again while its condition holds. -/
theorem counting_again (t : Timer) (holds : Bool) (n : Nat) : counting (counting t holds n) holds n = counting t holds n := by
  cases holds with
  | false => rfl
  | true => simp only [counting_eq, if_true, Option.getD_some]

theorem Supply.recount_eq (p : Supply) : p.recount = { p with
    low := if p.running = true ∧ p.state = .normal ∧ p.mv < 10000 then some (p.low.getD 200) else none
    normal := if p.running = true ∧ p.state = .low ∧ 10800 < p.mv then some (p.normal.getD 2000) else none
    fail := if p.state ≠ .fail ∧ p.mv < 6000 then some (p.fail.getD 1) else none
    start := if p.running = false ∧ p.resetLine = false ∧ 7000 ≤ p.mv then some (p.start.getD 500) else none } := by
  unfold Supply.recount
  simp only [counting_eq, Bool.and_eq_true, beq_iff_eq, bne_iff_ne, decide_eq_true_eq, Bool.not_eq_true', and_assoc]
  rfl

/-- Counting again at the stop that an asserted reset line makes comes to the same as counting once, with the line and the stop
told together (R191). -/
theorem Supply.recount_stopped (p : Supply) :
    { ({ p with resetLine := true } : Supply).recount with running := false, stopCause := .pin, updateMark := false }.recount
      = ({ p with resetLine := true, running := false, stopCause := .pin, updateMark := false } : Supply).recount := by
  unfold Supply.recount
  dsimp only
  rw [counting_again]
  rfl

/-! ### The load of the sign (R100, R188) -/

/-- No offer touches the sign or what goes out on its line. -/
theorem State.tryOffer_sign (s : State) (o : Offer) : (s.tryOffer o).sign = s.sign ∧ (s.tryOffer o).lines = s.lines := by
  obtain ⟨-, h⟩ | ⟨payload, tag, -, ⟨l, -, h⟩ | ⟨-, h⟩⟩ := s.tryOffer_cases o <;> rw [h]
  · exact ⟨rfl, rfl⟩
  · cases o with
    | hireEvent =>
      obtain ⟨p, l', ht⟩ := (s.onLink fun _ => l).offerTaken_hireEvent
      rw [ht]
      exact ⟨rfl, rfl⟩
    | _ => exact ⟨rfl, rfl⟩
  · cases o with
    | command a =>
      obtain ⟨i, hc⟩ := s.offerRefused_command a
      rw [hc]
      exact ⟨rfl, rfl⟩
    | _ => exact ⟨rfl, rfl⟩

/-- Before the recompute at its end an event has not touched the sign. -/
theorem State.flushOffers_sign (s : State) :
    s.lateCloseIfDue.flushOffers.sign = s.sign ∧ s.lateCloseIfDue.flushOffers.lines = s.lines := by
  refine flush_keeps (P := fun u => u.sign = s.sign ∧ u.lines = s.lines) (fun u o hu => ?_) (fun _ _ _ hu => hu) ?_
  · obtain ⟨hsign, hlines⟩ := u.tryOffer_sign o
    exact ⟨hsign.trans hu.1, hlines.trans hu.2⟩
  · obtain ⟨sh, os, n, hform⟩ := s.lateCloseIfDue_form'
    rw [hform]
    exact ⟨rfl, rfl⟩

/-- In OFF nothing is sent at the end of an event (R100). -/
theorem State.settleEvent_off {s : State} (h : s.sign.control = .off) :
    s.settleEvent.sign = s.sign ∧ s.settleEvent.lines = s.lines := by
  obtain ⟨hsign, hlines⟩ := s.flushOffers_sign
  have hrest : s.settleEvent = s.lateCloseIfDue.flushOffers := by
    refine if_neg ?_
    rw [hsign, h]
    simp
  rw [hrest]
  exact ⟨hsign, hlines⟩

theorem State.dueSign_control (s : State) (m : SignMsg) : (s.dueSign m).sign.control = s.sign.control := by
  unfold State.dueSign
  split <;> rfl

/-- Once the sign repeats it does so after the end of the event too (R94). -/
theorem State.settleEvent_repeating {s : State} (h : s.sign.control = .repeating) :
    s.settleEvent.sign.control = .repeating := by
  show (State.signUpdate _).sign.control = _
  unfold State.signUpdate
  split
  · exact State.dueSign_control _ _
  · rw [s.flushOffers_sign.1]
    exact h

section
variable {s : State}

theorem State.signOff_kept (s : State) : s.Kept s.signOff := by
  unfold State.signOff
  split
  · exact (State.onSign_kept s _).trans (State.dueSign_kept _ _)
  · exact .refl s

theorem State.signOn_kept (s : State) : s.Kept s.signOn := by
  unfold State.signOn
  split
  · exact (State.onSign_kept s _).trans (State.dueSign_kept _ _)
  · exact .refl s

/-- The sign of station 0 sent OFF: its timers stop, and the message goes out unless a wait for a reply stands (R96, R100). -/
theorem State.signOff_console (h0 : s.addr = 0) :
    s.signOff.sign.control = .off ∧ s.signOff.sign.period = none ∧ s.signOff.sign.test = none
      ∧ (s.sign.wait = none → s.signOff.lines.sign = signMessage .off s.signMode.1 s.signMode.2 s.brightness) := by
  unfold State.signOff
  rw [if_pos (s.isConsole_iff.2 h0)]
  unfold State.dueSign
  split
  · next hwait => exact ⟨rfl, rfl, rfl, fun hnone => absurd hnone (Option.isSome_iff_ne_none.1 hwait)⟩
  · exact ⟨rfl, rfl, rfl, fun _ => rfl⟩

theorem State.signOn_console (h0 : s.addr = 0) : s.signOn.sign.control = .repeating := by
  unfold State.signOn
  rw [if_pos (s.isConsole_iff.2 h0)]
  exact State.dueSign_control _ _

end

/-! ### The commands -/

section
variable (s : State)

theorem exec_supplyLevelChange (mv : Nat) :
    exec (.supplyLevelChange mv) s = event (fun t => t) (s.onSupply fun p => { p with mv := mv }.recount) := rfl

theorem exec_supplyLow : exec .supplyLow s =
    event (fun s => if s.supply.state = .normal ∧ s.supply.low.isSome then s.enterLow else s) s := rfl

theorem exec_supplyNormal : exec .supplyNormal s =
    event (fun s => if s.supply.state = .low ∧ s.supply.normal.isSome then s.enterNormal else s) s := rfl

theorem exec_supplyFail (cut : Bool) : exec (.supplyFail cut) s = .next (if s.supply.fail.isSome then
    if s.supply.running then s.halt .fail cut else s.onSupply fun p => { p with state := .fail }.recount else s) := rfl

theorem exec_resetAsserted : exec .resetAsserted s = .next (if s.supply.running then
    (s.onSupply fun p => { p with resetLine := true }.recount).halt .pin false
    else s.onSupply fun p => { p with resetLine := true }.recount) := rfl

theorem exec_backupLoss : exec .backupLoss s =
    .next (if s.supply.running then s else s.onSupply fun p => { p with backupValid := false }) := rfl

end

/-! ### A running station (R187 to R189, R191) -/

section
variable {s : State} (hr : s.supply.running = true)
include hr

theorem supplyLevelChange_running (mv : Nat) : ∃ t, exec (.supplyLevelChange mv) s = .next t
    ∧ ({ s with supply := { s.supply with mv := mv }.recount } : State).Kept t := by
  rw [exec_supplyLevelChange]
  exact event_kept hr (.refl _)

theorem supplyLow_enters (hstate : s.supply.state = .normal) (hlow : s.supply.low ≠ none) :
    ∃ t, exec .supplyLow s = .next t
      ∧ ({ s with supply := { s.supply with state := .low, low := none }.recount
                  console := { s.console with keys := .idle, keyTimer := none } } : State).Kept t
      ∧ (s.addr = 0 → t.sign.control = .off ∧ t.sign.period = none ∧ t.sign.test = none
        ∧ (s.sign.wait = none → t.lines.sign = signMessage .off s.signMode.1 s.signMode.2 s.brightness)) := by
  have henter : (if s.supply.state = .normal ∧ s.supply.low.isSome then s.enterLow else s) = s.enterLow :=
    if_pos ⟨hstate, Option.isSome_iff_ne_none.2 hlow⟩
  refine ⟨s.enterLow.settleEvent, ?_, (State.signOff_kept _).trans (State.settleEvent_kept _), fun h0 => ?_⟩
  · rw [exec_supplyLow, event_next hr, henter]
  · have hoff := State.signOff_console (s := (s.onSupply fun p => { p with state := .low, low := none }.recount).onConsole
      fun c => { c with keys := .idle, keyTimer := none }) h0
    obtain ⟨hsign, hlines⟩ := State.settleEvent_off (s := s.enterLow) hoff.1
    rw [hsign, hlines]
    exact hoff

theorem supplyLow_idle (h : s.supply.state ≠ .normal ∨ s.supply.low = none) :
    ∃ t, exec .supplyLow s = .next t ∧ s.Kept t := by
  rw [exec_supplyLow]
  refine event_keeps hr (if_neg fun ⟨hstate, hlow⟩ => ?_) (.refl s)
  exact h.elim (absurd hstate) (Option.isSome_iff_ne_none.1 hlow)

theorem supplyNormal_enters (hstate : s.supply.state = .low) (hnormal : s.supply.normal ≠ none) :
    ∃ t, exec .supplyNormal s = .next t
      ∧ ({ s with supply := { s.supply with state := .normal, normal := none }.recount
                  print := { s.print with given := 0 } } : State).Kept t
      ∧ (s.addr = 0 → t.sign.control = .repeating) := by
  have henter : (if s.supply.state = .low ∧ s.supply.normal.isSome then s.enterNormal else s) = s.enterNormal :=
    if_pos ⟨hstate, Option.isSome_iff_ne_none.2 hnormal⟩
  refine ⟨s.enterNormal.settleEvent, ?_, (State.signOn_kept _).trans (State.settleEvent_kept _), fun h0 => ?_⟩
  · rw [exec_supplyNormal, event_next hr, henter]
  · exact State.settleEvent_repeating (State.signOn_console h0)

theorem supplyNormal_idle (h : s.supply.state ≠ .low ∨ s.supply.normal = none) :
    ∃ t, exec .supplyNormal s = .next t ∧ s.Kept t := by
  rw [exec_supplyNormal]
  refine event_keeps hr (if_neg fun ⟨hstate, hnormal⟩ => ?_) (.refl s)
  exact h.elim (absurd hstate) (Option.isSome_iff_ne_none.1 hnormal)

theorem supplyFail_stops (cut : Bool) (hfail : s.supply.fail ≠ none) : exec (.supplyFail cut) s = .next { s with supply :=
    { s.supply with state := .fail, running := false, stopCause := .fail, updateMark := cut }.recount } := by
  rw [exec_supplyFail, if_pos (Option.isSome_iff_ne_none.2 hfail), if_pos hr]
  rfl

theorem resetAsserted_stops : exec .resetAsserted s = .next { s with supply :=
    { s.supply with resetLine := true, running := false, stopCause := .pin, updateMark := false }.recount } := by
  rw [exec_resetAsserted, if_pos hr, ← Supply.recount_stopped]
  rfl

theorem backupLoss_running : exec .backupLoss s = .next s := by
  rw [exec_backupLoss, if_pos hr]

end

/-! ### A stopped station (R187, R190, R191, R193) -/

section
variable {s : State} (hr : s.supply.running = false)
include hr

theorem supplyLevelChange_stopped (mv : Nat) :
    exec (.supplyLevelChange mv) s = .next { s with supply := { s.supply with mv := mv }.recount } := by
  rw [exec_supplyLevelChange]
  exact event_stopped hr

theorem supplyFail_stopped (cut : Bool) (hfail : s.supply.fail ≠ none) :
    exec (.supplyFail cut) s = .next { s with supply := { s.supply with state := .fail }.recount } := by
  rw [exec_supplyFail, if_pos (Option.isSome_iff_ne_none.2 hfail), hr]
  rfl

theorem resetAsserted_stopped :
    exec .resetAsserted s = .next { s with supply := { s.supply with resetLine := true }.recount } := by
  rw [exec_resetAsserted, hr]
  rfl

theorem backupLoss_stopped :
    exec .backupLoss s = .next { s with supply := { s.supply with backupValid := false } } := by
  rw [exec_backupLoss, hr]
  rfl

end

/-- A FAIL whose count does not stand changes nothing (R187). -/
theorem supplyFail_uncounted {s : State} (cut : Bool) (hfail : s.supply.fail = none) : exec (.supplyFail cut) s = .next s := by
  rw [exec_supplyFail, hfail]
  rfl

/-- Settles O59. -/
theorem supplyMonitorCountsAndStops : Obligations.SupplyMonitorCountsAndStops := by
  unfold Obligations.SupplyMonitorCountsAndStops
  refine ⟨Supply.recount_eq, fun s hr => ⟨?level, ?low, ?noLow, ?normal, ?noNormal, ?fail, ?noFail, ?reset, ?backup⟩,
    fun s hr => ⟨?level', ?fail', ?noFail', ?reset', ?backup'⟩, fun s => rfl⟩
  case level => exact supplyLevelChange_running hr
  case low => exact supplyLow_enters hr
  case noLow => exact supplyLow_idle hr
  case normal => exact supplyNormal_enters hr
  case noNormal => exact supplyNormal_idle hr
  case fail => exact supplyFail_stops hr
  case noFail => exact fun cut => supplyFail_uncounted cut
  case reset => exact resetAsserted_stops hr
  case backup => exact backupLoss_running hr
  case level' => exact supplyLevelChange_stopped hr
  case fail' => exact supplyFail_stopped hr
  case noFail' => exact fun cut => supplyFail_uncounted cut
  case reset' => exact resetAsserted_stopped hr
  case backup' => exact backupLoss_stopped hr

end Sys2Proof.Machine
end

section
/-! PROOFS. The start: its classification, what a warm one restores, and a start that is cut (O60). -/
namespace Sys2Proof.Machine
open Sys2Proof

/-! ### The start condition, and the cause (R192, R193) -/

section
variable {s : State} (pins : StrapPins) (bytes : Option (List Byte))

theorem start_waits (reach : StartEnd) (h : s.supply.running = true ∨ s.supply.start ≠ some 0) :
    exec (.start pins bytes reach) s = .next s := by
  refine congrArg _ (if_neg fun ⟨hstopped, hdue⟩ => ?_)
  refine h.elim (fun hrun => ?_) (absurd hdue)
  rw [hrun] at hstopped
  exact Bool.noConfusion hstopped

section
variable (hstopped : s.supply.running = false) (hdue : s.supply.start = some 0)
include hstopped hdue

theorem start_cutEarly (c : StopCause) :
    exec (.start pins bytes (.cutEarly c)) s = .next { s with supply := s.supply.cutStart c } :=
  congrArg _ (if_pos ⟨by rw [hstopped]; rfl, hdue⟩)

theorem start_cutInDomain (c : StopCause) (short : Bool) :
    exec (.start pins bytes (.cutInDomain c short)) s = .next (s.startCut pins bytes c short) :=
  congrArg _ (if_pos ⟨by rw [hstopped]; rfl, hdue⟩)

theorem start_complete : exec (.start pins bytes .complete) s = .next (s.startWhole pins bytes) :=
  congrArg _ (if_pos ⟨by rw [hstopped]; rfl, hdue⟩)

end
end

/-- The domain cannot be restored for this address: not held, not whole, or another station's (R192). -/
def Supply.Lost (p : Supply) (addr : Addr) : Prop :=
  p.backupValid = false ∨ p.updateMark = true ∨ p.retainedAddr ≠ addr

section
variable {p : Supply} {addr : Addr}

theorem Supply.classify_lost (h : p.Lost addr) : p.classify addr = .cold := by
  refine if_pos ?_
  simpa only [Supply.Lost, Bool.or_eq_true, Bool.not_eq_true', bne_iff_ne, or_assoc] using h

theorem Supply.classify_held (h : ¬ p.Lost addr) :
    p.classify addr = match p.stopCause with | .fail => .supply | .pin => .pin := by
  refine if_neg fun hcold => h ?_
  simpa only [Supply.Lost, Bool.or_eq_true, Bool.not_eq_true', bne_iff_ne, or_assoc] using hcold

theorem Supply.classify_warm (h : ¬ p.Lost addr) : p.classify addr ≠ .cold := by
  rw [Supply.classify_held h]
  cases p.stopCause <;> exact StartCause.noConfusion

end

theorem State.domainAt_warm (s : State) {cause : StartCause} (h : cause ≠ .cold) : s.domainAt cause = s.restoreDomain := by
  cases cause with
  | cold => exact absurd rfl h
  | supply => rfl
  | pin => rfl

/-! ### The shift at a warm start (R156, R169) -/

/-- The shift that a warm start continues: not CLOSING any more, and with the start counted. -/
def Shift.restored (sh : Shift) : Shift :=
  { sh with
    state := if sh.state = .closing then .onShift else sh.state
    acc := if sh.state = .offShift then sh.acc else { sh.acc with warmStarts := min 65535 (sh.acc.warmStarts + 1) } }

theorem Shift.restored_offShift (sh : Shift) :
    (if sh.state = .closing then ShiftState.onShift else sh.state) = .offShift ↔ sh.state = .offShift := by
  split
  · next hclosing =>
    rw [hclosing]
    exact ⟨ShiftState.noConfusion, ShiftState.noConfusion⟩
  · exact Iff.rfl

/-- The station with a CLOSING shift back ON_SHIFT, and that told by station 0 (R169). -/
def State.closingLeft (s : State) : State :=
  if s.shift.state = .closing then
    if s.isConsole then (s.onShift fun sh => { sh with state := .onShift }).sendShift (.abandon s.shift.number)
    else s.onShift fun sh => { sh with state := .onShift }
  else s

theorem State.closingLeft_form (s : State) : ∃ held os, s.closingLeft = { s with
    shift := { s.shift with state := if s.shift.state = .closing then .onShift else s.shift.state, held := held }
    offers := os } := by
  unfold State.closingLeft
  by_cases hclosing : s.shift.state = .closing
  · simp only [if_pos hclosing]
    split
    · exact State.sendShift_form _ _
    · exact ⟨s.shift.held, s.offers, rfl⟩
  · simp only [if_neg hclosing]
    exact ⟨s.shift.held, s.offers, rfl⟩

theorem State.restoreShift_eq (s : State) :
    s.restoreShift = s.closingLeft.account fun a => { a with warmStarts := min 65535 (a.warmStarts + 1) } := by
  unfold State.restoreShift State.closingLeft
  by_cases hclosing : s.shift.state = .closing
  · simp only [hclosing, beq_self_eq_true, if_true, true_and]
    rfl
  · simp only [beq_false_of_ne hclosing, Bool.false_eq_true, if_false, false_and, if_neg hclosing]
    rfl

/-- What a warm start does to the shift, and that nothing else but the offers is touched. -/
theorem State.restoreShift_form (s : State) :
    ∃ held os, s.restoreShift = { s with shift := { s.shift.restored with held := held }, offers := os } := by
  obtain ⟨held, os, hleft⟩ := s.closingLeft_form
  refine ⟨held, os, ?_⟩
  rw [State.restoreShift_eq, hleft, State.account_eq, Shift.added_fields]
  simp only [Shift.restored_offShift]
  rfl

/-! ### The payment session at a warm start (R147, R197, R139) -/

/-- A session whose PAY has not been sent is over (R147). -/
theorem Session.restore_unsent {ses : Session}
    (h : ses = .none ∨ (∃ c, ses = .tipSelect c) ∨ ∃ q, ses = .cardWait q ∧ q.txn = .none) : ses.restore = .none := by
  obtain rfl | ⟨c, rfl⟩ | ⟨q, rfl, htxn⟩ := h
  · rfl
  · rfl
  · exact if_neg fun hsent => Option.isSome_iff_ne_none.1 hsent htxn

theorem Session.restore_sent {ses : Session} {q : CardSession}
    (h : ses = .enquiry q ∨ (ses = .cardWait q ∧ q.txn ≠ .none)) : ses.restore = .enquiry q := by
  obtain rfl | ⟨rfl, htxn⟩ := h
  · rfl
  · exact if_pos (Option.isSome_iff_ne_none.2 htxn)

theorem Session.restore_cases (ses : Session) : ses.restore = .none ∨ ∃ q, ses.restore = .enquiry q := by
  cases ses with
  | none => exact .inl rfl
  | tipSelect c => exact .inl rfl
  | enquiry q => exact .inr ⟨q, rfl⟩
  | cardWait q =>
    by_cases htxn : q.txn = .none
    · exact .inl (Session.restore_unsent (.inr (.inr ⟨q, rfl, htxn⟩)))
    · exact .inr ⟨q, Session.restore_sent (.inr ⟨rfl, htxn⟩)⟩

section
variable {s : State} {q : CardSession}

theorem State.restorePay_none (h : s.pay.session.restore = .none) :
    s.restorePay = { s with pay := { s.pay with session := .none } } := by
  unfold State.restorePay
  dsimp only [State.onPay]
  rw [h]

theorem State.restorePay_fitted (h : s.pay.session.restore = .enquiry q) (hcard : s.straps.card = true) :
    s.restorePay = { s with pay := { s.pay with session := .enquiry q } } := by
  unfold State.restorePay
  dsimp only [State.onPay]
  rw [h]
  exact if_pos hcard

/-- Without a module the session cannot be enquired about: it is in doubt (R197). -/
theorem State.restorePay_unfitted (h : s.pay.session.restore = .enquiry q) (hcard : s.straps.card = false) :
    s.restorePay = ({ s with pay := { s.pay with session := .enquiry q } } : State).inDoubt q := by
  unfold State.restorePay
  dsimp only [State.onPay]
  rw [h]
  exact if_neg (Bool.eq_false_iff.1 hcard)

/-- A session in doubt is one more reversal, and touches besides only the missed count and what the passenger is shown (R139). -/
theorem State.inDoubt_form (s : State) (q : CardSession) : ∃ entry d timer, s.inDoubt q = { s with
    pay := { session := .none, tipTimer := none, overall := none, reversals := s.pay.reversals ++ [entry] }
    card := { s.card with missed := 0 }, display := d, intercom := { s.intercom with promptTimer := timer } } := by
  unfold State.inDoubt State.endSession State.showOutcome
  dsimp only [State.onPay, State.onCard, State.onDisplay, State.onIntercom]
  exact ⟨_, _, _, rfl⟩

/-- What a warm start touches for the session. -/
theorem State.restorePay_form (s : State) : ∃ missed d timer, s.restorePay = { s with
    pay := s.restorePay.pay, card := { s.card with missed := missed }, display := d
    intercom := { s.intercom with promptTimer := timer } } := by
  obtain hnone | ⟨q, hsent⟩ := s.pay.session.restore_cases
  · rw [State.restorePay_none hnone]
    exact ⟨s.card.missed, s.display, s.intercom.promptTimer, rfl⟩
  · cases hcard : s.straps.card with
    | true =>
      rw [State.restorePay_fitted hsent hcard]
      exact ⟨s.card.missed, s.display, s.intercom.promptTimer, rfl⟩
    | false =>
      obtain ⟨entry, d, timer, hdoubt⟩ := ({ s with pay := { s.pay with session := .enquiry q } } : State).inDoubt_form q
      rw [State.restorePay_unfitted hsent hcard, hdoubt]
      exact ⟨0, d, timer, rfl⟩

end

/-! ### The domain as a warm start restores it (R195) -/

/-- The station with its hire slot restored (R24). -/
def State.slotRestored (s : State) : State := s.onHire fun h => { h with slot := h.slot.restore s.clock.seconds }

theorem State.restoreDomain_form (s : State) : ∃ missed d timer held os, s.restoreDomain = { s with
    hire := { s.hire with slot := s.hire.slot.restore s.clock.seconds }
    pay := s.slotRestored.restorePay.pay
    card := { s.card with missed := missed }
    display := d
    intercom := { s.intercom with promptTimer := timer }
    shift := { s.shift.restored with held := held }
    offers := os } := by
  obtain ⟨missed, d, timer, hpay⟩ := s.slotRestored.restorePay_form
  obtain ⟨held, os, hshift⟩ := s.slotRestored.restorePay.restoreShift_form
  refine ⟨missed, d, timer, held, os, hshift.trans ?_⟩
  rw [hpay]
  rfl

/-! ### A start that is cut (R193 to R195) -/

section
variable {s : State} {pins : StrapPins} (bytes : Option (List Byte)) (c : StopCause)

theorem State.startCut_cold (h : s.supply.Lost pins.addr) (short : Bool) :
    s.startCut pins bytes c short = { s with supply := ({ s.supply with backupValid := false } : Supply).cutStart c } := by
  unfold State.startCut
  rw [Supply.classify_lost h]
  rfl

theorem State.startCut_warm (h : ¬ s.supply.Lost pins.addr) (short : Bool) :
    s.startCut pins bytes c short = ((s.readStart pins bytes).restoreCut short).onSupply fun p => p.cutStart c := by
  have hwarm := Supply.classify_warm h
  unfold State.startCut
  split
  · next hcold => exact absurd hcold hwarm
  · rfl
  · rfl

/-- A restoration over which the hold does not last: all that it would have changed stands as it was, under the update mark. -/
theorem State.startCut_short (h : ¬ s.supply.Lost pins.addr) : s.startCut pins bytes c true =
    { s.readStart pins bytes with supply := ({ s.supply with updateMark := true } : Supply).cutStart c } :=
  State.startCut_warm bytes c h true

/-- A restoration that the hold completes (R195). -/
theorem State.startCut_held (h : ¬ s.supply.Lost pins.addr) : s.startCut pins bytes c false =
    { (s.readStart pins bytes).restoreDomain with
      offers := [], supply := (s.readStart pins bytes).restoreDomain.supply.cutStart c } :=
  State.startCut_warm bytes c h false

end

end Sys2Proof.Machine
end

section
/-! PROOFS. The first slot of a start, and what the end of its event leaves (O60). -/
namespace Sys2Proof.Machine
open Sys2Proof

/-! ### What the first slot begins (R47, R193, R196, Table 11-3) -/

/-- The timers of a session: an enquiry that continues has its overall time again, unless its CANCEL has been sent (R147). -/
def Pay.continued (p : Pay) : Pay :=
  match p.session with
  | .enquiry q => { p with overall := if q.cancelSent then none else some 900000 }
  | _ => p

/-- The intercom with the prompt raised for an enquiry that continues (R123). -/
def Intercom.enquiring (i : Intercom) (ses : Session) : Intercom :=
  match ses with
  | .enquiry _ => i.prompted
  | _ => i

/-- The latch at station 0's first slot: the start inhibit runs, and the period of a latch that is set (R107). -/
def Distress.begun (d : Distress) : Distress :=
  { d with inhibit := some 30000, period := if d.latch.isSome then some 2500 else d.period }

/-- The clocks of the first slot, before the session and the console come to theirs. -/
def State.clocksBegun (s : State) (cause : StartCause) : State :=
  { s with
    supply := s.supply.firstSlot cause
    pulse := { s.pulse with slot := some 1000 }
    peer := { s.peer with period := some (600 * s.straps.addr.val) }
    card := { s.card with poll := if s.card.moduleState = .notFitted then none else some s.card.pollInterval } }

/-- The station as its first slot begins, but for what frames and the sign touch. -/
def State.begun (s : State) (cause : StartCause) : State :=
  { s.clocksBegun cause with
    pay := s.pay.continued
    intercom := if s.isConsole then s.intercom.enquiring s.pay.session
      else { s.intercom.enquiring s.pay.session with withdrawDue := true }
    distress := if s.isConsole then s.distress.begun else s.distress }

theorem Pay.continued_enquiry {p : Pay} {q : CardSession} (h : p.session = .enquiry q) :
    p.continued = { p with overall := if q.cancelSent then none else some 900000 } := by
  unfold Pay.continued
  rw [h]

theorem Pay.continued_rests {p : Pay} (h : ∀ q, p.session ≠ .enquiry q) : p.continued = p := by
  unfold Pay.continued
  split
  · next q hq => exact absurd hq (h q)
  · rfl

theorem Intercom.enquiring_rests (i : Intercom) {ses : Session} (h : ∀ q, ses ≠ .enquiry q) : i.enquiring ses = i := by
  unfold Intercom.enquiring
  split
  · next q => exact absurd rfl (h q)
  · rfl

theorem Intercom.enquiring_volume (i : Intercom) (ses : Session) : (i.enquiring ses).volume = i.volume := by
  cases ses <;> rfl

section
variable {s t : State}

theorem State.Kept.onDistress (h : s.Kept t) (f : Distress → Distress) : (s.onDistress f).Kept (t.onDistress f) :=
  { h with distress := congrArg f h.distress }

theorem State.Kept.withdrawing (h : s.Kept t) : (s.onIntercom fun i => { i with withdrawDue := true }).Kept
    (t.onIntercom fun i => { i with withdrawDue := true }) := { h with withdrawDue := rfl }

end

section
variable (s : State)

/-- A session that continues gets its overall time and raises the prompt; without one nothing is begun (R123, R147). -/
theorem State.payFirstSlot_cases :
    (s.payFirstSlot = s ∧ s.pay.continued = s.pay ∧ s.intercom.enquiring s.pay.session = s.intercom)
      ∨ (s.payFirstSlot = ({ s with pay := s.pay.continued } : State).raisePrompt
        ∧ s.intercom.enquiring s.pay.session = s.intercom.prompted) := by
  unfold State.payFirstSlot
  split
  · next q hq =>
    rw [hq, Pay.continued_enquiry hq]
    exact .inr ⟨rfl, rfl⟩
  all_goals
    next hother =>
    have hrests : ∀ q, s.pay.session ≠ .enquiry q := fun q hq => Session.noConfusion (hother.symm.trans hq)
    exact .inl ⟨rfl, Pay.continued_rests hrests, s.intercom.enquiring_rests hrests⟩

theorem State.payFirstSlot_kept :
    ({ s with pay := s.pay.continued, intercom := s.intercom.enquiring s.pay.session } : State).Kept s.payFirstSlot := by
  obtain ⟨heq, hpay, hintercom⟩ | ⟨heq, hintercom⟩ := s.payFirstSlot_cases
  · rw [heq, hpay, hintercom]
    exact .refl s
  · rw [heq, hintercom]
    exact State.raisePrompt_kept { s with pay := s.pay.continued }

theorem State.payFirstSlot_other :
    s.payFirstSlot.link = s.link ∧ s.payFirstSlot.console = s.console ∧ s.payFirstSlot.print = s.print := by
  obtain ⟨heq, -, -⟩ | ⟨heq, -⟩ := s.payFirstSlot_cases
  · rw [heq]
    exact ⟨rfl, rfl, rfl⟩
  · obtain ⟨j, os, hform, -⟩ := ({ s with pay := s.pay.continued } : State).moved_form s.intercom.prompted
      s.intercom.promptHolds
    rw [heq, State.raisePrompt_eq, hform]
    exact ⟨rfl, rfl, rfl⟩

theorem State.firstSign_kept : s.Kept s.firstSign := by
  unfold State.firstSign
  split
  · exact (State.onSign_kept s _).trans (State.sendSign_kept _ _)
  · exact State.sendSign_kept s _

theorem State.consoleFirstSlot_kept : (s.onDistress Distress.begun).Kept s.consoleFirstSlot := by
  unfold State.consoleFirstSlot
  refine .trans ?_ (State.firstSign_kept _)
  unfold State.onDistress Distress.begun
  dsimp only
  split
  · exact State.offer_kept _ _
  · exact .refl _

theorem State.firstSign_other :
    s.firstSign.link = s.link ∧ s.firstSign.console = s.console ∧ s.firstSign.print = s.print := by
  unfold State.firstSign
  split <;> exact ⟨rfl, rfl, rfl⟩

theorem State.consoleFirstSlot_other : s.consoleFirstSlot.link = s.link ∧ s.consoleFirstSlot.console = s.console
    ∧ s.consoleFirstSlot.print = s.print := by
  unfold State.consoleFirstSlot
  dsimp only
  split
  · exact State.firstSign_other _
  · exact State.firstSign_other _

theorem State.firstSlot_eq (cause : StartCause) : s.firstSlot cause =
    if s.isConsole then (s.clocksBegun cause).payFirstSlot.consoleFirstSlot
    else (s.clocksBegun cause).payFirstSlot.onIntercom fun i => { i with withdrawDue := true } := by
  have hperiod : ms (60 * s.straps.addr.val) = 600 * s.straps.addr.val := by unfold ms; omega
  have hstraps : (s.clocksBegun cause).payFirstSlot.straps = s.straps := (s.clocksBegun cause).payFirstSlot_kept.straps
  have hconsole : (s.clocksBegun cause).payFirstSlot.isConsole = s.isConsole := congrArg (fun p : Straps => p.addr == 0) hstraps
  rw [← hconsole]
  unfold State.clocksBegun
  rw [← hperiod]
  rfl

theorem State.firstSlot_kept (cause : StartCause) : (s.begun cause).Kept (s.firstSlot cause) := by
  have hpay := (s.clocksBegun cause).payFirstSlot_kept
  rw [State.firstSlot_eq]
  unfold State.begun
  split
  · exact (hpay.onDistress Distress.begun).trans (State.consoleFirstSlot_kept _)
  · exact hpay.withdrawing

/-- The first slot leaves the queue, the commands and the transfer as they are. -/
theorem State.firstSlot_other (cause : StartCause) : (s.firstSlot cause).link = s.link
    ∧ (s.firstSlot cause).console = s.console ∧ (s.firstSlot cause).print = s.print := by
  have hpay := (s.clocksBegun cause).payFirstSlot_other
  rw [State.firstSlot_eq]
  split
  · obtain ⟨hlink, hconsole, hprint⟩ := (s.clocksBegun cause).payFirstSlot.consoleFirstSlot_other
    rw [hlink, hconsole, hprint]
    exact hpay
  · exact hpay

end

/-! ### With nothing in flight, no offer waits as a replacement (R82) -/

/-- No queued entry has begun, and none has a replacement beside it. -/
def Link.Unsent (l : Link) : Prop := l.repl = none ∧ ∀ e ∈ l.queue, e.begun = false

section
variable {l : Link} (h : l.Unsent)
include h

theorem Link.Unsent.inFlight (cls : Nat) : l.inFlight cls = false := by
  refine Bool.eq_false_iff.2 fun hflies => ?_
  obtain ⟨e, he, -, hbegun⟩ := (l.inFlight_iff cls).1 hflies
  exact Bool.false_ne_true ((h.2 e he).symm.trans hbegun)

theorem Link.Unsent.replace (cls : Nat) (payload : List Byte) : (l.replace cls payload).Unsent := by
  refine ⟨h.1, fun e he => ?_⟩
  obtain ⟨x, hx, rfl⟩ := List.mem_map.1 he
  split
  · exact h.2 x hx
  · exact h.2 x hx

theorem Link.Unsent.refresh (payload : List Byte) : (l.refresh payload).Unsent := by
  unfold Link.refresh
  rw [h.inFlight]
  split
  · contradiction
  · split
    · exact h.replace 6 payload
    · exact h

theorem Link.Unsent.offer {l' : Link} {now cls : Nat} {payload : List Byte} {tag : Tag}
    (ho : l.offer now cls payload tag = some l') : l'.Unsent := by
  unfold Link.offer at ho
  rw [h.inFlight] at ho
  repeat' split at ho
  all_goals cases ho
  · contradiction
  · exact h.replace cls payload
  · refine ⟨h.1, fun e he => ?_⟩
    obtain rfl | hold := (mem_insertEntry _ _ _).1 he
    · rfl
    · exact h.2 e hold

end

/-- Nothing waits as a replacement, and no transfer is open. -/
def State.Unsent (s : State) : Prop := s.link.Unsent ∧ s.print.transfer = none

theorem State.Unsent.tryOffer {s : State} (h : s.Unsent) (o : Offer) : (s.tryOffer o).Unsent := by
  obtain ⟨hlink, htransfer⟩ := h
  obtain ⟨-, ht⟩ | ⟨payload, tag, hoff, ⟨l, hl, ht⟩ | ⟨-, ht⟩⟩ := s.tryOffer_cases o <;> rw [ht]
  · exact ⟨hlink, htransfer⟩
  · have htaken : l.Unsent := hlink.offer hl
    cases o with
    | hireEvent =>
      unfold State.offerTaken
      dsimp only
      split
      · exact ⟨htaken.refresh _, htransfer⟩
      · exact ⟨htaken, htransfer⟩
    | recordQuery =>
      refine ⟨htaken, ?_⟩
      show s.print.transfer.map _ = none
      rw [htransfer]
      rfl
    | _ => exact ⟨htaken, htransfer⟩
  · refine ⟨by rw [State.offerRefused_link]; exact hlink, ?_⟩
    cases o with
    | command a =>
      obtain ⟨i, hc⟩ := s.offerRefused_command a
      rw [hc]
      exact htransfer
    | recordQuery =>
      show s.print.transfer.map _ = none
      rw [htransfer]
      rfl
    | _ => exact htransfer

theorem State.Unsent.settleEvent {s : State} (h : s.Unsent) : s.settleEvent.Unsent := by
  have hlate : s.lateCloseIfDue.Unsent := by
    obtain ⟨sh, os, n, hform⟩ := s.lateCloseIfDue_form'
    rw [hform]
    exact h
  have hflush := flush_keeps (P := State.Unsent) (fun u o hu => hu.tryOffer o) (fun _ _ _ hu => hu) hlate
  obtain ⟨-, hlink, -, -, -, hprint, -⟩ := s.lateCloseIfDue.flushOffers.signUpdate_blocks
  unfold State.Unsent State.settleEvent
  rw [hlink, hprint]
  exact hflush

end Sys2Proof.Machine
end

section
/-! PROOFS. The statement about the start (O60). -/
namespace Sys2Proof.Machine
open Sys2Proof

/-! ### What no start retains (R24, R83, R123, R169, R179, R186, R197) -/

/-- The work on the domain, cold or warm, leaves what the start has read and begun afresh. -/
structure State.SameVolatile (r v : State) : Prop where
  straps  : v.straps = r.straps
  image   : v.image = r.image
  link    : v.link = r.link
  peer    : v.peer = r.peer
  pulse   : v.pulse = r.pulse
  close   : v.close = r.close
  console : v.console = r.console
  print   : v.print = r.print
  fitted  : v.card.moduleState = r.card.moduleState
  mv      : v.supply.mv = r.supply.mv

theorem State.domainAt_volatile (r : State) (cause : StartCause) : r.SameVolatile (r.domainAt cause) := by
  by_cases hcold : cause = .cold
  · rw [hcold]
    exact ⟨rfl, rfl, rfl, rfl, rfl, rfl, rfl, rfl, rfl, rfl⟩
  · obtain ⟨missed, d, timer, held, os, hform⟩ := r.restoreDomain_form
    rw [State.domainAt_warm r hcold, hform]
    exact ⟨rfl, rfl, rfl, rfl, rfl, rfl, rfl, rfl, rfl, rfl⟩

theorem Quad.eq_of_get {α : Type} {q : Quad α} {x : α} (h : ∀ a, q.get a = x) : q = ⟨x, x, x, x⟩ := by
  obtain ⟨x0, x1, x2, x3⟩ := q
  rw [show x0 = x from h 0, show x1 = x from h 1, show x2 = x from h 2, show x3 = x from h 3]

section
variable (s : State) (pins : StrapPins) (bytes : Option (List Byte))

/-- The station once the start has done its work on the domain. -/
def State.domainDone : State := (s.readStart pins bytes).domainAt (s.supply.classify pins.addr)

theorem State.domainDone_volatile : (s.readStart pins bytes).SameVolatile (s.domainDone pins bytes) :=
  State.domainAt_volatile _ _

theorem State.startWhole_kept :
    ((s.domainDone pins bytes).begun (s.supply.classify pins.addr)).Kept (s.startWhole pins bytes) :=
  (State.firstSlot_kept _ _).trans (State.settleEvent_kept _)

theorem State.startWhole_supply : (s.startWhole pins bytes).supply.running = true
    ∧ (s.startWhole pins bytes).supply.state = (if 10800 < s.supply.mv then .normal else .low)
    ∧ (s.startWhole pins bytes).supply.cause = s.supply.classify pins.addr := by
  have hmv : (s.domainDone pins bytes).supply.mv = s.supply.mv := (s.domainDone_volatile pins bytes).mv
  rw [(s.startWhole_kept pins bytes).supply, ← hmv]
  exact ⟨rfl, rfl, rfl⟩

theorem State.startWhole_link : (s.startWhole pins bytes).link.fairness = 0 ∧ (s.startWhole pins bytes).link.clash = false
    ∧ (s.startWhole pins bytes).link.synced = false ∧ (s.startWhole pins bytes).link.pause = none
    ∧ (s.startWhole pins bytes).link.repl = none ∧ (s.startWhole pins bytes).print.transfer = none := by
  have hkept := s.startWhole_kept pins bytes
  have hvol := s.domainDone_volatile pins bytes
  obtain ⟨hlink, -, hprint⟩ := (s.domainDone pins bytes).firstSlot_other (s.supply.classify pins.addr)
  replace hlink := hlink.trans hvol.link
  obtain ⟨hfairness, hpause⟩ := ((s.domainDone pins bytes).firstSlot (s.supply.classify pins.addr)).settleEvent_line
  have hunsent : ((s.domainDone pins bytes).firstSlot (s.supply.classify pins.addr)).Unsent := by
    unfold State.Unsent
    rw [hlink, hprint, hvol.print]
    exact ⟨⟨rfl, fun e he => absurd he List.not_mem_nil⟩, rfl⟩
  obtain ⟨⟨hrepl, -⟩, htransfer⟩ := hunsent.settleEvent
  rw [hlink] at hfairness hpause
  exact ⟨hfairness, hkept.clash.trans (congrArg Link.clash hvol.link), hkept.synced.trans (congrArg Link.synced hvol.link),
    hpause, hrepl, htransfer⟩

theorem State.startWhole_console : (s.startWhole pins bytes).console.keys = .idle
    ∧ (s.startWhole pins bytes).console.selected = 0 ∧ (s.startWhole pins bytes).console.cmds = ⟨none, none, none, none⟩
    ∧ (s.startWhole pins bytes).console.nextSeq = 0 := by
  have hkept := s.startWhole_kept pins bytes
  have hvol := (s.domainDone_volatile pins bytes).console
  obtain ⟨-, hconsole, -⟩ := (s.domainDone pins bytes).firstSlot_other (s.supply.classify pins.addr)
  refine ⟨hkept.keys.trans (congrArg Console.keys hvol), hkept.selected.trans (congrArg Console.selected hvol),
    Quad.eq_of_get fun a => State.settleEvent_noCmd ?_, hkept.nextSeq.trans (congrArg Console.nextSeq hvol)⟩
  show ((s.domainDone pins bytes).firstSlot _).console.cmds.get a = none
  rw [hconsole, hvol]
  match a with
  | 0 | 1 | 2 | 3 => rfl

theorem State.domainDone_isConsole : (s.domainDone pins bytes).isConsole = (pins.addr == 0) :=
  congrArg (fun p : Straps => p.addr == 0) (s.domainDone_volatile pins bytes).straps

theorem State.startWhole_distress (h0 : pins.addr = 0) : (s.startWhole pins bytes).distress.inhibit = some 30000
    ∧ ((s.startWhole pins bytes).distress.latch ≠ none → (s.startWhole pins bytes).distress.period = some 2500) := by
  have hbegun : (s.startWhole pins bytes).distress = (s.domainDone pins bytes).distress.begun :=
    (s.startWhole_kept pins bytes).distress.trans (if_pos (by rw [State.domainDone_isConsole, h0]; rfl))
  rw [hbegun]
  exact ⟨rfl, fun hlatch => if_pos (Option.isSome_iff_ne_none.2 hlatch)⟩

theorem State.startWhole_withdraws (h0 : pins.addr ≠ 0) : (s.startWhole pins bytes).intercom.withdrawDue = true := by
  have hseat : (s.domainDone pins bytes).isConsole = false := by
    rw [State.domainDone_isConsole]
    exact beq_false_of_ne h0
  rw [(s.startWhole_kept pins bytes).withdrawDue]
  unfold State.begun
  rw [hseat]
  rfl

/-- The latch and the volume stand as the domain has them (R107, R121). -/
theorem State.startWhole_latch : (s.startWhole pins bytes).distress.latch = (s.domainDone pins bytes).distress.latch := by
  rw [(s.startWhole_kept pins bytes).distress]
  unfold State.begun
  dsimp only
  split <;> rfl

theorem State.startWhole_volume : (s.startWhole pins bytes).intercom.volume = (s.domainDone pins bytes).intercom.volume := by
  have hvolume := (s.domainDone pins bytes).intercom.enquiring_volume (s.domainDone pins bytes).pay.session
  rw [(s.startWhole_kept pins bytes).volume]
  unfold State.begun
  dsimp only
  split <;> exact hvolume

/-- An enquiry that continues has the prompt raised (R123). -/
theorem State.startWhole_prompt {q : CardSession} (h : (s.domainDone pins bytes).pay.session = .enquiry q) :
    (s.startWhole pins bytes).intercom.prompt = true := by
  rw [(s.startWhole_kept pins bytes).prompt]
  unfold State.begun
  rw [h]
  dsimp only
  split <;> rfl

end

/-! ### The domain by its classification (R194, R195) -/

section
variable {s : State} {pins : StrapPins} (bytes : Option (List Byte))

theorem State.domainDone_cold (h : s.supply.Lost pins.addr) :
    s.domainDone pins bytes = (s.readStart pins bytes).coldDomain := by
  unfold State.domainDone
  rw [Supply.classify_lost h]
  rfl

theorem State.domainDone_warm (h : ¬ s.supply.Lost pins.addr) :
    s.domainDone pins bytes = (s.readStart pins bytes).restoreDomain :=
  State.domainAt_warm _ (Supply.classify_warm h)

/-- The payment block after a warm start (R147). -/
theorem State.startWhole_pay (h : ¬ s.supply.Lost pins.addr) :
    (s.startWhole pins bytes).pay = (s.readStart pins bytes).slotRestored.restorePay.pay.continued := by
  obtain ⟨missed, d, timer, held, os, hform⟩ := (s.readStart pins bytes).restoreDomain_form
  have hpay := (s.startWhole_kept pins bytes).pay
  rw [State.domainDone_warm bytes h, hform] at hpay
  exact hpay

variable {q : CardSession}

theorem State.startWhole_sessionOver (h : ¬ s.supply.Lost pins.addr) (hses : s.pay.session.restore = .none) :
    (s.startWhole pins bytes).pay.session = .none ∧ (s.startWhole pins bytes).pay.reversals = s.pay.reversals := by
  rw [State.startWhole_pay bytes h, State.restorePay_none (s := (s.readStart pins bytes).slotRestored) hses]
  exact ⟨rfl, rfl⟩

theorem State.startWhole_sessionContinues (h : ¬ s.supply.Lost pins.addr) (hses : s.pay.session.restore = .enquiry q)
    (hcard : pins.card = true) :
    (s.startWhole pins bytes).pay.session = .enquiry q ∧ (s.startWhole pins bytes).pay.reversals = s.pay.reversals
      ∧ (s.startWhole pins bytes).pay.overall = (if q.cancelSent then none else some 900000)
      ∧ (s.startWhole pins bytes).intercom.prompt = true := by
  have hfitted := State.restorePay_fitted (s := (s.readStart pins bytes).slotRestored) hses hcard
  have hprompt : (s.domainDone pins bytes).pay.session = .enquiry q := by
    obtain ⟨missed, d, timer, held, os, hform⟩ := (s.readStart pins bytes).restoreDomain_form
    rw [State.domainDone_warm bytes h, hform, hfitted]
  refine ⟨?_, ?_, ?_, s.startWhole_prompt pins bytes hprompt⟩ <;> rw [State.startWhole_pay bytes h, hfitted] <;> rfl

theorem State.startWhole_sessionDoubted (h : ¬ s.supply.Lost pins.addr) (hses : s.pay.session.restore = .enquiry q)
    (hcard : pins.card = false) : (s.startWhole pins bytes).pay.session = .none
      ∧ (s.startWhole pins bytes).pay.reversals.length = s.pay.reversals.length + 1 := by
  obtain ⟨entry, d, timer, hdoubt⟩ := State.inDoubt_form ({ (s.readStart pins bytes).slotRestored with
    pay := { (s.readStart pins bytes).slotRestored.pay with session := .enquiry q } } : State) q
  rw [State.startWhole_pay bytes h,
    State.restorePay_unfitted (s := (s.readStart pins bytes).slotRestored) hses hcard, hdoubt]
  exact ⟨rfl, List.length_append⟩

/-- The hire slot at a warm start: a hire that runs notes its power gap, and a claim is gone (R24). -/
theorem Slot.restore_eq (sl : Slot) (seconds : Nat) : sl.restore seconds = match sl with
    | .claiming _ => .free
    | .hired h => .hired { h with rc := { h.rc with
        powerGap := true, gapSeconds := h.rc.gapSeconds + (seconds - h.rc.lastSlot) } }
    | sl => sl := by
  cases sl <;> rfl

end

/-- Settles O60. -/
theorem startClassifiesAndRestores : Obligations.StartClassifiesAndRestores := by
  intro pins bytes s
  refine ⟨fun h r => start_waits pins bytes r h, fun hstopped hdue => ?_⟩
  rintro cold rfl cut hcut
  have hcutStart : ∀ c p, cut c p = p.cutStart c := by
    rw [hcut]
    exact fun c p => by cases c <;> rfl
  refine ⟨fun c => ?early, fun c short hcold => ?cutCold, fun c short hwarm => ?cutWarm, ?complete⟩
  case early => rw [hcutStart, start_cutEarly pins bytes hstopped hdue]
  case cutCold => rw [hcutStart, start_cutInDomain pins bytes hstopped hdue, State.startCut_cold bytes c hcold]
  case cutWarm =>
    rw [hcutStart, start_cutInDomain pins bytes hstopped hdue]
    cases short with
    | true =>
      rw [State.startCut_short bytes c hwarm]
      exact ⟨_, rfl, rfl, rfl, rfl, rfl, rfl, rfl, rfl, Bool.noConfusion, fun _ => ⟨rfl, rfl, rfl⟩⟩
    | false =>
      obtain ⟨missed, d, timer, held, os, hform⟩ := (s.readStart pins bytes).restoreDomain_form
      have hunmarked : { s.supply with updateMark := false } = s.supply := by
        rw [← (Bool.eq_false_iff.2 fun hmark => hwarm (.inr (.inl hmark)) : s.supply.updateMark = false)]
      rw [State.startCut_held bytes c hwarm, hform, hunmarked]
      exact ⟨_, rfl, rfl, rfl, rfl, rfl, rfl, rfl, rfl, fun _ => ⟨rfl, rfl, Slot.restore_eq _ _⟩, Bool.noConfusion⟩
  case complete =>
    have hkept := s.startWhole_kept pins bytes
    have hvol := s.domainDone_volatile pins bytes
    obtain ⟨hrunning, hstate, hcause⟩ := s.startWhole_supply pins bytes
    obtain ⟨hfairness, hclash, hsynced, hpause, hrepl, htransfer⟩ := s.startWhole_link pins bytes
    obtain ⟨hkeys, hselected, hcmds, hnextSeq⟩ := s.startWhole_console pins bytes
    have hlatch := s.startWhole_latch pins bytes
    have hvolume := s.startWhole_volume pins bytes
    refine ⟨_, start_complete pins bytes hstopped hdue, hrunning, hstate, hkept.straps.trans hvol.straps,
      hkept.image.trans hvol.image, hfairness, hclash, hsynced, hpause, hrepl, ?rows, ?period, ?pulse, hkeys, hselected, hcmds,
      hnextSeq, ?jobs, ?queue, htransfer, ?close, ?fitted, s.startWhole_distress pins bytes,
      s.startWhole_withdraws pins bytes, fun hcold => ?cold, fun hwarm => ?warm⟩
    case rows => exact hkept.rows.trans (congrArg Peer.rows hvol.peer)
    case period => exact hkept.period.trans (congrArg (fun p : Straps => some (600 * p.addr.val)) hvol.straps)
    case pulse => exact hkept.pulse.trans (congrArg (fun p : Pulse => { p with slot := some 1000 }) hvol.pulse)
    case jobs => exact hkept.jobs.trans (congrArg Print.jobs hvol.print)
    case queue => exact hkept.printQueue.trans (congrArg Print.queue hvol.print)
    case close => exact congrArg Close.state (hkept.close.trans hvol.close)
    case fitted => exact (congrArg Card.moduleState hkept.card).trans hvol.fitted
    case cold =>
      rw [Supply.classify_lost hcold] at hcause
      rw [State.domainDone_cold bytes hcold] at hkept hlatch hvolume
      obtain ⟨hshift, hnumber, -, -, hacc, -, hmark, hlast, -, -, -, hnextNo⟩ := hkept.shift rfl
      exact ⟨hcause, hkept.slot, hkept.log, hnextNo, hkept.clock, hlatch, hvolume, congrArg Pay.session hkept.pay,
        congrArg Pay.reversals hkept.pay, congrArg Card.nextTxn hkept.card, hshift, hnumber, hacc, hmark, hlast,
        congrArg Supply.retainedAddr hkept.supply, congrArg Supply.backupValid hkept.supply,
        congrArg Supply.updateMark hkept.supply⟩
    case warm =>
      obtain ⟨missed, d, timer, held, os, hform⟩ := (s.readStart pins bytes).restoreDomain_form
      rw [Supply.classify_held hwarm] at hcause
      rw [State.domainDone_warm bytes hwarm, hform] at hkept hlatch hvolume
      obtain ⟨hshift, hnumber, hdriver, hopen, hacc, hlost, hmark, hlast, -, -, -, hnextNo⟩ := hkept.shift rfl
      exact ⟨hcause, hkept.log, hnextNo, hkept.clock, hlatch, hvolume, (congrArg Card.nextTxn hkept.card :), hnumber, hdriver,
        hopen, hlost, hmark, hlast, hshift, hacc, hkept.slot.trans (Slot.restore_eq _ _),
        fun hses => State.startWhole_sessionOver bytes hwarm (Session.restore_unsent hses),
        fun q hses hcard => State.startWhole_sessionContinues bytes hwarm (Session.restore_sent hses) hcard,
        fun q hses hcard => State.startWhole_sessionDoubted bytes hwarm (Session.restore_sent hses) hcard⟩

end Sys2Proof.Machine
end

section
/-! PROOFS. The V form is read back, and the checks close (O8). -/
namespace Sys2Proof.Machine
open Sys2Proof

/-! ### The V form (R199) -/

/-- The last group of a V form ends the reading. -/
theorem vRead_last {d : Nat} (hd : d < 128) (acc : Nat) (rest : List Byte) :
    vRead acc (u8 d :: rest) = some (acc * 128 + d, rest) := by
  have hbyte : (u8 d).toNat = d := u8_toNat_of_lt (by omega)
  rw [vRead, hbyte, if_pos hd]

/-- A group with bit 7 set is taken in, and the reading goes on. -/
theorem vRead_more {d : Nat} (hd : d < 128) (acc : Nat) (bs : List Byte) :
    vRead acc (u8 (128 + d) :: bs) = vRead (acc * 128 + d) bs := by
  have hbyte : (u8 (128 + d)).toNat = 128 + d := u8_toNat_of_lt (by omega)
  rw [vRead, hbyte, if_neg (by omega), Nat.add_sub_cancel_left]

theorem vBytes_one {n : Nat} (h : n < 128) : vBytes n = [u8 n] := by
  have hv : min n vMax = n := Nat.min_eq_left (by unfold vMax; omega)
  simp only [vBytes, hv, if_pos h]

theorem vBytes_two {n : Nat} (hlow : 128 ≤ n) (h : n < 16384) : vBytes n = [u8 (128 + n / 128 % 128), u8 (n % 128)] := by
  have hv : min n vMax = n := Nat.min_eq_left (by unfold vMax; omega)
  simp only [vBytes, hv, if_neg (Nat.not_lt.2 hlow), if_pos h]

theorem vBytes_three {n : Nat} (hlow : 16384 ≤ n) (h : n < 2097152) :
    vBytes n = [u8 (128 + n / 16384 % 128), u8 (128 + n / 128 % 128), u8 (n % 128)] := by
  have hv : min n vMax = n := Nat.min_eq_left (by unfold vMax; omega)
  simp only [vBytes, hv, if_neg (by omega : ¬ n < 128), if_neg (Nat.not_lt.2 hlow), if_pos h]

/-- The longest V form, which also stands for every greater value. -/
theorem vBytes_four {n : Nat} (hlow : 2097152 ≤ n) :
    vBytes n = [u8 (128 + min n vMax / 2097152 % 128), u8 (128 + min n vMax / 16384 % 128),
      u8 (128 + min n vMax / 128 % 128), u8 (min n vMax % 128)] := by
  have hv : 2097152 ≤ min n vMax := Nat.le_min.2 ⟨hlow, by decide⟩
  simp only [vBytes, if_neg (by omega : ¬ min n vMax < 128), if_neg (by omega : ¬ min n vMax < 16384),
    if_neg (Nat.not_lt.2 hv)]

theorem vRead_vBytes (n : Nat) (rest : List Byte) : vRead 0 (vBytes n ++ rest) = some (min n vMax, rest) := by
  have hgroup (m : Nat) : m % 128 < 128 := Nat.mod_lt m (by decide)
  have hmax : vMax = 268435455 := rfl
  have hread {m : Nat} (hm : m = min n vMax) : some (m, rest) = some (min n vMax, rest) := by rw [hm]
  obtain h1 | h1 := Nat.lt_or_ge n 128
  · rw [vBytes_one h1, List.singleton_append, vRead_last h1]
    exact hread (by omega)
  obtain h2 | h2 := Nat.lt_or_ge n 16384
  · rw [vBytes_two h1 h2]
    simp only [List.cons_append, List.nil_append, vRead_more (hgroup _), vRead_last (hgroup _)]
    exact hread (by omega)
  obtain h3 | h3 := Nat.lt_or_ge n 2097152
  · rw [vBytes_three h2 h3]
    simp only [List.cons_append, List.nil_append, vRead_more (hgroup _), vRead_last (hgroup _)]
    exact hread (by omega)
  · rw [vBytes_four h3]
    simp only [List.cons_append, List.nil_append, vRead_more (hgroup _), vRead_last (hgroup _)]
    exact hread (by omega)

theorem vBytes_length (n : Nat) : (vBytes n).length
    = if n < 128 then 1 else if n < 16384 then 2 else if n < 2097152 then 3 else 4 := by
  split
  next h => rw [vBytes_one h]; rfl
  next h1 =>
    split
    next h => rw [vBytes_two (Nat.not_lt.1 h1) h]; rfl
    next h2 =>
      split
      next h => rw [vBytes_three (Nat.not_lt.1 h2) h]; rfl
      next h3 => rw [vBytes_four (Nat.not_lt.1 h3)]; rfl

/-! ### The checks take their own bytes in (R198) -/

/-- A register of `w` bits, `k` of them shifted out, takes in the next byte of its own value. -/
theorem crcByte_ownValue {w : Nat} (gen r : BitVec w) {k below : Nat} (hw : k + 8 + below = w) :
    crcByte gen (r <<< k) (u8 (r.toNat / 2 ^ below)) = r <<< (k + 8) := by
  refine crcByte_ownByte gen r (by omega) fun i hi => ?_
  rw [u8, BitVec.getLsbD_ofNat, decide_eq_true hi, Bool.true_and, Nat.testBit_div_two_pow, BitVec.getLsbD,
    show w - 1 - (k + (7 - i)) = i + below by omega]

theorem be32_powers (n : Nat) : be32 n = [u8 (n / 2 ^ 24), u8 (n / 2 ^ 16), u8 (n / 2 ^ 8), u8 (n / 2 ^ 0)] := by
  rw [Nat.pow_zero, Nat.div_one]
  rfl

/-- A register of 32 bits that takes in its own four bytes ends at 0, whatever the generator. -/
theorem foldl_crcByte_be32 (gen r : BitVec 32) : (be32 r.toNat).foldl (crcByte gen) r = 0 := by
  have h0 := crcByte_ownValue gen r (show 0 + 8 + 24 = 32 from rfl)
  rw [BitVec.shiftLeft_zero] at h0
  simp only [be32_powers, List.foldl_cons, List.foldl_nil]
  rw [h0, crcByte_ownValue gen r (by decide), crcByte_ownValue gen r (by decide), crcByte_ownValue gen r (by decide)]
  exact BitVec.shiftLeft_eq_zero (Nat.le_refl 32)

theorem crc32_append_be32 (bs : List Byte) : crc32 (bs ++ be32 (crc32 bs).toNat) = 0 := by
  rw [crc32, List.foldl_append]
  exact foldl_crcByte_be32 0x04C11DB7#32 (crc32 bs)

theorem xorSum_append_xorSum (bs : List Byte) : xorSum (bs ++ [xorSum bs]) = 0 :=
  calc
    xorSum (bs ++ [xorSum bs]) = xorSum bs ^^^ xorSum bs := List.foldl_append
    _ = 0 := BitVec.xor_self

/-- Settles O8. -/
theorem numberFormsReadBackAndChecksClose : Obligations.NumberFormsReadBackAndChecksClose :=
  ⟨fun n rest => ⟨vRead_vBytes n rest, vBytes_length n⟩, crc16_withCrc16, crc32_append_be32, xorSum_append_xorSum⟩

end Sys2Proof.Machine
end
